-- ==== Sys2Proof/Word.lean ====
section
/-!
DEFINITION. The widths the manual uses: a byte, a 64-bit instruction word or g register, and a
64-byte token (R12). Element access and everything a test could correct stand in Machine/Bits.lean.
-/

namespace Sys2Proof

/-- A byte of memory or of a token. -/
abbrev Byte := BitVec 8

/-- A 64-bit word: an instruction word (R103), a g register (R39), a control register (R42). -/
abbrev Word := BitVec 64

/-- The 64 bytes of a token, a window row, an accumulator row or a memory row (R4, R12). -/
abbrev Row := BitVec 512

/-- A map from natural keys to data, listed by strictly rising key; a key that is not listed reads
as the map's default. -/
abbrev Sparse (α : Type) := List (Nat × α)

end Sys2Proof
end

