-- ==== Sys2Proof/Machine/Bits.lean ====
section
/-!
DEFINITION. Elements of a token by type code (R4, R12, Table 1-1), signed reading of an element,
address arithmetic, and the CRC-32C of R102.
-/

namespace Sys2Proof.Machine

/-- Width in bytes of an element of type code `ty` (Table 1-1); type b takes 8 (R123). -/
def tyBytes (ty : BitVec 4) : Nat :=
  match ty.toNat with
  | 0 | 1 | 8 | 9 | 10 | 11 => 1
  | 2 | 3 | 12 | 13 => 2
  | 4 | 5 | 14 => 4
  | _ => 8

/-- Width in bits of an element of type code `ty`. -/
def tyBits (ty : BitVec 4) : Nat := 8 * tyBytes ty

/-- Elements of type code `ty` in a 64-byte token. -/
def tyCount (ty : BitVec 4) : Nat := 64 / tyBytes ty

/-- The s types: 1, 3, 5 and 7 (Table 2-1). -/
def tySigned (ty : BitVec 4) : Bool :=
  match ty.toNat with
  | 1 | 3 | 5 | 7 => true
  | _ => false

/-- The integer types 0 to 7. -/
def tyInt (ty : BitVec 4) : Bool := ty.toNat < 8

/-- Element `e` of width `w` bits, as raw bits (R4). -/
def elem (w : Nat) (t : Row) (e : Nat) : Nat := (t.toNat >>> (w * e)) % 2 ^ w

/-- The token whose element `e` of width `w` holds the low `w` bits of `f e`, for `e < n`;
every other bit is zero. -/
def ofElems (w n : Nat) (f : Nat → Nat) : Row :=
  BitVec.ofNat 512 ((List.range n).foldl (fun acc e => acc + (f e % 2 ^ w) <<< (w * e)) 0)

/-- Byte `i` of a token. -/
def byteAt (t : Row) (i : Nat) : Byte := BitVec.ofNat 8 (elem 8 t i)

/-- The token of the bytes of a list, byte 0 first; missing bytes are zero. -/
def ofBytes (l : List Byte) : Row :=
  BitVec.ofNat 512 (l.foldr (fun b acc => acc * 256 + b.toNat) 0)

/-- The first `n` bytes of a token. -/
def toBytes (n : Nat) (t : Row) : List Byte := (List.range n).map (byteAt t)

/-- The little-endian bytes of a number (R3). -/
def natBytes (n v : Nat) : List Byte := (List.range n).map fun i => BitVec.ofNat 8 (v >>> (8 * i))

/-- The number that little-endian bytes hold (R3). -/
def bytesNat (l : List Byte) : Nat := l.foldr (fun b acc => acc * 256 + b.toNat) 0

/-- The two's-complement reading of the low `w` bits of `n`. -/
def signedOf (w n : Nat) : Int :=
  let m := n % 2 ^ w
  if 2 ^ (w - 1) ≤ m then (m : Int) - 2 ^ w else m

/-- The low `w` bits of an integer, as raw bits. -/
def wrapTo (w : Nat) (x : Int) : Nat := (x % (2 ^ w : Int)).toNat

/-- An element read in its integer type: two's complement for s types, unsigned otherwise (R53). -/
def intOf (ty : BitVec 4) (raw : Nat) : Int :=
  if tySigned ty then signedOf (tyBits ty) raw else raw

/-- Least value of an integer type of `w` bits (Table 2-1). -/
def intMin (signed : Bool) (w : Nat) : Int := if signed then -(2 ^ (w - 1) : Int) else 0

/-- Greatest value of an integer type of `w` bits (Table 2-1). -/
def intMax (signed : Bool) (w : Nat) : Int := if signed then 2 ^ (w - 1) - 1 else 2 ^ w - 1

/-- An integer limited to a type's range (R54). -/
def clampInt (signed : Bool) (w : Nat) (x : Int) : Int :=
  min (max x (intMin signed w)) (intMax signed w)

/-- All ones in `w` bits. -/
def ones (w : Nat) : Nat := 2 ^ w - 1

/-- Bit field [hi:lo] of a number. -/
def field (v hi lo : Nat) : Nat := (v >>> lo) % 2 ^ (hi + 1 - lo)

/-- Bit `i` of a number. -/
def bitOf (v i : Nat) : Bool := (v >>> i) % 2 = 1

/-- The value `x` placed at bit `lo`. -/
def place (x lo : Nat) : Nat := x <<< lo

/-- Addresses are 56 bits and sums are taken modulo 2^56 (R180). -/
def vaAdd (a : Nat) (d : Int) : Nat := (((a : Int) + d) % 2 ^ 56).toNat

/-- One byte of the CRC-32C of R102. -/
def crcByte (crc : Nat) (b : Byte) : Nat :=
  (List.range 8).foldl
    (fun c _ => if c % 2 = 1 then (c >>> 1) ^^^ 0x82F63B78 else c >>> 1) (crc ^^^ b.toNat)

/-- CRC-32C of a byte list under the parameters of R102. -/
def crc32c (l : List Byte) : Nat := (l.foldl crcByte 0xFFFFFFFF) ^^^ 0xFFFFFFFF

/-- The residue modulo 7 of an integer, 0 to 6 (R75). -/
def res7 (v : Int) : Nat := (v % 7).toNat

end Sys2Proof.Machine
end

