-- ==== Sys2Proof/Machine/Flags.lean ====
section
/-!
DEFINITION. The sticky IEEE flags of FPX (R43, Table 1-8) and the rounding modes (R59, Table 2-4).
-/

namespace Sys2Proof.Machine

/-- The five flags of FPX, bit 0 NV up to bit 4 NX (Table 1-8). -/
abbrev Fpx := BitVec 5

/-- Invalid operation. -/
def fNV : Fpx := 0b00001
/-- Division by zero. -/
def fDZ : Fpx := 0b00010
/-- Overflow. -/
def fOF : Fpx := 0b00100
/-- Underflow: tiny and inexact. -/
def fUF : Fpx := 0b01000
/-- Inexact. -/
def fNX : Fpx := 0b10000
/-- No flag. -/
def fNone : Fpx := 0

/-- A flag raised under a condition. -/
def flagIf (c : Bool) (f : Fpx) : Fpx := if c then f else fNone

/-- Rounding mode of mod[1:0] (Table 2-4): 0 RNE, 1 RZ, 2 RU, 3 RD. -/
def modeOf (m : BitVec 4) : Nat := m.toNat % 4

/-- Whether a magnitude with remainder `rem` out of `2^r` rounds up: `neg` the sign, `lsb` the lowest
kept bit (R59). -/
def roundsUp (mode : Nat) (neg : Bool) (lsb rem r : Nat) : Bool :=
  match mode with
  | 0 => (2 * rem > 2 ^ r) || (2 * rem == 2 ^ r && lsb % 2 == 1)
  | 1 => false
  | 2 => !neg && rem != 0
  | _ => neg && rem != 0

end Sys2Proof.Machine
end

