-- ==== Sys2Proof/Machine/Float.lean ====
section
/-!
DEFINITION. Floating-point formats (R55, R56), the one rounding of an exact value (R58, R59, R65) and
the arithmetic of Table 5-7 (R145 to R151). Every result is the exact value rounded once; a value is
kept exactly as a sign, a magnitude and a power of two.
-/

namespace Sys2Proof.Machine

/-- A format of Table 2-2: exponent bits, fraction bits, bias; `e4` has no infinity (R55). -/
structure Fmt where
  eb : Nat
  mb : Nat
  bias : Nat
  e4 : Bool
  deriving DecidableEq, Repr

/-- The format of a floating type code; f32 for any code that is not one of 8, 9, 12 and 13. -/
def fmtOf (ty : BitVec 4) : Fmt :=
  match ty.toNat with
  | 8 => ⟨4, 3, 7, true⟩
  | 9 => ⟨5, 2, 15, false⟩
  | 12 => ⟨8, 7, 127, false⟩
  | 13 => ⟨5, 10, 15, false⟩
  | _ => ⟨8, 23, 127, false⟩

/-- The f32 format. -/
def fmtF32 : Fmt := ⟨8, 23, 127, false⟩

/-- A value of a floating format: a NaN (signalling or quiet), an infinity, or
(-1)^neg · m · 2^e exactly; m = 0 is a signed zero. -/
inductive FVal where
  | nan (signalling : Bool)
  | inf (neg : Bool)
  | fin (neg : Bool) (m : Nat) (e : Int)
  deriving DecidableEq, Repr

/-- Width of a format. -/
def fmtBits (f : Fmt) : Nat := 1 + f.eb + f.mb

/-- The canonical NaN (Table 2-3). -/
def canonNaN (f : Fmt) : Nat :=
  if f.e4 then 0x7F else (2 ^ f.eb - 1) <<< f.mb + 2 ^ (f.mb - 1)

/-- The pattern of an infinity of an IEEE format. -/
def infBits (f : Fmt) (neg : Bool) : Nat :=
  (if neg then 2 ^ (f.eb + f.mb) else 0) + (2 ^ f.eb - 1) <<< f.mb

/-- The pattern of the largest finite value (Table 2-3). -/
def maxBits (f : Fmt) (neg : Bool) : Nat :=
  (if neg then 2 ^ (f.eb + f.mb) else 0) +
    (if f.e4 then 0x7E else (2 ^ f.eb - 1) <<< f.mb - 1)

/-- The pattern of a signed zero. -/
def zeroBits (f : Fmt) (neg : Bool) : Nat := if neg then 2 ^ (f.eb + f.mb) else 0

/-- Decoding of a pattern (R55). -/
def unpack (f : Fmt) (raw : Nat) : FVal :=
  let neg := bitOf raw (f.eb + f.mb)
  let ef := field raw (f.eb + f.mb - 1) f.mb
  let fr := raw % 2 ^ f.mb
  if f.e4 && ef == 15 && fr == 7 then .nan false
  else if !f.e4 && ef == 2 ^ f.eb - 1 then
    if fr == 0 then .inf neg else .nan (fr < 2 ^ (f.mb - 1))
  else if ef == 0 then .fin neg fr (1 - f.bias - f.mb)
  else .fin neg (2 ^ f.mb + fr) ((ef : Int) - f.bias - f.mb)

/-- The overflow result of R59 for an IEEE format, or ±448 of Table 2-6 for e4. -/
def overflowBits (f : Fmt) (mode : Nat) (neg : Bool) : Nat :=
  if f.e4 then maxBits f neg
  else match mode with
    | 0 => infBits f neg
    | 1 => maxBits f neg
    | 2 => if neg then maxBits f neg else infBits f neg
    | _ => if neg then infBits f neg else maxBits f neg

/-- The magnitude `m·2^e` cut at the power `q`: kept part, remainder and the remainder's width. -/
def cutAt (m : Nat) (e q : Int) : Nat × Nat × Nat :=
  if q ≤ e then (m <<< (e - q).toNat, 0, 0)
  else let r := (q - e).toNat; (m >>> r, m % 2 ^ r, r)

/-- The one rounding of (-1)^neg · m · 2^e to a format (R58, R59, Table 2-6): tininess after rounding,
UF only when tiny and inexact, overflow by mode. A zero magnitude gives the signed zero. -/
def roundFin (f : Fmt) (mode : Nat) (neg : Bool) (m : Nat) (e : Int) : Nat × Fpx :=
  if m = 0 then (zeroBits f neg, fNone)
  else
    let emin : Int := 1 - f.bias
    let top := e + Nat.log2 m
    -- a magnitude below a quarter of the least subnormal rounds as any other such magnitude does
    let (m, e) := if top < emin - f.mb - 2 then (1, emin - f.mb - 3) else (m, e)
    let top := e + Nat.log2 m
    let q := max (top - f.mb) (emin - f.mb)
    let (sig, rem, r) := cutAt m e q
    let sig' := if roundsUp mode neg sig rem r then sig + 1 else sig
    let inexact := rem != 0
    let bits := ((q + f.mb + f.bias - 1).toNat <<< f.mb) + sig'
    let ovf := if f.e4 then bits > 0x7E else bits ≥ (2 ^ f.eb - 1) <<< f.mb
    if ovf then (overflowBits f mode neg, fOF ||| fNX)
    else
      let (sigU, remU, rU) := cutAt m e (top - f.mb)
      let carries := roundsUp mode neg sigU remU rU && sigU + 1 == 2 ^ (f.mb + 1)
      let tiny := top < emin && !(top == emin - 1 && carries)
      ((if neg then 2 ^ (f.eb + f.mb) else 0) + bits,
        flagIf inexact fNX ||| flagIf (inexact && tiny) fUF)

/-- A value rounded to a format: the NaN and infinity columns of Table 2-6. -/
def roundVal (f : Fmt) (mode : Nat) (v : FVal) : Nat × Fpx :=
  match v with
  | .nan s => (canonNaN f, flagIf s fNV)
  | .inf neg => if f.e4 then (maxBits f neg, fOF ||| fNX) else (infBits f neg, fNone)
  | .fin neg m e => roundFin f mode neg m e

/-- A signed exact value m·2^e rounded; an exact zero is +0, or −0 in RD (R146). -/
def roundInt (f : Fmt) (mode : Nat) (x : Int) (e : Int) : Nat × Fpx :=
  if x = 0 then (zeroBits f (mode == 3), fNone) else roundFin f mode (x < 0) x.natAbs e

/-- The signed integer of a finite value at the common power `e0 ≤ e`. -/
def alignTo (neg : Bool) (m : Nat) (e e0 : Int) : Int :=
  let x : Int := (m <<< (e - e0).toNat : Nat)
  if neg then -x else x

/-- NV of a signalling operand (R58). -/
def sNaNFlag (v : FVal) : Fpx := match v with | .nan true => fNV | _ => fNone

/-- Whether a value is a NaN. -/
def isNaN (v : FVal) : Bool := match v with | .nan _ => true | _ => false

/-- The value with its sign inverted; a NaN stays. -/
def negVal (v : FVal) : FVal :=
  match v with
  | .nan s => .nan s
  | .inf n => .inf (!n)
  | .fin n m e => .fin (!n) m e

/-- The exact sum of two values, rounded once (R146). -/
def fAddV (f : Fmt) (mode : Nat) (a b : FVal) : Nat × Fpx :=
  match a, b with
  | .fin n1 m1 e1, .fin n2 m2 e2 =>
    if m1 = 0 && m2 = 0 && n1 == n2 then (zeroBits f n1, fNone)
    else
      let e0 := min e1 e2
      roundInt f mode (alignTo n1 m1 e1 e0 + alignTo n2 m2 e2 e0) e0
  | .inf n1, .inf n2 => if n1 == n2 then roundVal f mode (.inf n1) else (canonNaN f, fNV)
  | .inf n, .fin .. => roundVal f mode (.inf n)
  | .fin .., .inf n => roundVal f mode (.inf n)
  | _, _ => (canonNaN f, sNaNFlag a ||| sNaNFlag b)

/-- The exact product of two values that are not NaN; `none` for 0 · ∞ (R146). -/
def prodV (a b : FVal) : Option FVal :=
  match a, b with
  | .fin n1 m1 e1, .fin n2 m2 e2 => some (.fin (n1 != n2) (m1 * m2) (e1 + e2))
  | .inf n1, .inf n2 => some (.inf (n1 != n2))
  | .inf n1, .fin n2 m _ => if m = 0 then none else some (.inf (n1 != n2))
  | .fin n1 m _, .inf n2 => if m = 0 then none else some (.inf (n1 != n2))
  | _, _ => none

/-- a · b, rounded once. -/
def fMulV (f : Fmt) (mode : Nat) (a b : FVal) : Nat × Fpx :=
  if isNaN a || isNaN b then (canonNaN f, sNaNFlag a ||| sNaNFlag b)
  else match prodV a b with
    | none => (canonNaN f, fNV)
    | some p => roundVal f mode p

/-- a · b + c, rounded once; 0 · ∞ is invalid whatever c is (R146). -/
def fMaV (f : Fmt) (mode : Nat) (a b c : FVal) : Nat × Fpx :=
  let nv := sNaNFlag a ||| sNaNFlag b ||| sNaNFlag c
  if isNaN a || isNaN b then (canonNaN f, nv)
  else match prodV a b with
    | none => (canonNaN f, fNV)
    | some p => if isNaN c then (canonNaN f, nv) else fAddV f mode p c

/-- A quotient num/den · 2^e of positive numbers as a magnitude whose lowest bit is set when the
quotient was cut: 96 bits beyond the operands, so a later rounding sees the exact value's side. -/
def quoSticky (num den : Nat) (e : Int) : Nat × Int :=
  let n := num <<< 96
  let q := n / den
  (2 * q + (if n % den = 0 then 0 else 1), e - 97)

/-- a / b, rounded once, with Table 2-9. -/
def fDivV (f : Fmt) (mode : Nat) (a b : FVal) : Nat × Fpx :=
  match a, b with
  | .fin n1 m1 e1, .fin n2 m2 e2 =>
    if m2 = 0 then
      if m1 = 0 then (canonNaN f, fNV) else (infBits f (n1 != n2), fDZ)
    else if m1 = 0 then (zeroBits f (n1 != n2), fNone)
    else
      let (q, e) := quoSticky m1 m2 (e1 - e2)
      roundFin f mode (n1 != n2) q e
  | .inf n1, .fin n2 _ _ => (infBits f (n1 != n2), fNone)
  | .fin n1 _ _, .inf n2 => (zeroBits f (n1 != n2), fNone)
  | .inf _, .inf _ => (canonNaN f, fNV)
  | _, _ => (canonNaN f, sNaNFlag a ||| sNaNFlag b)

/-- Order of two values that are not NaN: −1, 0 or 1; −0 and +0 compare equal. -/
def cmpV (a b : FVal) : Int :=
  match a, b with
  | .fin n1 m1 e1, .fin n2 m2 e2 =>
    let e0 := min e1 e2
    let d := alignTo n1 m1 e1 e0 - alignTo n2 m2 e2 e0
    if d < 0 then -1 else if d = 0 then 0 else 1
  | .inf n1, .inf n2 => if n1 == n2 then 0 else if n1 then -1 else 1
  | .inf n, _ => if n then -1 else 1
  | _, .inf n => if n then 1 else -1
  | _, _ => 0

/-- Whether a value carries the sign. -/
def signV (v : FVal) : Bool := match v with | .fin n _ _ => n | .inf n => n | .nan _ => false

/-- Order in which −0 lies below +0 (R147). -/
def lessV (a b : FVal) : Bool := cmpV a b < 0 || (cmpV a b == 0 && signV a && !signV b)

/-- FMIN and FMAX on patterns (R147): no rounding; a NaN gives the canonical NaN. -/
def fMinMax (f : Fmt) (wantMax : Bool) (a b : Nat) : Nat × Fpx :=
  let va := unpack f a; let vb := unpack f b
  if isNaN va || isNaN vb then (canonNaN f, sNaNFlag va ||| sNaNFlag vb)
  else if wantMax then (if lessV va vb then b else a, fNone)
  else (if lessV vb va then b else a, fNone)

/-- FABS and FNEG on a pattern (R148). -/
def fSignOp (f : Fmt) (neg : Bool → Bool) (a : Nat) : Nat × Fpx :=
  let va := unpack f a
  if isNaN va then (canonNaN f, sNaNFlag va)
  else (a % 2 ^ (f.eb + f.mb) + (if neg (signV va) then 2 ^ (f.eb + f.mb) else 0), fNone)

/-- The compares of R149; `rel` 0 EQ, 1 LT, 2 LE, 3 UN. -/
def fCmp (f : Fmt) (rel : Nat) (a b : Nat) : Bool × Fpx :=
  let va := unpack f a; let vb := unpack f b
  if isNaN va || isNaN vb then
    (rel == 3, if rel == 1 || rel == 2 then fNV else sNaNFlag va ||| sNaNFlag vb)
  else match rel with
    | 0 => (cmpV va vb == 0, fNone)
    | 1 => (cmpV va vb < 0, fNone)
    | 2 => (cmpV va vb ≤ 0, fNone)
    | _ => (false, fNone)

/-- The class bit of Table 5-8. -/
def fClass (f : Fmt) (a : Nat) : Nat :=
  match unpack f a with
  | .nan true => 2 ^ 8
  | .nan false => 2 ^ 9
  | .inf true => 1
  | .inf false => 2 ^ 7
  | .fin neg m _ =>
    if m = 0 then (if neg then 2 ^ 3 else 2 ^ 4)
    else if m < 2 ^ f.mb then (if neg then 2 ^ 2 else 2 ^ 5)
    else (if neg then 2 ^ 1 else 2 ^ 6)

/-- FSCALE: a · 2^b rounded once (R151). -/
def fScaleV (f : Fmt) (mode : Nat) (a : FVal) (b : Int) : Nat × Fpx :=
  match a with
  | .fin neg m e => roundFin f mode neg m (e + b)
  | v => roundVal f mode v

/-- The largest `r` with r·r ≤ n, found one bit at a time from bit `k` down. -/
def isqrtBits (n : Nat) : Nat → Nat → Nat
  | 0, r => r
  | k + 1, r => let c := r + 2 ^ k; isqrtBits n k (if c * c ≤ n then c else r)

/-- Integer square root. -/
def isqrt (n : Nat) : Nat := isqrtBits n (Nat.log2 n / 2 + 1) 0

/-- √(num/den · 2^e) for positive num and den, as a magnitude with a set lowest bit when cut. -/
def sqrtSticky (num den : Nat) (e : Int) : Nat × Int :=
  let (num, e) := if e % 2 = 0 then (num, e) else (2 * num, e - 1)
  let n := num <<< 256
  let q := n / den
  let s := isqrt q
  (2 * s + (if s * s * den = n then 0 else 1), e / 2 - 129)

/-- FRCP, FRSQ and FSQRT (R74, Table 2-9). -/
def fRcpV (f : Fmt) (mode : Nat) (a : FVal) : Nat × Fpx := fDivV f mode (.fin false 1 0) a

/-- 1/√a. -/
def fRsqV (f : Fmt) (mode : Nat) (a : FVal) : Nat × Fpx :=
  match a with
  | .nan s => (canonNaN f, flagIf s fNV)
  | .inf neg => if neg then (canonNaN f, fNV) else (zeroBits f false, fNone)
  | .fin neg m e =>
    if m = 0 then (infBits f neg, fDZ)
    else if neg then (canonNaN f, fNV)
    else let (q, e') := sqrtSticky 1 m (-e); roundFin f mode false q e'

/-- √a. -/
def fSqrtV (f : Fmt) (mode : Nat) (a : FVal) : Nat × Fpx :=
  match a with
  | .nan s => (canonNaN f, flagIf s fNV)
  | .inf neg => if neg then (canonNaN f, fNV) else (infBits f false, fNone)
  | .fin neg m e =>
    if m = 0 then (zeroBits f neg, fNone)
    else if neg then (canonNaN f, fNV)
    else let (q, e') := sqrtSticky m 1 e; roundFin f mode false q e'

end Sys2Proof.Machine
end

