-- ==== Sys2Proof/Fields.lean ====
section
/-!
DEFINITION. The operand fields of the six instruction formats (R106 to R111), one structure each.
A field is as wide as the encoding gives it; the opcode is the constructor of `Instr`, and the bits
that every instruction of a format holds at zero are not kept (a non-zero one is refused by the
decoder, check 0x05).
-/

namespace Sys2Proof

/-- Format D (Table 4-4). -/
structure DFields where
  pred : BitVec 2
  ty : BitVec 4
  srcA : BitVec 3
  srcB : BitVec 3
  mod : BitVec 4
  t1 : BitVec 10
  t2 : BitVec 10
  imm : BitVec 16
  deriving DecidableEq, Repr, Inhabited

/-- Format W (Table 4-5). -/
structure WFields where
  pred : BitVec 2
  ty : BitVec 4
  srcA : BitVec 3
  ofs : BitVec 3
  mod : BitVec 4
  t1 : BitVec 10
  t2 : BitVec 10
  port : BitVec 4
  dist : BitVec 12
  deriving DecidableEq, Repr, Inhabited

/-- Format M (Table 4-6); `low` is DISP or LMASK. -/
structure MFields where
  pred : BitVec 2
  ty : BitVec 4
  srcA : BitVec 3
  srcB : BitVec 3
  mod : BitVec 4
  t1 : BitVec 10
  t2 : BitVec 10
  size : BitVec 2
  low : BitVec 16
  deriving DecidableEq, Repr, Inhabited

/-- Format C (Table 4-7). -/
structure CFields where
  pred : BitVec 2
  ty : BitVec 4
  srcA : BitVec 3
  srcB : BitVec 3
  mod : BitVec 4
  t1 : BitVec 10
  t2 : BitVec 10
  obj : BitVec 8
  arg : BitVec 8
  deriving DecidableEq, Repr, Inhabited

/-- Format E (Table 4-8). -/
structure EFields where
  pred : BitVec 2
  ty : BitVec 4
  srcA : BitVec 3
  srcB : BitVec 3
  mod : BitVec 4
  t1 : BitVec 10
  t2 : BitVec 10
  desc : BitVec 6
  win : BitVec 8
  flags : BitVec 4
  deriving DecidableEq, Repr, Inhabited

/-- Format L (Table 4-9) with the literal of the slot that follows it (R111, R143). -/
structure LFields where
  pred : BitVec 2
  ty : BitVec 4
  t1 : BitVec 10
  t2 : BitVec 10
  lit : BitVec 64
  deriving DecidableEq, Repr, Inhabited

end Sys2Proof
end

