-- ==== Sys2Proof/Names.lean ====
section
/-!
DEFINITION. The names by which events speak of parts of the machine: the agents that execute block
slots, and the accesses that a slice performs.
-/

namespace Sys2Proof

/-- Who executes the slots of a block: an actor (`at_` is PE · 4 + index on the PE), a core's sequencer,
or the die dispatcher's run of block 0 into a kindling plane (R311). `core` is die · 128 + logical
core. -/
inductive Agent where
  | actor (core at_ : Nat)
  | seq (core : Nat)
  | bind (core : Nat)
  deriving DecidableEq, Repr, Inhabited

/-- The core of an agent. -/
def Agent.core : Agent → Nat
  | .actor c _ => c
  | .seq c => c
  | .bind c => c

/-- An engine of a core that reads or writes memory a line at a time. -/
inductive Eng where
  | gen (i : Nat)
  | image (i : Nat)
  | mxldw
  | net
  deriving DecidableEq, Repr, Inhabited

/-- An access that a home slice performs (R362): one lane of a core request, the arrival of a store
unit's part for one line, or one line of an engine. -/
inductive Access where
  | req (id lane : Nat)
  | part (unit line : Nat)
  | line (core : Nat) (eng : Eng) (va : Nat)
  deriving DecidableEq, Repr, Inhabited

/-- What stands behind a translation that the die walker completes (R289, R294). -/
inductive Walk where
  | req (id : Nat)
  | gen (core i : Nat)
  deriving DecidableEq, Repr, Inhabited

/-- The fields of an instruction word, by format. -/
inductive Fields where
  | d (f : DFields)
  | w (f : WFields)
  | m (f : MFields)
  | c (f : CFields)
  | e (f : EFields)
  | l (f : LFields)
  deriving DecidableEq, Repr, Inhabited

/-- What a unit on a link carries (R350, R356, Table 13-6): a lane of a core's request on its way to its slice, or its response; a
line that an engine reads or writes; a store unit's part for one line, or the unit's acknowledgement; a circuit beat that a core has
sent; a configuration unit of the Kiln for a site; an arrival over a connection. -/
inductive LinkUnit where
  | ask (id lane : Nat)
  | reply (id lane : Nat)
  | line (core : Nat) (eng : Eng) (va : Nat)
  | part (unit line : Nat)
  | ack (unit : Nat)
  | beat (core route : Nat)
  | config (site : Nat)
  | arrival (ctx conn va : Nat)
  deriving DecidableEq, Repr, Inhabited

/-- A piece of a route's path (R343): a track segment from a site of a die in a direction (0 N, 1 E, 2 S, 3 W), of length 1, 4 or 16,
with its track number; or a lane of a die edge. -/
inductive Hop where
  | seg (die x y dir len track : Nat)
  | edge (die dir lane : Nat)
  deriving DecidableEq, Repr, Inhabited

/-- The path that the Kiln lays for a route (R217, R343); `back` marks it as a back edge of a cycle of the graph (R410). -/
structure RoutePath where
  route : Nat
  back : Bool
  hops : List Hop
  deriving DecidableEq, Repr, Inhabited

/-- The site to which the Kiln moves a core, and the paths of its region's routes from there on (R343, R407). -/
structure NewSite where
  site : Nat
  paths : List RoutePath
  deriving DecidableEq, Repr, Inhabited

/-- What the Kiln lays at the end of a reroute (R355): the entries of the routing tables that are rewritten, by router and
destination, with their output ports, and the paths of each region's routes. -/
structure Plan where
  tables : List (Nat × Nat × Nat) := []
  paths : List (Nat × List RoutePath) := []
  deriving DecidableEq, Repr, Inhabited

/-- An open connection as seen from a core that awaits a peer's answer over it (R264 to R266). -/
structure CoreConn where
  core : Nat
  conn : Nat
  deriving DecidableEq, Repr, Inhabited

/-- Where an error is found (Table 17-4, Table 17-5): the result of a slot, a group result of the matrix cells before its row is
written, an accumulator row written by the cells or read from its array, a window row, a weight-set word, a sequencer block in its
store, a memory line that a core reads, in a way of its slice's cache or in HBM, or a beat of a route's buffer on a core. -/
inductive Place where
  | result (who : Agent) (slot : Nat)
  | group (core : Nat)
  | cells (core row : Nat)
  | acc (core row : Nat)
  | window (core row : Nat)
  | weight (core word : Nat)
  | code (core : Nat)
  | cache (core pa way : Nat)
  | hbm (core pa : Nat)
  | beat (core route i : Nat)
  deriving DecidableEq, Repr, Inhabited

/-- What the checker that finds an error tells beside its place (Table 17-5): the compute unit of a result, the lane, element and
residues, or the ECC syndrome. -/
structure Report where
  unit : Nat := 0
  exp : Bool := false
  pe : Nat := 0
  lane : Nat := 0
  el : Nat := 0
  pred : Nat := 0
  obs : Nat := 0
  syndrome : Nat := 0
  deriving DecidableEq, Repr, Inhabited

/-- What happens at a die's error-record bank (R403, R405, R406): the next record on its way enters it, the Kiln frees an entry that
it has consumed, or an error is found, by a single bit or by more. -/
inductive RecordEvent where
  | coming
  | consumed (i : Nat)
  | found (at_ : Place) (single : Bool) (what : Report)
  deriving DecidableEq, Repr, Inhabited

end Sys2Proof
end

