-- ==== Sys2Proof/Syntax.lean ====
section
/-!
DEFINITION. Every operation and event of the table of operations, one constructor each. An
instruction carries the fields of its format (R106 to R111); an event carries what it names and the
choices that the manual leaves to the agent behind it.
-/

namespace Sys2Proof

/-- The operations and events of spec/opcode_table.json. -/
inductive Instr where
  /-- ADD (R132): Adds A and B element by element, wrapping or saturating by mod[2]. -/
  | add (f : DFields)
  /-- SUB (R132): Subtracts B from A element by element, wrapping or saturating. -/
  | sub (f : DFields)
  /-- MUL (R132): Returns the low half of each element product, wrapping or saturating. -/
  | mul (f : DFields)
  /-- MULH (R132): Returns the high half of each 2w-bit element product. -/
  | mulh (f : DFields)
  /-- MAD (R132): Forms a·b + c per element, wrapping or saturating. -/
  | mad (f : DFields)
  /-- QUO (R132): Divides per element truncating towards zero, giving all ones for a zero divisor. -/
  | quo (f : DFields)
  /-- REM (R132): Returns the remainder with the dividend's sign, or the dividend for a zero divisor. -/
  | rem (f : DFields)
  /-- NEG (R132): Negates each element, wrapping or saturating. -/
  | neg (f : DFields)
  /-- ABS (R132): Takes the absolute value of each element. -/
  | abs (f : DFields)
  /-- MIN (R132): Returns the lesser of A and B per element, signed or unsigned by type. -/
  | min (f : DFields)
  /-- MAX (R132): Returns the greater of A and B per element. -/
  | max (f : DFields)
  /-- CLAMP (R132): Computes min(max(a, b), c) per element. -/
  | clamp (f : DFields)
  /-- ADDS (R132): Adds per element, always saturating. -/
  | adds (f : DFields)
  /-- SUBS (R132): Subtracts per element, always saturating. -/
  | subs (f : DFields)
  /-- DOT4 (R133): Adds four byte products to each 32-bit lane of C. -/
  | dot4 (f : DFields)
  /-- AND (R135): Bitwise AND of the two tokens. -/
  | and (f : DFields)
  /-- OR (R135): Bitwise OR of the two tokens. -/
  | or (f : DFields)
  /-- XOR (R135): Bitwise XOR of the two tokens. -/
  | xor (f : DFields)
  /-- ANDN (R135): Bitwise A AND NOT B. -/
  | andn (f : DFields)
  /-- NOT (R135): Bitwise complement of A. -/
  | not (f : DFields)
  /-- SHL (R136): Shifts each element left by a count reduced modulo w. -/
  | shl (f : DFields)
  /-- SHR (R136): Shifts each element right, filling with zeros. -/
  | shr (f : DFields)
  /-- SRA (R136): Shifts each element right, filling with its top bit. -/
  | sra (f : DFields)
  /-- ROTL (R136): Rotates each element left. -/
  | rotl (f : DFields)
  /-- CLZ (R134): Counts the leading zero bits of each element. -/
  | clz (f : DFields)
  /-- POPC (R134): Counts the one bits of each element. -/
  | popc (f : DFields)
  /-- BFX (R137): Extracts a bit field per element, sign- or zero-extended by type. -/
  | bfx (f : DFields)
  /-- BFI (R137): Inserts a bit field of A into C per element. -/
  | bfi (f : DFields)
  /-- CMPEQ (R139): Writes all ones per element where a = b. -/
  | cmpeq (f : DFields)
  /-- CMPNE (R139): Writes all ones per element where a ≠ b. -/
  | cmpne (f : DFields)
  /-- CMPLT (R139): Writes all ones per element where a < b. -/
  | cmplt (f : DFields)
  /-- CMPLE (R139): Writes all ones per element where a ≤ b. -/
  | cmple (f : DFields)
  /-- SEL (R140): Selects A or B per element by whether C is non-zero. -/
  | sel (f : DFields)
  /-- MOV (R141): Copies operand A to both targets. -/
  | mov (f : DFields)
  /-- MOVI (R141): Places the extended immediate in every element. -/
  | movi (f : DFields)
  /-- MOVH (R142): Shifts each element left 16 bits and ORs in imm16. -/
  | movh (f : DFields)
  /-- LIT (R143): Places the 64-bit literal of the next slot in each 64-bit word. -/
  | lit (f : LFields)
  /-- NOP (R144): Occupies a slot and does nothing. -/
  | nop (f : DFields)
  /-- FADD (R146): Adds floating elements with one rounding. -/
  | fadd (f : DFields)
  /-- FSUB (R146): Subtracts floating elements with one rounding. -/
  | fsub (f : DFields)
  /-- FMUL (R146): Multiplies floating elements with one rounding. -/
  | fmul (f : DFields)
  /-- FMA (R146): Forms a·b + c with one rounding. -/
  | fma (f : DFields)
  /-- FNMA (R146): Forms c − a·b with one rounding. -/
  | fnma (f : DFields)
  /-- FMIN (R147): Returns the lesser floating value, −0 below +0. -/
  | fmin (f : DFields)
  /-- FMAX (R147): Returns the greater floating value, −0 below +0. -/
  | fmax (f : DFields)
  /-- FABS (R148): Clears the sign of each non-NaN element. -/
  | fabs (f : DFields)
  /-- FNEG (R148): Inverts the sign of each non-NaN element. -/
  | fneg (f : DFields)
  /-- FCMPEQ (R149): Writes all ones where a = b as floating values. -/
  | fcmpeq (f : DFields)
  /-- FCMPLT (R149): Writes all ones where a < b, raising NV for any NaN. -/
  | fcmplt (f : DFields)
  /-- FCMPLE (R149): Writes all ones where a ≤ b, raising NV for any NaN. -/
  | fcmple (f : DFields)
  /-- FCMPUN (R149): Writes all ones where either operand is NaN. -/
  | fcmpun (f : DFields)
  /-- FCLASS (R150): Sets one class bit per element. -/
  | fclass (f : DFields)
  /-- FSCALE (R151): Forms a·2^b with one rounding. -/
  | fscale (f : DFields)
  /-- FDIV (R146): Divides floating elements with one rounding. -/
  | fdiv (f : DFields)
  /-- FRCP (R152): Returns 1/a rounded once. -/
  | frcp (f : DFields)
  /-- FRSQ (R152): Returns 1/√a rounded once. -/
  | frsq (f : DFields)
  /-- FSQRT (R152): Returns √a rounded once. -/
  | fsqrt (f : DFields)
  /-- FEXP2 (R152): Returns 2^a rounded once. -/
  | fexp2 (f : DFields)
  /-- FLOG2 (R152): Returns log2 a rounded once. -/
  | flog2 (f : DFields)
  /-- FSIG (R152): Returns the logistic of a rounded once. -/
  | fsig (f : DFields)
  /-- FTANH (R152): Returns tanh a rounded once. -/
  | ftanh (f : DFields)
  /-- CVT (R155): Converts elements from the source type to the destination type. -/
  | cvt (f : DFields)
  /-- CVTS (R156): Applies an E8 block scale and converts each element. -/
  | cvts (f : DFields)
  /-- PACK (R157): Narrows all elements of A into part P of B. -/
  | pack (f : DFields)
  /-- UNPK (R157): Widens part P of A into a full token. -/
  | unpk (f : DFields)
  /-- BCAST (R158): Copies element k of A to every element. -/
  | bcast (f : DFields)
  /-- SHUF (R158): Permutes elements of A by indices in B. -/
  | shuf (f : DFields)
  /-- ROTX (R158): Rotates the elements of A by k. -/
  | rotx (f : DFields)
  /-- LANE (R158): Moves element k of A to element 0 and zeroes the rest. -/
  | lane (f : DFields)
  /-- INSL (R158): Inserts element 0 of A at element k of C. -/
  | insl (f : DFields)
  /-- REDADD (R159): Sums the elements by the fixed pairwise tree. -/
  | redadd (f : DFields)
  /-- REDMAX (R159): Finds the greatest element by the tree. -/
  | redmax (f : DFields)
  /-- REDMIN (R159): Finds the least element by the tree. -/
  | redmin (f : DFields)
  /-- SCAN (R159): Forms the running prefix sums of the elements. -/
  | scan (f : DFields)
  /-- WRD (R165): Reads a window row at an immediate offset below need. -/
  | wrd (f : WFields)
  /-- WRDX (R165): Reads a window row at an offset, waiting until it is filled or aborting past C. -/
  | wrdx (f : WFields)
  /-- WUPD (R165): Buffers an update of a filled window row to commit. -/
  | wupd (f : WFields)
  /-- WFIL (R165): Buffers a fill of the output window to commit. -/
  | wfil (f : WFields)
  /-- WSHR (R165): Buffers a shrink of the input window to commit. -/
  | wshr (f : WFields)
  /-- WCNT (R166): Returns F, free rows, C and head of a window as at firing start. -/
  | wcnt (f : WFields)
  /-- WSAVE (R169): Writes a window's committed state as an image in memory. -/
  | wsave (f : EFields)
  /-- WREST (R170): Checks an image and rebuilds a window from it. -/
  | wrest (f : EFields)
  /-- HGET (R172): Returns a held register as at firing start. -/
  | hget (f : DFields)
  /-- ARD (R175): Reads an accumulator row. -/
  | ard (f : DFields)
  /-- AWR (R175): Writes raw values to an accumulator row. -/
  | awr (f : DFields)
  /-- AACC (R175): Adds a token into an accumulator row with one rounding. -/
  | aacc (f : DFields)
  /-- APATCH_SET (R178): Sets masked elements of an accumulator row, counting and logging the patch. -/
  | apatchSet (f : DFields)
  /-- APATCH_ADD (R178): Adds into masked elements of an accumulator row, counting and logging the patch. -/
  | apatchAdd (f : DFields)
  /-- APATCH_SCALE (R178): Multiplies masked elements of an accumulator row, counting and logging the patch. -/
  | apatchScale (f : DFields)
  /-- ACLR (R175): Clears 1 to 64 accumulator rows to +0. -/
  | aclr (f : DFields)
  /-- LD (R181): Loads 64 bytes through a request channel. -/
  | ld (f : MFields)
  /-- LD2 (R181): Loads 128 bytes, one half to each target. -/
  | ld2 (f : MFields)
  /-- LDS (R181): Loads a 1- to 8-byte scalar into element 0. -/
  | lds (f : MFields)
  /-- ST (R182): Stores 64 bytes, checked at execution and performed from commit. -/
  | st (f : MFields)
  /-- STS (R182): Stores the low SIZE bytes of element 0. -/
  | sts (f : MFields)
  /-- GATH (R181): Gathers elements from lane addresses or one address. -/
  | gath (f : MFields)
  /-- SCAT (R182): Scatters enabled lanes to their addresses. -/
  | scat (f : MFields)
  /-- PREF (R183): Asks the home slice to bring a line into its cache. -/
  | pref (f : MFields)
  /-- ATADD (R187): Atomically adds at the slice, eager or deferred. -/
  | atadd (f : MFields)
  /-- ATFADD (R187): Atomically adds f32 in RNE at the slice. -/
  | atfadd (f : MFields)
  /-- ATMIN (R187): Atomically keeps the minimum at the slice. -/
  | atmin (f : MFields)
  /-- ATMAX (R187): Atomically keeps the maximum at the slice. -/
  | atmax (f : MFields)
  /-- ATFMAX (R187): Atomically keeps the f32 maximum at the slice. -/
  | atfmax (f : MFields)
  /-- ATAND (R187): Atomically ANDs at the slice. -/
  | atand (f : MFields)
  /-- ATOR (R187): Atomically ORs at the slice. -/
  | ator (f : MFields)
  /-- ATXOR (R187): Atomically XORs at the slice. -/
  | atxor (f : MFields)
  /-- ATXCH (R187): Atomically exchanges the value at the slice. -/
  | atxch (f : MFields)
  /-- ATCAS (R187): Atomically compares and swaps at the slice. -/
  | atcas (f : MFields)
  /-- FENCE (R191): Orders earlier accesses before later ones at a scope. -/
  | fence (f : DFields)
  /-- XFENCE (R191): Orders accesses of one engine class before those of another. -/
  | xfence (f : DFields)
  /-- TSET (R192): Sets the firing's timestamp. -/
  | tset (f : DFields)
  /-- TGET (R192): Returns TSTAMP and HORIZON as at firing start. -/
  | tget (f : DFields)
  /-- BARA (R193): Arrives once at a barrier. -/
  | bara (f : DFields)
  /-- BARW (R193): Waits until the barrier's phase changes. -/
  | barw (f : DFields)
  /-- BARAW (R193): Arrives at a barrier and waits for its phase to change. -/
  | baraw (f : DFields)
  /-- WAITC (R194): Waits until each outstanding count is within its limit. -/
  | waitc (f : DFields)
  /-- BR (R198): Chooses block X as next. -/
  | br (f : DFields)
  /-- BRC (R198): Chooses block X when A is non-zero, else the next index. -/
  | brc (f : DFields)
  /-- BRX (R198): Chooses block X plus A. -/
  | brx (f : DFields)
  /-- CALL (R198): Pushes a call entry and chooses block X. -/
  | call (f : DFields)
  /-- RET (R198): Pops a call entry and chooses its block. -/
  | ret (f : DFields)
  /-- GRD (R201): Reads a g register. -/
  | grd (f : DFields)
  /-- MFK (R201): Reads a control register. -/
  | mfk (f : DFields)
  /-- MTK (R201): Writes a control register at block end under its access code. -/
  | mtk (f : DFields)
  /-- FPX_CLEAR (R43): An MTK of ones to FPX clears those sticky flags. -/
  | fpxClear (f : DFields)
  /-- WP_HIT_CLEAR (R270): An MTK of ones to WP_HIT clears those strike bits. -/
  | wpHitClear (f : DFields)
  /-- TRAP (R203): Raises the program trap SOFTWARE with a code. -/
  | trap (f : DFields)
  /-- RFT (R206): Pops a trap entry and returns, resuming a pinned firing or releasing its actor. -/
  | rft (f : DFields)
  /-- HALT (R200): Ends the group's sequencer program. -/
  | halt (f : DFields)
  /-- EVWAIT (R207): Waits for a selected tier, stream or time event and returns the events. -/
  | evwait (f : DFields)
  /-- CACTOR (R214): Validates a block and binds an actor on a PE in the kindling plane. -/
  | cactor (f : CFields)
  /-- CACTOR_UNBIND (R214): Removes an actor and unbinds its ports in the kindling plane. -/
  | cactorUnbind (f : CFields)
  /-- CPORT (R213): Binds a port to a window, or configures a circuit landing window. -/
  | cport (f : CFields)
  /-- CWIN (R212): Configures a window's base, capacity and parties. -/
  | cwin (f : CFields)
  /-- WGROW (R216): Enlarges a window in the kindling plane. -/
  | wgrow (f : CFields)
  /-- CROUTE (R217): Attaches the local end of a route. -/
  | croute (f : CFields)
  /-- CSTEER (R219): Configures a steer operator. -/
  | csteer (f : CFields)
  /-- CMERGE (R219): Configures a merge operator. -/
  | cmerge (f : CFields)
  /-- CCARRY (R219): Configures a carry operator. -/
  | ccarry (f : CFields)
  /-- CINV (R219): Configures an invariant operator. -/
  | cinv (f : CFields)
  /-- CCHAIN (R220): Configures a counter chain. -/
  | cchain (f : CFields)
  /-- CLOOP (R221): Configures a loop generator. -/
  | cloop (f : CFields)
  /-- CTURN (R222): Configures a corner turn. -/
  | cturn (f : CFields)
  /-- CMODE_MATRIX_RECTANGLE (R223): Places the matrix rectangle. -/
  | cmodeMatrixRectangle (f : CFields)
  /-- CMODE_PATCH_LOG_WINDOW (R223): Names the patch-log window. -/
  | cmodePatchLogWindow (f : CFields)
  /-- CMODE_BARRIER_COUNT (R223): Sets a barrier's expected count. -/
  | cmodeBarrierCount (f : CFields)
  /-- CDESC (R224): Checks and writes a tensor descriptor. -/
  | cdesc (f : CFields)
  /-- CSWAP (R225): Checks the PROGRAM plane and waits for the active plane to drain before lighting. -/
  | cswap (f : CFields)
  /-- CSWAP_DISCARD (R225): Returns a PROGRAM plane to EMPTY at once. -/
  | cswapDiscard (f : CFields)
  /-- CQUI (R226): Returns the quiescence tree and kindling state. -/
  | cqui (f : CFields)
  /-- MXLDW (R236): Enters a command to sort a weight tile into records of a weight set. -/
  | mxldw (f : EFields)
  /-- MXSEL (R237): Selects the weight set for later matrix runs. -/
  | mxsel (f : EFields)
  /-- MXRUN (R238): Enters a matrix multiplication of activation rows into accumulator rows. -/
  | mxrun (f : EFields)
  /-- MXSTAT (R242): Returns a tile group's counters and thresholds, optionally clearing them. -/
  | mxstat (f : EFields)
  /-- MXTHR (R243): Sets counter thresholds of one or all tile groups. -/
  | mxthr (f : EFields)
  /-- MXPEEK (R244): Returns a weight record from a set. -/
  | mxpeek (f : EFields)
  /-- CPY (R249): Copies a tensor region into a window on a generator. -/
  | cpy (f : EFields)
  /-- CPY_CHAINED (R249): Copies a tensor region into a window with a chained MXRUN half. -/
  | cpyChained (f : EFields)
  /-- CPYW (R250): Writes a tensor region from a window. -/
  | cpyw (f : EFields)
  /-- CPYR (R251): Moves window rows to a window on another core. -/
  | cpyr (f : EFields)
  /-- CPYI (R252): Unrolls convolution windows of an image into rows. -/
  | cpyi (f : EFields)
  /-- CPYP_MAX (R253): Max-pools an image into rows. -/
  | cpypMax (f : EFields)
  /-- CPYP_AVG (R253): Average-pools an image into rows. -/
  | cpypAvg (f : EFields)
  /-- CPYF (R254): Writes a constant into a tensor region. -/
  | cpyf (f : EFields)
  /-- STRM_READ (R256): Streams a tensor region into a window for some passes. -/
  | strmRead (f : EFields)
  /-- STRM_WRITE (R256): Streams a window into a tensor region. -/
  | strmWrite (f : EFields)
  /-- STRW (R257): Places a barrier among generators in issue order. -/
  | strw (f : EFields)
  /-- STRX_STOP (R258): Ends the commands of masked generators at their next row boundary. -/
  | strxStop (f : EFields)
  /-- STRX_RESUME (R258): Makes parked masked generators retry their faulting access. -/
  | strxResume (f : EFields)
  /-- TQRY (R260): Returns a page's tier state and pending misses. -/
  | tqry (f : EFields)
  /-- TIN (R261): Takes frames and pages a tier page into HBM. -/
  | tin (f : EFields)
  /-- TOUT (R262): Pages a resident page out to the peat tier. -/
  | tout (f : EFields)
  /-- NSEND (R264): Sends tensor rows to a remote address over a connection. -/
  | nsend (f : EFields)
  /-- NGET (R265): Reads remote rows into a window. -/
  | nget (f : EFields)
  /-- NRED_ADD (R266): Sends rows applied at the peer as remote atomic adds. -/
  | nredAdd (f : EFields)
  /-- NRED_MAX (R266): Sends rows applied at the peer as remote atomic maxima. -/
  | nredMax (f : EFields)
  /-- NRED_MIN (R266): Sends rows applied at the peer as remote atomic minima. -/
  | nredMin (f : EFields)
  /-- XINV (R267): Drops the context's translation entries for a range at a scope. -/
  | xinv (f : EFields)
  /-- WPSET_DESCRIPTOR (R268): Sets a watchpoint over index ranges of a descriptor. -/
  | wpsetDescriptor (f : EFields)
  /-- WPSET_RANGE (R268): Sets a watchpoint over a virtual range with a byte mask. -/
  | wpsetRange (f : EFields)
  /-- WPCLR (R270): Disables the masked watchpoints. -/
  | wpclr (f : DFields)
  /-- MARK (R271): Asks for a snapshot cut of the region. -/
  | mark (f : DFields)
  /-- RWC_ARM (R272): Sets the core's stop at a RETIRED count, replaying if it lies behind. -/
  | rwcArm (f : DFields)
  /-- RWC_CANCEL (R272): Cancels the core's RETIRED stop. -/
  | rwcCancel (f : DFields)
  /-- FINJ (R273): Arms one injected bit flip in a unit class. -/
  | finj (f : DFields)
  /-- MCRD (R274): Reads an entry of the die's error-record bank. -/
  | mcrd (f : DFields)
  /-- PROF_START (R275): Clears and starts a channel's counters. -/
  | profStart (f : DFields)
  /-- PROF_STOP (R275): Stops a channel's counters. -/
  | profStop (f : DFields)
  /-- PROF_READ (R275): Returns a channel's counters unchanged. -/
  | profRead (f : DFields)
  /-- WALK (R276): Runs the stall walker in report-only mode into a window. -/
  | walk (f : DFields)
  /-- FIRING_START (R316): A PE picks one candidate actor and starts its firing. -/
  | firingStart (core pe : Nat)
  /-- WAITING_FIRING_RESUME (R22): The row or slot a waiting firing needs arrives and it runs again. -/
  | waitingFiringResume (who : Agent) (slot : Nat)
  /-- FIRING_COMPLETE (R120): Every output of a firing has executed or been squashed and it passes to commit. -/
  | firingComplete (core at_ : Nat)
  /-- COMMIT (R24): A firing's buffered effects are applied as one unit. -/
  | commit (core at_ : Nat)
  /-- ROW_RELEASE (R371): A filled row is released to its reader once its filler's units have left the port. -/
  | rowRelease (core unit : Nat)
  /-- LOAD_SLOT_GRANT (R358): A waiting load is granted a returned response slot in asking order. -/
  | loadSlotGrant (core chan : Nat)
  /-- LOAD_RESPONSE (R357): A load's response is delivered and its slot returned. -/
  | loadResponse (id lane : Nat)
  /-- EAGER_ATOMIC_RETURN (R187): An eager atomic's old value returns from its slice. -/
  | eagerAtomicReturn (id : Nat)
  /-- SLICE_ACCESS (R362): A request is performed at its home slice in line order. -/
  | sliceAccess (x : Access)
  /-- STORE_UNIT_PERFORM (R364): A store unit is performed at one instant once every slice holds its lines. -/
  | storeUnitPerform (id : Nat)
  /-- HORIZON_BROADCAST (R378): Every 64 cycles the dispatchers compute and broadcast HORIZON. -/
  | horizonBroadcast (region : Nat)
  /-- SEQUENCER_BLOCK_COMPLETE (R197): A sequencer block completes, applies its writes and passes to its branch. -/
  | sequencerBlockComplete (who : Agent)
  /-- SEQUENCER_WAIT_END (R197): A waiting BARW, BARAW, WAITC or EVWAIT finds its condition met. -/
  | sequencerWaitEnd (core : Nat)
  /-- SEQ_BLOCK_FETCH (R311): A non-resident sequencer block arrives from the image and is validated. -/
  | seqBlockFetch (core : Nat)
  /-- TRAP_DELIVERY (R204): A pending user trap is delivered to the handler at a block boundary. -/
  | trapDelivery (core : Nat)
  /-- ENGINE_QUEUE_ENTRY (R230): An engine command waiting for queue room enters its queue. -/
  | engineQueueEntry (core : Nat)
  /-- ENGINE_COMMAND_START (R230): An engine starts the next command of its queue. -/
  | engineCommandStart (core : Nat) (eng : Eng)
  /-- ENGINE_COMMAND_COMPLETE (R52): An engine command completes and its outstanding count falls. -/
  | engineCommandComplete (core : Nat) (eng : Eng)
  /-- GENERATOR_ROW_FILL (R245): A generator fills a window row once its lines and room are there. -/
  | generatorRowFill (core gen : Nat)
  /-- GENERATOR_ROW_SHRINK (R245): A generator shrinks a read row once its writes are accepted. -/
  | generatorRowShrink (core gen : Nat)
  /-- CHAINED_HALF_START (R336): A chained half is admitted after its CPY's last row is filled. -/
  | chainedHalfStart (core : Nat)
  /-- MXLDW_RECORD_WRITE (R332): MXLDW writes one sorted or dense record. -/
  | mxldwRecordWrite (core : Nat)
  /-- MATRIX_RECORD_LOAD (R328): A matrix command loads its records into the cells' next registers. -/
  | matrixRecordLoad (core : Nat)
  /-- MATRIX_ROW_ADMIT (R329): An activation row whose window rows are filled enters the array. -/
  | matrixRowAdmit (core : Nat)
  /-- MATRIX_ACC_WRITE (R329): The array writes an accumulator row. -/
  | matrixAccWrite (core : Nat)
  /-- TIN_COMPLETE (R261): A page-in finishes, remaps the page and resumes parked streams. -/
  | tinComplete (ctx page : Nat)
  /-- TOUT_COMPLETE (R262): A page-out finishes, marks the page TIER and frees its frame. -/
  | toutComplete (ctx page : Nat)
  /-- PAGE_WALK (R289): The die walker completes a translation or a translation fault. -/
  | pageWalk (w : Walk)
  /-- KILN_PAGE_IN (R298): The Kiln pages in a missed page and resumes its source. -/
  | kilnPageIn (ctx page : Nat)
  /-- TIER_ENTRY_FREE (R299): A pending-miss entry frees and waiting sources retry. -/
  | tierEntryFree (core : Nat)
  /-- KILN_FAULT_RESOLVE (R399): The Kiln corrects or passes on a translation fault. -/
  | kilnFaultResolve (core : Nat) (fix : Bool) (leaf : BitVec 64)
  /-- SIDE_COUNTER_FLUSH (R297): Gathered access counts are added to the side table. -/
  | sideCounterFlush (core n : Nat)
  /-- COMMAND_WINDOW_WRITE (R442): A host RMA write fills the next command-window row or is refused as full. -/
  | commandWindowWrite (ctx : Nat) (row : BitVec 512) (auth : Bool)
  /-- LAUNCH (R301): The Kiln checks a launch message and writes bind records or a refusal. -/
  | launch (ctx place : Nat) (pool : List Nat) (layout : Option (List RoutePath))
  /-- LAUNCH_RETAKE (R302): A launch held for lack of slot records is taken up when records free. -/
  | launchRetake (ctx place : Nat) (pool : List Nat) (layout : Option (List RoutePath))
  /-- COMPLETION_RECORD_FILL (R444): The Kiln fills a completion record, waiting for room if needed. -/
  | completionRecordFill (ctx : Nat)
  /-- COMPLETION_SHRINK (R442): A host write to the shrink address frees completion rows. -/
  | completionShrink (ctx n : Nat)
  /-- DISPATCH_BATCH (R308): The global dispatcher sends ready records to a die. -/
  | dispatchBatch (die : Nat)
  /-- GROUP_BIND (R309): A die dispatcher binds a queued group into an EMPTY kindling plane. -/
  | groupBind (die : Nat)
  /-- BIND_PLANE_LIGHT (R312): A filled BIND plane is lit once the active group completes or saves. -/
  | bindPlaneLight (core : Nat)
  /-- CSWAP_LIGHTING (R225): A drained core lights its PROGRAM plane. -/
  | cswapLighting (core : Nat)
  /-- GROUP_COMPLETE (R314): A halted, drained group with no ready actor completes. -/
  | groupComplete (core : Nat)
  /-- REGION_END (R315): A region ends and its resources and records are released. -/
  | regionEnd (region : Nat)
  /-- GANG_RECORD_READY (R307): A ganged record becomes ready LEAD before its slice's turn. -/
  | gangRecordReady (rec : Nat)
  /-- GANG_READINESS_CHECK (R321): 2 µs before an instant a member is judged ready or misses. -/
  | gangReadinessCheck (gang : Nat)
  /-- GANG_SWITCH (R322): At an instant markers enter the outgoing region of a ready member. -/
  | gangSwitch (gang : Nat)
  /-- PREEMPTION_MARKER (R28): A pre-emption marker reaches an element and its state is saved. -/
  | preemptionMarker (core el : Nat)
  /-- SNAPSHOT_MARKER (R410): A snapshot marker passes an element, which saves its state. -/
  | snapshotMarker (core : Nat)
  /-- SNAPSHOT_TIMER (R409): The SNAP period expires and markers are injected. -/
  | snapshotTimer (region : Nat)
  /-- CUT_COMPLETE (R409): Every sink has seen the marker and the cut completes. -/
  | cutComplete (region : Nat)
  /-- UNDO_LOG_HALF (R413): The undo log reaches half and the Kiln requests a cut. -/
  | undoLogHalf (region : Nat)
  /-- UNDO_LOG_FULL (R413): A log fills and the interval becomes unrecoverable. -/
  | undoLogFull (region : Nat)
  /-- REGION_ROLLBACK (R412): The Kiln returns the region to its last complete cut. -/
  | regionRollback (region : Nat)
  /-- REGION_STOP (R400): A trap that cannot be delivered stops and freezes the region. -/
  | regionStop (region : Nat)
  /-- CORE_FREEZE (R431): A stop freezes a core and gates its clocks. -/
  | coreFreeze (core : Nat)
  /-- RWC_STOP (R272): RETIRED reaches the armed stop and the core freezes. -/
  | rwcStop (core : Nat)
  /-- ERROR_RECORD_WRITE (R406): A machine-check record enters the die's bank. -/
  | errorRecordWrite (die : Nat) (what : RecordEvent)
  /-- CORE_RETIRE (R407): A lasting core is moved to a spare site at the next cut. -/
  | coreRetire (core : Nat) (site : NewSite)
  /-- SKID_REPORT (R436): A slice's report of a performed access reaches its engine. -/
  | skidReport (core : Nat) (eng : Eng)
  /-- WATCH_RAISE (R437): A copy-engine or remote WATCH is raised once its skid is performed. -/
  | watchRaise (core : Nat)
  /-- DEADLOCK_DETECTOR_EXPIRY (R416): The no-movement count reaches the deadlock interval and starts the walker. -/
  | deadlockDetectorExpiry (region : Nat)
  /-- STALL_WALK_DONE (R417): The walker finishes and reports a stall or a deadlock. -/
  | stallWalkDone (region : Nat)
  /-- STEER_STEP (R219): A steer operator routes one data token by its predicate. -/
  | steerStep (core op : Nat)
  /-- MERGE_STEP (R219): A merge operator takes one token from the arm its predicate names. -/
  | mergeStep (core op : Nat)
  /-- CARRY_STEP (R219): A carry operator emits an initial or loop-back token. -/
  | carryStep (core op : Nat)
  /-- INVARIANT_STEP (R219): An invariant operator re-emits or discards its held value. -/
  | invariantStep (core op : Nat)
  /-- CHAIN_INDEX_EMIT (R220): A counter chain emits its next index or end token. -/
  | chainIndexEmit (core op : Nat)
  /-- LOOP_INDEX_EMIT (R221): A loop generator emits its next index or end token. -/
  | loopIndexEmit (core op : Nat)
  /-- CORNER_TURN_STEP (R222): A corner turn accepts or emits a token. -/
  | cornerTurnStep (core op : Nat)
  /-- CONTROL_TOKEN_PASS (R218): An operator with control tokens on every input passes one on. -/
  | controlTokenPass (core op : Nat)
  /-- CIRCUIT_BEAT_SEND (R346): An outbound end holding a credit sends a beat. -/
  | circuitBeatSend (core route : Nat)
  /-- CIRCUIT_BEAT_RECEIVE (R346): An inbound end moves a beat into its landing window and returns a credit. -/
  | circuitBeatReceive (core route : Nat)
  /-- LINK_UNIT_RECEIVE (R353): A link receiver accepts or discards a unit and NAKs a bad one. -/
  | linkUnitReceive (link : Nat) (what : LinkUnit) (good : Bool)
  /-- LINK_ACK_RECEIVE (R353): A cumulative acknowledgement frees retry-buffer entries. -/
  | linkAckReceive (link : Nat)
  /-- LINK_NAK_RECEIVE (R353): A NAK makes the sender replay from the named LSEQ. -/
  | linkNakReceive (link : Nat)
  /-- LINK_RETRY_TIMEOUT (R353): 256 cycles without progress make the sender replay. -/
  | linkRetryTimeout (link : Nat)
  /-- LINK_DEAD (R354): Eight replays without acknowledgement declare a link dead. -/
  | linkDead (link : Nat)
  /-- PHY_TRAINING_LOSS (R354): Loss of PHY training declares a link dead. -/
  | phyTrainingLoss (link : Nat)
  /-- REROUTE_COMPLETE (R355): Tables are rewritten, units settled and injection resumes. -/
  | rerouteComplete
  /-- NETWORK_WRITE_ARRIVAL (R300): An arriving network write is translated and performed or refused. -/
  | networkWriteArrival (ctx conn va : Nat) (bytes : List (BitVec 8))
  /-- NETWORK_READ_ARRIVAL (R300): An arriving network read is translated and answered or refused. -/
  | networkReadArrival (ctx conn va n : Nat)
  /-- NETWORK_ATOMIC_ARRIVAL (R300): An arriving atomic is applied on an SA page or refused. -/
  | networkAtomicArrival (ctx conn va : Nat) (op : BitVec 10) (ty : BitVec 4) (b c : BitVec 64)
  /-- NRED_ROW_ARRIVAL (R266): An arriving NRED row is applied element by element as atomics. -/
  | nredRowArrival (ctx conn va : Nat) (op : BitVec 2) (ty : BitVec 4) (n : Nat) (row : BitVec 512)
  /-- NGET_ROW_ARRIVAL (R265): A row answering an NGET fills its window. -/
  | ngetRowArrival (core : CoreConn) (row : BitVec 512)
  /-- CPYR_ROW_ARRIVAL (R251): A CPYR row fills the destination window or is rejected. -/
  | cpyrRowArrival (core gen : Nat)
  /-- NETWORK_ACK_RECEIVE (R264): A peer acknowledgement completes sent rows of a network command. -/
  | networkAckReceive (core : CoreConn)
  /-- REMOTE_REFUSAL_RECEIVE (R263): A peer's refusal raises REMOTE_FAULT or ATOMIC_SCOPE. -/
  | remoteRefusalReceive (core : CoreConn) (scope : Bool)
  /-- ADMIN_CONNECTION_SETUP (R445): A context-0 connection is accepted only with the administrator key proof. -/
  | adminConnectionSetup (key nonce proof_ : List (BitVec 8))
  /-- ATTESTATION_READ (R449): An RMA read returns the signed attestation report. -/
  | attestationRead (ctx : Nat) (nonce : BitVec 512)
  /-- ENROL (R447): Enrols the administrator key once. -/
  | enrol
  /-- OPEN (R447): Creates a context with its tables and windows. -/
  | openCtx (place : Nat)
  /-- SEAL (R447): Marks a context sealed with a build-key digest. -/
  | sealCtx
  /-- CKEY (R447): Installs a sealed context's dump key. -/
  | ckey (auth : Bool)
  /-- MAP (R447): Maps a scrubbed, tagged frame at a virtual page. -/
  | mapPage (frame : Nat)
  /-- UNMAP (R447): Unmaps, invalidates, scrubs and frees a page. -/
  | unmap
  /-- CONNECT (R447): Opens a connection to a peer context. -/
  | connect
  /-- GANG (R447): Writes a gang schedule entry. -/
  | gangEntry
  /-- FREEZE (R447): Freezes every core of a region. -/
  | freezeRegion
  /-- RESUME (R447): Resumes a frozen or stopped region. -/
  | resumeRegion
  /-- ROLLBACK (R447): Rolls a region back to its last cut and resumes it. -/
  | rollbackRegion
  /-- END (R447): Ends a region. -/
  | endRegion
  /-- CLOSE (R447): Ends every region of a context and removes it. -/
  | closeCtx
  /-- POWER_ON_BOOT (R448): The boot ROM verifies firmware and starts reduced service. -/
  | powerOnBoot (firmware signature : List (BitVec 8))
  /-- FULL_SERVICE_START (R448): After training and harvesting full service starts. -/
  | fullServiceStart (enabled : List Nat) (expanders : List Nat)
  /-- EXPANDER_FAILURE (R441): A failed CXL expander ends its tier moves with uncorrected errors. -/
  | expanderFailure (port : Nat)
  /-- THROTTLE_STEP (R451): A power or temperature limit changes the clock by one step. -/
  | throttleStep (step : Nat)
  /-- THERMAL_STOP (R451): At 105 °C every region stops and clocks are gated. -/
  | thermalStop
  /-- STORE_ACKNOWLEDGEMENT (R352): The acknowledgement of a store, STS, SCAT, deferred atomic or row write reaches its core,
  releasing its store credit and lowering the ST count. -/
  | storeAcknowledgement (core : Nat) (unit : Option Nat)
  /-- PTP_CLOCK_DISCIPLINE (R441): IEEE 1588 time arriving on the ports is used by the PTP clock unit to discipline PTP_NOW. -/
  | ptpClockDiscipline (time : BitVec 64)
  deriving DecidableEq, Repr, Inhabited

end Sys2Proof
end

