-- ==== Sys2Proof/Machine/Checks.lean ====
section
/-!
DEFINITION. What each instruction's entry accepts (Tables 4-10, 5-1 to 5-12, 6-3, 6-6, 6-9, 6-10, 7-1,
7-2, 8-1, 8-7): opcode, block kinds, type codes, sources, mod bits, targets; and the checks 0x05 to 0x0A
that read one word alone (Table 4-11).
-/

namespace Sys2Proof.Machine

/-- The opcode of an instruction (Table 4-10); an event has none. -/
def opcodeOf : Instr → Option Nat
  | .add _ => some 0x000
  | .sub _ => some 0x001
  | .mul _ => some 0x002
  | .mulh _ => some 0x003
  | .mad _ => some 0x004
  | .quo _ => some 0x005
  | .rem _ => some 0x006
  | .neg _ => some 0x007
  | .abs _ => some 0x008
  | .min _ => some 0x009
  | .max _ => some 0x00A
  | .clamp _ => some 0x00B
  | .adds _ => some 0x00C
  | .subs _ => some 0x00D
  | .dot4 _ => some 0x00E
  | .and _ => some 0x040
  | .or _ => some 0x041
  | .xor _ => some 0x042
  | .andn _ => some 0x043
  | .not _ => some 0x044
  | .shl _ => some 0x045
  | .shr _ => some 0x046
  | .sra _ => some 0x047
  | .rotl _ => some 0x048
  | .clz _ => some 0x049
  | .popc _ => some 0x04A
  | .bfx _ => some 0x04B
  | .bfi _ => some 0x04C
  | .cmpeq _ => some 0x080
  | .cmpne _ => some 0x081
  | .cmplt _ => some 0x082
  | .cmple _ => some 0x083
  | .sel _ => some 0x084
  | .mov _ => some 0x085
  | .movi _ => some 0x086
  | .movh _ => some 0x087
  | .lit _ => some 0x088
  | .nop _ => some 0x089
  | .fadd _ => some 0x0C0
  | .fsub _ => some 0x0C1
  | .fmul _ => some 0x0C2
  | .fma _ => some 0x0C3
  | .fnma _ => some 0x0C4
  | .fmin _ => some 0x0C5
  | .fmax _ => some 0x0C6
  | .fabs _ => some 0x0C7
  | .fneg _ => some 0x0C8
  | .fcmpeq _ => some 0x0C9
  | .fcmplt _ => some 0x0CA
  | .fcmple _ => some 0x0CB
  | .fcmpun _ => some 0x0CC
  | .fclass _ => some 0x0CD
  | .fscale _ => some 0x0CE
  | .fdiv _ => some 0x0CF
  | .frcp _ => some 0x100
  | .frsq _ => some 0x101
  | .fsqrt _ => some 0x102
  | .fexp2 _ => some 0x103
  | .flog2 _ => some 0x104
  | .fsig _ => some 0x105
  | .ftanh _ => some 0x106
  | .cvt _ => some 0x110
  | .cvts _ => some 0x111
  | .pack _ => some 0x112
  | .unpk _ => some 0x113
  | .bcast _ => some 0x140
  | .shuf _ => some 0x141
  | .rotx _ => some 0x142
  | .lane _ => some 0x143
  | .insl _ => some 0x144
  | .redadd _ => some 0x145
  | .redmax _ => some 0x146
  | .redmin _ => some 0x147
  | .scan _ => some 0x148
  | .wrd _ => some 0x180
  | .wrdx _ => some 0x181
  | .wupd _ => some 0x182
  | .wfil _ => some 0x183
  | .wshr _ => some 0x184
  | .wcnt _ => some 0x185
  | .wsave _ => some 0x186
  | .wrest _ => some 0x187
  | .hget _ => some 0x190
  | .ard _ => some 0x198
  | .awr _ => some 0x199
  | .aacc _ => some 0x19A
  | .apatchSet _ => some 0x19B
  | .apatchAdd _ => some 0x19B
  | .apatchScale _ => some 0x19B
  | .aclr _ => some 0x19C
  | .ld _ => some 0x1C0
  | .ld2 _ => some 0x1C1
  | .lds _ => some 0x1C2
  | .st _ => some 0x1C3
  | .sts _ => some 0x1C4
  | .gath _ => some 0x1C5
  | .scat _ => some 0x1C6
  | .pref _ => some 0x1C7
  | .atadd _ => some 0x200
  | .atfadd _ => some 0x201
  | .atmin _ => some 0x202
  | .atmax _ => some 0x203
  | .atfmax _ => some 0x204
  | .atand _ => some 0x205
  | .ator _ => some 0x206
  | .atxor _ => some 0x207
  | .atxch _ => some 0x208
  | .atcas _ => some 0x209
  | .fence _ => some 0x240
  | .xfence _ => some 0x241
  | .tset _ => some 0x242
  | .tget _ => some 0x243
  | .bara _ => some 0x244
  | .barw _ => some 0x245
  | .baraw _ => some 0x246
  | .waitc _ => some 0x247
  | .br _ => some 0x280
  | .brc _ => some 0x281
  | .brx _ => some 0x282
  | .call _ => some 0x283
  | .ret _ => some 0x284
  | .grd _ => some 0x285
  | .mfk _ => some 0x286
  | .mtk _ => some 0x287
  | .fpxClear _ => some 0x287
  | .wpHitClear _ => some 0x287
  | .trap _ => some 0x288
  | .rft _ => some 0x289
  | .halt _ => some 0x28A
  | .evwait _ => some 0x28B
  | .cactor _ => some 0x2C0
  | .cactorUnbind _ => some 0x2C0
  | .cport _ => some 0x2C1
  | .cwin _ => some 0x2C2
  | .wgrow _ => some 0x2C3
  | .croute _ => some 0x2C4
  | .csteer _ => some 0x2C5
  | .cmerge _ => some 0x2C6
  | .ccarry _ => some 0x2C7
  | .cinv _ => some 0x2C8
  | .cchain _ => some 0x2C9
  | .cloop _ => some 0x2CA
  | .cturn _ => some 0x2CB
  | .cmodeMatrixRectangle _ => some 0x2CC
  | .cmodePatchLogWindow _ => some 0x2CC
  | .cmodeBarrierCount _ => some 0x2CC
  | .cdesc _ => some 0x2CD
  | .cswap _ => some 0x2CE
  | .cswapDiscard _ => some 0x2CE
  | .cqui _ => some 0x2CF
  | .mxldw _ => some 0x300
  | .mxsel _ => some 0x301
  | .mxrun _ => some 0x302
  | .mxstat _ => some 0x303
  | .mxthr _ => some 0x304
  | .mxpeek _ => some 0x305
  | .cpy _ => some 0x340
  | .cpyChained _ => some 0x340
  | .cpyw _ => some 0x341
  | .cpyr _ => some 0x342
  | .cpyi _ => some 0x343
  | .cpypMax _ => some 0x344
  | .cpypAvg _ => some 0x344
  | .cpyf _ => some 0x345
  | .strmRead _ => some 0x348
  | .strmWrite _ => some 0x348
  | .strw _ => some 0x349
  | .strxStop _ => some 0x34A
  | .strxResume _ => some 0x34A
  | .tqry _ => some 0x350
  | .tin _ => some 0x351
  | .tout _ => some 0x352
  | .nsend _ => some 0x358
  | .nget _ => some 0x359
  | .nredAdd _ => some 0x35A
  | .nredMax _ => some 0x35A
  | .nredMin _ => some 0x35A
  | .xinv _ => some 0x360
  | .wpsetDescriptor _ => some 0x380
  | .wpsetRange _ => some 0x380
  | .wpclr _ => some 0x381
  | .mark _ => some 0x382
  | .rwcArm _ => some 0x383
  | .rwcCancel _ => some 0x383
  | .finj _ => some 0x384
  | .mcrd _ => some 0x385
  | .profStart _ => some 0x386
  | .profStop _ => some 0x386
  | .profRead _ => some 0x386
  | .walk _ => some 0x387
  | .firingStart _ _ => none
  | .waitingFiringResume _ _ => none
  | .firingComplete _ _ => none
  | .commit _ _ => none
  | .rowRelease _ _ => none
  | .loadSlotGrant _ _ => none
  | .loadResponse _ _ => none
  | .eagerAtomicReturn _ => none
  | .sliceAccess _ => none
  | .storeUnitPerform _ => none
  | .horizonBroadcast _ => none
  | .sequencerBlockComplete _ => none
  | .sequencerWaitEnd _ => none
  | .seqBlockFetch _ => none
  | .trapDelivery _ => none
  | .engineQueueEntry _ => none
  | .engineCommandStart _ _ => none
  | .engineCommandComplete _ _ => none
  | .generatorRowFill _ _ => none
  | .generatorRowShrink _ _ => none
  | .chainedHalfStart _ => none
  | .mxldwRecordWrite _ => none
  | .matrixRecordLoad _ => none
  | .matrixRowAdmit _ => none
  | .matrixAccWrite _ => none
  | .tinComplete _ _ => none
  | .toutComplete _ _ => none
  | .pageWalk _ => none
  | .kilnPageIn _ _ => none
  | .tierEntryFree _ => none
  | .kilnFaultResolve _ _ _ => none
  | .sideCounterFlush _ _ => none
  | .commandWindowWrite _ _ _ => none
  | .launch _ _ _ _ => none
  | .launchRetake _ _ _ _ => none
  | .completionRecordFill _ => none
  | .completionShrink _ _ => none
  | .dispatchBatch _ => none
  | .groupBind _ => none
  | .bindPlaneLight _ => none
  | .cswapLighting _ => none
  | .groupComplete _ => none
  | .regionEnd _ => none
  | .gangRecordReady _ => none
  | .gangReadinessCheck _ => none
  | .gangSwitch _ => none
  | .preemptionMarker _ _ => none
  | .snapshotMarker _ => none
  | .snapshotTimer _ => none
  | .cutComplete _ => none
  | .undoLogHalf _ => none
  | .undoLogFull _ => none
  | .regionRollback _ => none
  | .regionStop _ => none
  | .coreFreeze _ => none
  | .rwcStop _ => none
  | .errorRecordWrite _ _ => none
  | .coreRetire _ _ => none
  | .skidReport _ _ => none
  | .watchRaise _ => none
  | .deadlockDetectorExpiry _ => none
  | .stallWalkDone _ => none
  | .steerStep _ _ => none
  | .mergeStep _ _ => none
  | .carryStep _ _ => none
  | .invariantStep _ _ => none
  | .chainIndexEmit _ _ => none
  | .loopIndexEmit _ _ => none
  | .cornerTurnStep _ _ => none
  | .controlTokenPass _ _ => none
  | .circuitBeatSend _ _ => none
  | .circuitBeatReceive _ _ => none
  | .linkUnitReceive _ _ _ => none
  | .linkAckReceive _ => none
  | .linkNakReceive _ => none
  | .linkRetryTimeout _ => none
  | .linkDead _ => none
  | .phyTrainingLoss _ => none
  | .rerouteComplete => none
  | .networkWriteArrival _ _ _ _ => none
  | .networkReadArrival _ _ _ _ => none
  | .networkAtomicArrival _ _ _ _ _ _ _ => none
  | .nredRowArrival _ _ _ _ _ _ _ => none
  | .ngetRowArrival _ _ => none
  | .cpyrRowArrival _ _ => none
  | .networkAckReceive _ => none
  | .remoteRefusalReceive _ _ => none
  | .adminConnectionSetup _ _ _ => none
  | .attestationRead _ _ => none
  | .enrol => none
  | .openCtx _ => none
  | .sealCtx => none
  | .ckey _ => none
  | .mapPage _ => none
  | .unmap => none
  | .connect => none
  | .gangEntry => none
  | .freezeRegion => none
  | .resumeRegion => none
  | .rollbackRegion => none
  | .endRegion => none
  | .closeCtx => none
  | .powerOnBoot _ _ => none
  | .fullServiceStart _ _ => none
  | .expanderFailure _ => none
  | .throttleStep _ => none
  | .thermalStop => none
  | .storeAcknowledgement _ _ => none
  | .ptpClockDiscipline _ => none

/-- The fields of an instruction; an event has none. -/
def fieldsOf : Instr → Option Fields
  | .add f => some (.d f)
  | .sub f => some (.d f)
  | .mul f => some (.d f)
  | .mulh f => some (.d f)
  | .mad f => some (.d f)
  | .quo f => some (.d f)
  | .rem f => some (.d f)
  | .neg f => some (.d f)
  | .abs f => some (.d f)
  | .min f => some (.d f)
  | .max f => some (.d f)
  | .clamp f => some (.d f)
  | .adds f => some (.d f)
  | .subs f => some (.d f)
  | .dot4 f => some (.d f)
  | .and f => some (.d f)
  | .or f => some (.d f)
  | .xor f => some (.d f)
  | .andn f => some (.d f)
  | .not f => some (.d f)
  | .shl f => some (.d f)
  | .shr f => some (.d f)
  | .sra f => some (.d f)
  | .rotl f => some (.d f)
  | .clz f => some (.d f)
  | .popc f => some (.d f)
  | .bfx f => some (.d f)
  | .bfi f => some (.d f)
  | .cmpeq f => some (.d f)
  | .cmpne f => some (.d f)
  | .cmplt f => some (.d f)
  | .cmple f => some (.d f)
  | .sel f => some (.d f)
  | .mov f => some (.d f)
  | .movi f => some (.d f)
  | .movh f => some (.d f)
  | .lit f => some (.l f)
  | .nop f => some (.d f)
  | .fadd f => some (.d f)
  | .fsub f => some (.d f)
  | .fmul f => some (.d f)
  | .fma f => some (.d f)
  | .fnma f => some (.d f)
  | .fmin f => some (.d f)
  | .fmax f => some (.d f)
  | .fabs f => some (.d f)
  | .fneg f => some (.d f)
  | .fcmpeq f => some (.d f)
  | .fcmplt f => some (.d f)
  | .fcmple f => some (.d f)
  | .fcmpun f => some (.d f)
  | .fclass f => some (.d f)
  | .fscale f => some (.d f)
  | .fdiv f => some (.d f)
  | .frcp f => some (.d f)
  | .frsq f => some (.d f)
  | .fsqrt f => some (.d f)
  | .fexp2 f => some (.d f)
  | .flog2 f => some (.d f)
  | .fsig f => some (.d f)
  | .ftanh f => some (.d f)
  | .cvt f => some (.d f)
  | .cvts f => some (.d f)
  | .pack f => some (.d f)
  | .unpk f => some (.d f)
  | .bcast f => some (.d f)
  | .shuf f => some (.d f)
  | .rotx f => some (.d f)
  | .lane f => some (.d f)
  | .insl f => some (.d f)
  | .redadd f => some (.d f)
  | .redmax f => some (.d f)
  | .redmin f => some (.d f)
  | .scan f => some (.d f)
  | .wrd f => some (.w f)
  | .wrdx f => some (.w f)
  | .wupd f => some (.w f)
  | .wfil f => some (.w f)
  | .wshr f => some (.w f)
  | .wcnt f => some (.w f)
  | .wsave f => some (.e f)
  | .wrest f => some (.e f)
  | .hget f => some (.d f)
  | .ard f => some (.d f)
  | .awr f => some (.d f)
  | .aacc f => some (.d f)
  | .apatchSet f => some (.d f)
  | .apatchAdd f => some (.d f)
  | .apatchScale f => some (.d f)
  | .aclr f => some (.d f)
  | .ld f => some (.m f)
  | .ld2 f => some (.m f)
  | .lds f => some (.m f)
  | .st f => some (.m f)
  | .sts f => some (.m f)
  | .gath f => some (.m f)
  | .scat f => some (.m f)
  | .pref f => some (.m f)
  | .atadd f => some (.m f)
  | .atfadd f => some (.m f)
  | .atmin f => some (.m f)
  | .atmax f => some (.m f)
  | .atfmax f => some (.m f)
  | .atand f => some (.m f)
  | .ator f => some (.m f)
  | .atxor f => some (.m f)
  | .atxch f => some (.m f)
  | .atcas f => some (.m f)
  | .fence f => some (.d f)
  | .xfence f => some (.d f)
  | .tset f => some (.d f)
  | .tget f => some (.d f)
  | .bara f => some (.d f)
  | .barw f => some (.d f)
  | .baraw f => some (.d f)
  | .waitc f => some (.d f)
  | .br f => some (.d f)
  | .brc f => some (.d f)
  | .brx f => some (.d f)
  | .call f => some (.d f)
  | .ret f => some (.d f)
  | .grd f => some (.d f)
  | .mfk f => some (.d f)
  | .mtk f => some (.d f)
  | .fpxClear f => some (.d f)
  | .wpHitClear f => some (.d f)
  | .trap f => some (.d f)
  | .rft f => some (.d f)
  | .halt f => some (.d f)
  | .evwait f => some (.d f)
  | .cactor f => some (.c f)
  | .cactorUnbind f => some (.c f)
  | .cport f => some (.c f)
  | .cwin f => some (.c f)
  | .wgrow f => some (.c f)
  | .croute f => some (.c f)
  | .csteer f => some (.c f)
  | .cmerge f => some (.c f)
  | .ccarry f => some (.c f)
  | .cinv f => some (.c f)
  | .cchain f => some (.c f)
  | .cloop f => some (.c f)
  | .cturn f => some (.c f)
  | .cmodeMatrixRectangle f => some (.c f)
  | .cmodePatchLogWindow f => some (.c f)
  | .cmodeBarrierCount f => some (.c f)
  | .cdesc f => some (.c f)
  | .cswap f => some (.c f)
  | .cswapDiscard f => some (.c f)
  | .cqui f => some (.c f)
  | .mxldw f => some (.e f)
  | .mxsel f => some (.e f)
  | .mxrun f => some (.e f)
  | .mxstat f => some (.e f)
  | .mxthr f => some (.e f)
  | .mxpeek f => some (.e f)
  | .cpy f => some (.e f)
  | .cpyChained f => some (.e f)
  | .cpyw f => some (.e f)
  | .cpyr f => some (.e f)
  | .cpyi f => some (.e f)
  | .cpypMax f => some (.e f)
  | .cpypAvg f => some (.e f)
  | .cpyf f => some (.e f)
  | .strmRead f => some (.e f)
  | .strmWrite f => some (.e f)
  | .strw f => some (.e f)
  | .strxStop f => some (.e f)
  | .strxResume f => some (.e f)
  | .tqry f => some (.e f)
  | .tin f => some (.e f)
  | .tout f => some (.e f)
  | .nsend f => some (.e f)
  | .nget f => some (.e f)
  | .nredAdd f => some (.e f)
  | .nredMax f => some (.e f)
  | .nredMin f => some (.e f)
  | .xinv f => some (.e f)
  | .wpsetDescriptor f => some (.e f)
  | .wpsetRange f => some (.e f)
  | .wpclr f => some (.d f)
  | .mark f => some (.d f)
  | .rwcArm f => some (.d f)
  | .rwcCancel f => some (.d f)
  | .finj f => some (.d f)
  | .mcrd f => some (.d f)
  | .profStart f => some (.d f)
  | .profStop f => some (.d f)
  | .profRead f => some (.d f)
  | .walk f => some (.d f)
  | .firingStart _ _ => none
  | .waitingFiringResume _ _ => none
  | .firingComplete _ _ => none
  | .commit _ _ => none
  | .rowRelease _ _ => none
  | .loadSlotGrant _ _ => none
  | .loadResponse _ _ => none
  | .eagerAtomicReturn _ => none
  | .sliceAccess _ => none
  | .storeUnitPerform _ => none
  | .horizonBroadcast _ => none
  | .sequencerBlockComplete _ => none
  | .sequencerWaitEnd _ => none
  | .seqBlockFetch _ => none
  | .trapDelivery _ => none
  | .engineQueueEntry _ => none
  | .engineCommandStart _ _ => none
  | .engineCommandComplete _ _ => none
  | .generatorRowFill _ _ => none
  | .generatorRowShrink _ _ => none
  | .chainedHalfStart _ => none
  | .mxldwRecordWrite _ => none
  | .matrixRecordLoad _ => none
  | .matrixRowAdmit _ => none
  | .matrixAccWrite _ => none
  | .tinComplete _ _ => none
  | .toutComplete _ _ => none
  | .pageWalk _ => none
  | .kilnPageIn _ _ => none
  | .tierEntryFree _ => none
  | .kilnFaultResolve _ _ _ => none
  | .sideCounterFlush _ _ => none
  | .commandWindowWrite _ _ _ => none
  | .launch _ _ _ _ => none
  | .launchRetake _ _ _ _ => none
  | .completionRecordFill _ => none
  | .completionShrink _ _ => none
  | .dispatchBatch _ => none
  | .groupBind _ => none
  | .bindPlaneLight _ => none
  | .cswapLighting _ => none
  | .groupComplete _ => none
  | .regionEnd _ => none
  | .gangRecordReady _ => none
  | .gangReadinessCheck _ => none
  | .gangSwitch _ => none
  | .preemptionMarker _ _ => none
  | .snapshotMarker _ => none
  | .snapshotTimer _ => none
  | .cutComplete _ => none
  | .undoLogHalf _ => none
  | .undoLogFull _ => none
  | .regionRollback _ => none
  | .regionStop _ => none
  | .coreFreeze _ => none
  | .rwcStop _ => none
  | .errorRecordWrite _ _ => none
  | .coreRetire _ _ => none
  | .skidReport _ _ => none
  | .watchRaise _ => none
  | .deadlockDetectorExpiry _ => none
  | .stallWalkDone _ => none
  | .steerStep _ _ => none
  | .mergeStep _ _ => none
  | .carryStep _ _ => none
  | .invariantStep _ _ => none
  | .chainIndexEmit _ _ => none
  | .loopIndexEmit _ _ => none
  | .cornerTurnStep _ _ => none
  | .controlTokenPass _ _ => none
  | .circuitBeatSend _ _ => none
  | .circuitBeatReceive _ _ => none
  | .linkUnitReceive _ _ _ => none
  | .linkAckReceive _ => none
  | .linkNakReceive _ => none
  | .linkRetryTimeout _ => none
  | .linkDead _ => none
  | .phyTrainingLoss _ => none
  | .rerouteComplete => none
  | .networkWriteArrival _ _ _ _ => none
  | .networkReadArrival _ _ _ _ => none
  | .networkAtomicArrival _ _ _ _ _ _ _ => none
  | .nredRowArrival _ _ _ _ _ _ _ => none
  | .ngetRowArrival _ _ => none
  | .cpyrRowArrival _ _ => none
  | .networkAckReceive _ => none
  | .remoteRefusalReceive _ _ => none
  | .adminConnectionSetup _ _ _ => none
  | .attestationRead _ _ => none
  | .enrol => none
  | .openCtx _ => none
  | .sealCtx => none
  | .ckey _ => none
  | .mapPage _ => none
  | .unmap => none
  | .connect => none
  | .gangEntry => none
  | .freezeRegion => none
  | .resumeRegion => none
  | .rollbackRegion => none
  | .endRegion => none
  | .closeCtx => none
  | .powerOnBoot _ _ => none
  | .fullServiceStart _ _ => none
  | .expanderFailure _ => none
  | .throttleStep _ => none
  | .thermalStop => none
  | .storeAcknowledgement _ _ => none
  | .ptpClockDiscipline _ => none

/-- How a D-format entry reads imm16 (Table 5-1). -/
inductive ImmRule where
  | byType
  | zero
  | sign
  | byte
  | index
  | field (mask : Nat)
  | none
  deriving DecidableEq, Repr

/-- Whether an entry has targets: none at all, at least one, or either. -/
inductive TgtRule where
  | never
  | needed
  | either
  deriving DecidableEq, Repr

/-- What an instruction's entry accepts. Types, source codes and mod bits are bit masks; a source mask
of 0x40 alone is a field the entry does not read. -/
structure Shape where
  types : Nat
  seqK : Bool := true
  actK : Bool := true
  cfgK : Bool := true
  effect : Bool := false
  a : Nat := 0x5F
  b : Nat := 0x5F
  c : Bool := false
  mods : Nat := 0
  imm : ImmRule := .none
  tgt : TgtRule := .needed
  deriving DecidableEq, Repr

/-- Mask of the integer types 0 to 7. -/
def tInt : Nat := 0x00FF
/-- Mask of bf, f16 and f32. -/
def tFlt : Nat := 0x7000
/-- Mask of type 15 alone. -/
def tB : Nat := 0x8000
/-- Mask of every type code. -/
def tAll : Nat := 0xFFFF
/-- A source read with an immediate allowed. -/
def sImm : Nat := 0x7F
/-- A source read from a slot, a link or zero. -/
def sReg : Nat := 0x5F
/-- A source that takes codes 0 to 4 only. -/
def sDat : Nat := 0x1F
/-- A source not read. -/
def sNo : Nat := 0x40
/-- A source that takes codes 0 or 6. -/
def sTok : Nat := 0x41
/-- A source that takes code 0 only. -/
def sBuf : Nat := 0x01

/-- The entry of an opcode. -/
def shapeOf (op : Nat) : Shape :=
  match op with
  | 0x000 | 0x001 | 0x002 => { types := tInt, a := sImm, b := sImm, mods := 15, imm := .byType }
  | 0x003 | 0x005 | 0x006 | 0x009 | 0x00A | 0x00C | 0x00D =>
    { types := tInt, a := sImm, b := sImm, mods := 11, imm := .byType }
  | 0x004 => { types := tInt, a := sImm, b := sImm, c := true, mods := 15, imm := .byType }
  | 0x007 | 0x008 => { types := tInt, a := sImm, b := sNo, mods := 15, imm := .byType }
  | 0x00B => { types := tInt, a := sImm, b := sImm, c := true, mods := 11, imm := .byType }
  | 0x00E => { types := 0x0030, a := sImm, b := sImm, c := true, mods := 15, imm := .byte }
  | 0x040 | 0x041 | 0x042 | 0x043 =>
    { types := 0x80FF, a := sImm, b := sImm, mods := 11, imm := .byType }
  | 0x044 => { types := 0x80FF, a := sImm, b := sNo, mods := 11, imm := .byType }
  | 0x045 | 0x046 | 0x047 | 0x048 => { types := tInt, a := sImm, b := sImm, mods := 11, imm := .zero }
  | 0x049 | 0x04A => { types := tInt, a := sImm, b := sNo, mods := 11, imm := .byType }
  | 0x04B => { types := tInt, b := sNo, mods := 11, imm := .field 0xFFFF }
  | 0x04C => { types := tInt, b := sNo, c := true, mods := 11, imm := .field 0xFFFF }
  | 0x080 | 0x081 | 0x082 | 0x083 => { types := tInt, a := sImm, b := sImm, mods := 11, imm := .byType }
  | 0x084 => { types := tAll, a := sImm, b := sImm, c := true, mods := 11, imm := .byType }
  | 0x085 => { types := tAll, a := sDat, b := sNo, mods := 11 }
  | 0x086 => { types := tAll, a := 0x20, b := sImm, mods := 11, imm := .byType }
  | 0x087 => { types := 0xF0FC, b := sNo, mods := 11, imm := .field 0xFFFF }
  | 0x088 => { types := tAll }
  | 0x089 => { types := tAll, a := sNo, b := sNo, tgt := .never }
  | 0x0C0 | 0x0C1 | 0x0C2 => { types := tFlt, a := sImm, b := sImm, mods := 11, imm := .byType }
  | 0x0C3 | 0x0C4 => { types := tFlt, a := sImm, b := sImm, c := true, mods := 11, imm := .byType }
  | 0x0C5 | 0x0C6 | 0x0C9 | 0x0CA | 0x0CB | 0x0CC =>
    { types := tFlt, a := sImm, b := sImm, mods := 11, imm := .byType }
  | 0x0C7 | 0x0C8 | 0x0CD => { types := tFlt, a := sImm, b := sNo, mods := 11, imm := .byType }
  | 0x0CE => { types := tFlt, a := sImm, b := sImm, mods := 11, imm := .sign }
  | 0x0CF => { types := tFlt, a := sImm, b := sImm, mods := 11, imm := .byType }
  | 0x100 | 0x101 | 0x102 | 0x103 | 0x104 | 0x105 | 0x106 =>
    { types := tFlt, a := sImm, b := sNo, mods := 11, imm := .byType }
  | 0x110 => { types := 0x7FFF, b := sNo, mods := 15, imm := .field 0x007F }
  | 0x111 => { types := 0x7FFF, b := sDat, mods := 15, imm := .field 0x007F }
  | 0x112 => { types := 0x7FFF, mods := 15, imm := .field 0x007F }
  | 0x113 => { types := 0x7FFF, b := sNo, mods := 15, imm := .field 0x007F }
  | 0x140 | 0x142 | 0x143 => { types := tAll, b := sImm, mods := 3, imm := .index }
  | 0x141 => { types := tAll, a := sImm, b := sImm, mods := 3, imm := .zero }
  | 0x144 => { types := tAll, b := sImm, c := true, mods := 3, imm := .index }
  | 0x145 | 0x146 | 0x147 | 0x148 => { types := 0x70FF, b := sNo, mods := 3 }
  | 0x180 => { types := tAll, seqK := false, cfgK := false, a := sNo }
  | 0x181 => { types := tAll, seqK := false, cfgK := false, a := sTok }
  | 0x182 | 0x183 => { types := tB, seqK := false, cfgK := false, effect := true, a := sDat, tgt := .never }
  | 0x184 => { types := tB, seqK := false, cfgK := false, effect := true, a := sNo, tgt := .never }
  | 0x185 => { types := tB, seqK := false, cfgK := false, a := sNo }
  | 0x186 | 0x187 => { types := tB, actK := false, cfgK := false, effect := true, a := sBuf, b := sNo, tgt := .never }
  | 0x190 => { types := tAll, seqK := false, cfgK := false, a := sNo, b := sNo, imm := .field 0x0007 }
  | 0x198 => { types := 0xC000, cfgK := false, b := sNo, imm := .field 0x03FF }
  | 0x199 => { types := 0xC000, cfgK := false, effect := true, imm := .field 0x03FF, tgt := .never }
  | 0x19A => { types := 0x4000, cfgK := false, effect := true, mods := 3, imm := .field 0x03FF, tgt := .never }
  | 0x19B => { types := 0x4000, cfgK := false, effect := true, c := true, mods := 3, imm := .field 0x0FFF, tgt := .never }
  | 0x19C => { types := tB, cfgK := false, effect := true, b := sNo, imm := .field 0xFFFF, tgt := .never }
  | 0x1C0 | 0x1C1 => { types := tAll, cfgK := false, b := sNo, mods := 3 }
  | 0x1C2 => { types := 0x80FF, cfgK := false, b := sNo, mods := 3 }
  | 0x1C3 => { types := tAll, cfgK := false, effect := true, tgt := .never }
  | 0x1C4 => { types := 0x80FF, cfgK := false, effect := true, mods := 4, tgt := .never }
  | 0x1C5 => { types := 0x40F0, cfgK := false, b := sNo, mods := 11 }
  | 0x1C6 => { types := 0x40F0, cfgK := false, effect := true, mods := 8, tgt := .never }
  | 0x1C7 => { types := tB, cfgK := false, effect := true, b := sNo, tgt := .never }
  | 0x200 | 0x202 | 0x203 | 0x205 | 0x206 | 0x207 | 0x209 =>
    { types := 0x00F0, cfgK := false, effect := true, mods := 8, tgt := .either }
  | 0x201 | 0x204 => { types := 0x4000, cfgK := false, effect := true, mods := 8, tgt := .either }
  | 0x208 => { types := 0x40F0, cfgK := false, effect := true, mods := 8, tgt := .either }
  | 0x240 => { types := tB, cfgK := false, effect := true, a := sNo, b := sNo, imm := .field 0x0003, tgt := .never }
  | 0x241 => { types := tB, cfgK := false, effect := true, a := sNo, b := sNo, imm := .field 0x03FF, tgt := .never }
  | 0x242 => { types := 0x0040, seqK := false, cfgK := false, effect := true, a := sDat, b := sNo, tgt := .never }
  | 0x243 => { types := 0x0040, seqK := false, cfgK := false, a := sNo, b := sNo }
  | 0x244 => { types := tB, cfgK := false, effect := true, a := sNo, b := sNo, imm := .field 0x001F, tgt := .never }
  | 0x245 | 0x246 => { types := tB, actK := false, cfgK := false, effect := true, a := sNo, b := sNo, imm := .field 0x001F, tgt := .never }
  | 0x247 => { types := tB, actK := false, cfgK := false, effect := true, a := sNo, b := sNo, imm := .field 0xFFFF, tgt := .never }
  | 0x280 | 0x283 => { types := tB, actK := false, cfgK := false, effect := true, a := sNo, b := sNo, imm := .field 0x03FF, tgt := .never }
  | 0x281 | 0x282 => { types := tB, actK := false, cfgK := false, effect := true, a := sBuf, b := sNo, imm := .field 0x03FF, tgt := .never }
  | 0x284 | 0x28A => { types := tB, actK := false, cfgK := false, effect := true, a := sNo, b := sNo, imm := .field 0, tgt := .never }
  | 0x285 => { types := 0x0040, cfgK := false, a := sNo, b := sNo, imm := .field 0x003F }
  | 0x286 => { types := 0x0040, cfgK := false, a := sNo, b := sNo, imm := .field 0x0FFF }
  | 0x287 => { types := 0x0040, actK := false, cfgK := false, effect := true, a := sTok, b := sNo, imm := .field 0x0FFF, tgt := .never }
  | 0x288 => { types := tB, cfgK := false, effect := true, a := sNo, b := sNo, imm := .field 0xFFFF, tgt := .never }
  | 0x289 => { types := tB, actK := false, cfgK := false, effect := true, a := sTok, b := sNo, imm := .field 0, tgt := .never }
  | 0x28B => { types := 0x0010, actK := false, cfgK := false, effect := true, a := sTok, b := sNo, imm := .field 0x0007, tgt := .either }
  | 0x2C3 => { types := tB, actK := false, effect := true, a := sTok, b := sNo, tgt := .never }
  | 0x2CE => { types := tB, actK := false, cfgK := false, effect := true, a := sNo, b := sNo, tgt := .never }
  | 0x2CF => { types := tB, actK := false, cfgK := false, a := sNo, b := sNo }
  | 0x2C9 | 0x2CD => { types := tB, seqK := false, actK := false, effect := true, a := sTok, b := sTok, tgt := .never }
  | 0x2C5 | 0x2C7 | 0x2C8 | 0x2CB => { types := tB, seqK := false, actK := false, effect := true, a := sNo, b := sNo, tgt := .never }
  | 0x2C0 | 0x2C1 | 0x2C2 | 0x2C4 | 0x2C6 | 0x2CA | 0x2CC =>
    { types := tB, seqK := false, actK := false, effect := true, a := sTok, b := sNo, tgt := .never }
  | 0x300 => { types := tB, actK := false, cfgK := false, effect := true, a := sTok, b := sNo, mods := 1, tgt := .never }
  | 0x301 => { types := tB, actK := false, cfgK := false, effect := true, a := sNo, b := sNo, mods := 1, tgt := .never }
  | 0x302 => { types := 0x1F03, actK := false, cfgK := false, effect := true, a := sTok, b := sNo, mods := 7, tgt := .never }
  | 0x303 => { types := 0x0010, actK := false, cfgK := false, a := sNo, b := sNo, mods := 1 }
  | 0x304 => { types := tB, actK := false, cfgK := false, effect := true, a := sTok, b := sNo, mods := 1, tgt := .never }
  | 0x305 => { types := tB, actK := false, cfgK := false, a := sTok, b := sNo, mods := 1 }
  | 0x340 | 0x345 | 0x348 => { types := tB, actK := false, cfgK := false, effect := true, a := sTok, b := sTok, mods := 15, tgt := .never }
  | 0x341 | 0x342 | 0x343 | 0x344 => { types := tB, actK := false, cfgK := false, effect := true, a := sTok, b := sNo, mods := 15, tgt := .never }
  | 0x349 | 0x34A | 0x351 | 0x352 | 0x359 | 0x360 =>
    { types := tB, actK := false, cfgK := false, effect := true, a := sTok, b := sNo, tgt := .never }
  | 0x350 => { types := 0x0040, actK := false, cfgK := false, a := sTok, b := sNo }
  | 0x358 => { types := tB, actK := false, cfgK := false, effect := true, a := sTok, b := sTok, tgt := .never }
  | 0x35A => { types := 0x4030, actK := false, cfgK := false, effect := true, a := sTok, b := sTok, tgt := .never }
  | 0x380 => { types := tB, actK := false, cfgK := false, effect := true, a := sTok, b := sTok, mods := 7, tgt := .never }
  | 0x381 => { types := tB, actK := false, cfgK := false, effect := true, a := sNo, b := sNo, imm := .field 0x00FF, tgt := .never }
  | 0x382 => { types := tB, actK := false, cfgK := false, effect := true, a := sNo, b := sNo, tgt := .never }
  | 0x383 => { types := 0x0040, actK := false, cfgK := false, effect := true, a := sTok, b := sNo, imm := .field 0x0001, tgt := .never }
  | 0x384 => { types := 0x0010, actK := false, cfgK := false, effect := true, a := sBuf, b := sNo, tgt := .never }
  | 0x385 => { types := 0x0040, actK := false, cfgK := false, a := sNo, b := sNo, imm := .field 0x000F }
  | 0x386 => { types := 0x0040, actK := false, cfgK := false, effect := true, a := sBuf, b := sNo, imm := .field 0x0003, tgt := .either }
  | 0x387 => { types := tB, actK := false, cfgK := false, effect := true, a := sNo, b := sNo, imm := .field 0x00FF, tgt := .never }
  | _ => { types := 0 }

/-- Fields shared by every format, as numbers; `src` are the source codes that the format carries. -/
structure Common where
  pred : Nat
  ty : Nat
  a : Option Nat
  b : Option Nat
  mod : Nat
  t1 : Nat
  t2 : Nat
  deriving DecidableEq, Repr

/-- The common fields of a word's fields. -/
def commonOf : Fields → Common
  | .d f => ⟨f.pred.toNat, f.ty.toNat, some f.srcA.toNat, some f.srcB.toNat, f.mod.toNat, f.t1.toNat, f.t2.toNat⟩
  | .w f => ⟨f.pred.toNat, f.ty.toNat, some f.srcA.toNat, none, f.mod.toNat, f.t1.toNat, f.t2.toNat⟩
  | .m f => ⟨f.pred.toNat, f.ty.toNat, some f.srcA.toNat, some f.srcB.toNat, f.mod.toNat, f.t1.toNat, f.t2.toNat⟩
  | .c f => ⟨f.pred.toNat, f.ty.toNat, some f.srcA.toNat, some f.srcB.toNat, f.mod.toNat, f.t1.toNat, f.t2.toNat⟩
  | .e f => ⟨f.pred.toNat, f.ty.toNat, some f.srcA.toNat, some f.srcB.toNat, f.mod.toNat, f.t1.toNat, f.t2.toNat⟩
  | .l f => ⟨f.pred.toNat, f.ty.toNat, none, none, 0, f.t1.toNat, f.t2.toNat⟩

/-- Whether bit `i` of a mask is set. -/
def inMask (m i : Nat) : Bool := bitOf m i

/-- Failures of one source field: 0x05 for a field not read that is not code 6, 0x08 for a code the
entry does not take (R105, Table 4-11). `dFmt`: the word is of format D. DEDUCED (log entry 61): code 6 in a source that its entry
reads from code 0 alone is 0x08. -/
def srcFails (kind : Nat) (dFmt : Bool) (mask : Nat) (code : Option Nat) : List Nat :=
  match code with
  | none => []
  | some c =>
    (if mask = sNo && c ≠ 6 then [0x05] else []) ++
    (if c = 7 || (c = 5 && !dFmt) || (1 ≤ c && c ≤ 4 && kind ≠ 1) || (mask ≠ sNo && !inMask mask c)
      then [0x08] else [])

/-- Element width in bytes by type code number, 8 for type b. -/
def widthOf (t : Nat) : Nat := tyBytes (BitVec.ofNat 4 t)

/-- The lane-form mask check of R180: bits above the lane count, or none at all. -/
def lmaskFails (ty : BitVec 4) (low : BitVec 16) : List Nat :=
  let lanes := if tyBytes ty = 4 then 16 else 8
  if low.toNat = 0 || low.toNat ≥ 2 ^ lanes then [0x05] else []

/-- Checks that belong to single entries. DESIGN CHOICE (log entry 61): source A of a WRDX is read under OFS = 1 alone, so that an
illegal OFS with another source A than code 6 is 0x05 before 0x08. -/
def extraFails : Instr → List Nat
  | .cvt f =>
    (if f.imm.toNat / 16 ≠ 0 then [0x05] else []) ++ (if f.imm.toNat % 16 = 15 then [0x09] else [])
  | .cvts f =>
    (if f.imm.toNat / 16 % 4 ≠ 0 then [0x05] else []) ++ (if f.imm.toNat % 16 = 15 then [0x09] else [])
  | .pack f =>
    let s := f.imm.toNat % 16; let r := widthOf s / tyBytes f.ty
    (if f.imm.toNat / 64 ≠ 0 || f.imm.toNat / 16 % 4 ≥ r then [0x05] else []) ++
    (if s = 15 || !(r = 2 || r = 4) then [0x09] else [])
  | .unpk f =>
    let s := f.imm.toNat % 16; let r := tyBytes f.ty / widthOf s
    (if f.imm.toNat / 64 ≠ 0 || f.imm.toNat / 16 % 4 ≥ r then [0x05] else []) ++
    (if s = 15 || !(r = 2 || r = 4) then [0x09] else [])
  | .movi f => if f.srcA ≠ 5 || f.srcB ≠ 6 then [0x08] else []
  | .nop f => if f.ty ≠ 15 || f.srcA ≠ 6 || f.srcB ≠ 6 then [0x05] else []
  | .wrd f => if f.ofs ≠ 0 then [0x08] else []
  | .wrdx f =>
    (if f.ofs = 1 then
      (if f.dist ≠ 0 then [0x05] else []) ++ (if f.srcA ≠ 0 then [0x08] else [])
     else (if f.srcA ≠ 6 then [0x05] else []) ++ (if f.ofs ≠ 0 then [0x08] else []))
  | .wupd f => if f.ofs ≠ 0 then [0x08] else []
  | .wfil f => (if f.dist ≠ 0 then [0x05] else []) ++ (if f.ofs ≠ 0 then [0x08] else [])
  | .wshr f => if f.ofs ≠ 0 then [0x08] else []
  | .wcnt f => (if f.dist ≠ 0 then [0x05] else []) ++ (if f.ofs ≠ 0 then [0x08] else [])
  | .apatchSet f => if f.imm.toNat / 1024 % 4 = 3 then [0x05] else []
  | .ld f => if f.size ≠ 0 then [0x05] else []
  | .ld2 f => if f.size ≠ 0 then [0x05] else []
  | .lds f => if 2 ^ f.size.toNat > tyBytes f.ty then [0x09] else []
  | .st f => if f.size ≠ 0 then [0x05] else []
  | .sts f => if 2 ^ f.size.toNat > tyBytes f.ty then [0x09] else []
  | .gath f => (if f.size ≠ 0 then [0x05] else []) ++ (if f.mod.toNat < 8 then lmaskFails f.ty f.low else [])
  | .scat f => (if f.size ≠ 0 then [0x05] else []) ++ (if f.mod.toNat < 8 then lmaskFails f.ty f.low else [])
  | .pref f => if f.size ≠ 0 then [0x05] else []
  | .atcas f => if f.size ≠ 0 || f.mod.toNat < 8 then [0x05] else []
  | .atadd f => (if f.size ≠ 0 then [0x05] else []) ++ (if f.mod.toNat < 8 then lmaskFails f.ty f.low else [])
  | .atfadd f => (if f.size ≠ 0 then [0x05] else []) ++ (if f.mod.toNat < 8 then lmaskFails f.ty f.low else [])
  | .atmin f => (if f.size ≠ 0 then [0x05] else []) ++ (if f.mod.toNat < 8 then lmaskFails f.ty f.low else [])
  | .atmax f => (if f.size ≠ 0 then [0x05] else []) ++ (if f.mod.toNat < 8 then lmaskFails f.ty f.low else [])
  | .atfmax f => (if f.size ≠ 0 then [0x05] else []) ++ (if f.mod.toNat < 8 then lmaskFails f.ty f.low else [])
  | .atand f => (if f.size ≠ 0 then [0x05] else []) ++ (if f.mod.toNat < 8 then lmaskFails f.ty f.low else [])
  | .ator f => (if f.size ≠ 0 then [0x05] else []) ++ (if f.mod.toNat < 8 then lmaskFails f.ty f.low else [])
  | .atxor f => (if f.size ≠ 0 then [0x05] else []) ++ (if f.mod.toNat < 8 then lmaskFails f.ty f.low else [])
  | .atxch f => (if f.size ≠ 0 then [0x05] else []) ++ (if f.mod.toNat < 8 then lmaskFails f.ty f.low else [])
  | .xfence f =>
    let x := f.imm.toNat % 16; let y := f.imm.toNat / 16 % 16
    if x > 4 || y > 4 || x = y then [0x05] else []
  | .evwait f =>
    (if f.imm.toNat % 16 = 0 || (f.imm.toNat / 4 % 2 = 0 && f.srcA ≠ 6) then [0x05] else []) ++
    (if f.imm.toNat / 4 % 2 = 1 && f.srcA ≠ 0 then [0x08] else [])
  | .rwcArm f => if f.srcA = 6 then [0x05] else []
  | .cactorUnbind f => if f.srcA ≠ 6 then [0x05] else []
  | .rwcCancel f => if f.srcA ≠ 6 then [0x05] else []
  | .profRead f => if f.imm.toNat % 4 = 3 then [0x05] else []
  | .wsave f => if f.desc ≠ 0 || f.flags ≠ 0 then [0x05] else []
  | .wrest f => if f.desc ≠ 0 || f.flags ≠ 0 then [0x05] else []
  | .mxldw f => if f.win ≠ 0 || f.flags ≠ 0 then [0x05] else []
  | .mxsel f => if f.desc ≠ 0 || f.win ≠ 0 || f.flags ≠ 0 then [0x05] else []
  | .mxrun f =>
    (if f.desc ≠ 0 || f.flags.toNat > 3 then [0x05] else []) ++
    (if mxTypeOk f.mod f.ty then [] else [0x09])
  | .mxstat f => if f.desc ≠ 0 || f.win ≠ 0 then [0x05] else []
  | .mxthr f => if f.desc ≠ 0 || f.win ≠ 0 then [0x05] else []
  | .mxpeek f => if f.desc ≠ 0 || f.win ≠ 0 || f.flags.toNat > 3 then [0x05] else []
  | .cpy f => if f.srcB ≠ 6 then [0x05] else []
  | .cpyw f => if f.flags.toNat / 2 % 4 ≠ 0 then [0x05] else []
  | .cpyr f => if f.desc ≠ 0 || f.flags ≠ 0 then [0x05] else []
  | .cpyi f => if f.flags.toNat % 2 ≠ 0 || f.flags.toNat / 4 % 2 ≠ 0 then [0x05] else []
  | .cpypMax f => if f.flags.toNat / 4 % 2 ≠ 0 then [0x05] else []
  | .cpypAvg f => if f.flags.toNat / 4 % 2 ≠ 0 then [0x05] else []
  | .cpyf f => if f.win ≠ 0 || f.flags.toNat % 8 ≠ 0 then [0x05] else []
  | .strmRead f => if f.flags.toNat / 4 % 2 ≠ 0 then [0x05] else []
  | .strmWrite f => if f.flags.toNat / 4 % 2 ≠ 0 then [0x05] else []
  | .strw f => if f.desc ≠ 0 || f.win ≠ 0 || f.flags ≠ 0 then [0x05] else []
  | .strxStop f => if f.desc ≠ 0 || f.win ≠ 0 || f.flags.toNat > 1 then [0x05] else []
  | .strxResume f => if f.desc ≠ 0 || f.win ≠ 0 || f.flags.toNat > 1 then [0x05] else []
  | .tqry f => if f.desc ≠ 0 || f.win ≠ 0 || f.flags ≠ 0 then [0x05] else []
  | .tin f => if f.desc ≠ 0 || f.win ≠ 0 || f.flags ≠ 0 then [0x05] else []
  | .tout f => if f.desc ≠ 0 || f.win ≠ 0 || f.flags ≠ 0 then [0x05] else []
  | .nsend f => if f.win ≠ 0 || f.flags ≠ 0 then [0x05] else []
  | .nget f => if f.desc ≠ 0 || f.flags ≠ 0 then [0x05] else []
  | .nredAdd f => if f.win ≠ 0 || f.flags.toNat > 2 then [0x05] else []
  | .nredMax f => if f.win ≠ 0 || f.flags.toNat > 2 then [0x05] else []
  | .nredMin f => if f.win ≠ 0 || f.flags.toNat > 2 || f.ty = 14 then [0x05] else []
  | .xinv f => if f.desc ≠ 0 || f.win ≠ 0 || f.flags.toNat > 2 then [0x05] else []
  | .wpsetDescriptor f => if f.win ≠ 0 || f.flags.toNat > 1 || f.srcB ≠ 6 then [0x05] else []
  | .wpsetRange f => if f.desc ≠ 0 || f.win ≠ 0 || f.flags.toNat > 1 then [0x05] else []
  | _ => []
where
  /-- The pairs of mode and type of Table 8-6. -/
  mxTypeOk (mod : BitVec 4) (ty : BitVec 4) : Bool :=
    match mod.toNat % 4 with
    | 0 | 1 => inMask 0x0F03 ty.toNat
    | 2 => inMask 0x0303 ty.toNat
    | _ => ty = 12

/-- Failures of imm16 and the bits an entry does not use (check 0x05). -/
def immFails (sh : Shape) (f : Fields) : List Nat :=
  match f with
  | .d g =>
    match sh.imm with
    | .field m => if g.imm.toNat &&& m = g.imm.toNat then [] else [0x05]
    | _ => if g.imm ≠ 0 && !(g.srcA = 5 && sh.a ≠ sNo) && !(g.srcB = 5 && sh.b ≠ sNo) then [0x05] else []
  | _ => []

/-- Whether target field `t` is none. -/
def tgtNone (t : Nat) : Bool := t / 128 = 0

/-- Failures of the target fields that do not depend on the rest of the block: targets where the entry
allows none (0x05: R269 leaves 0x05 or 0x0A, other entries give no code; DESIGN CHOICE, log entry 61), an index outside Table 4-3, and
both targets none where one is needed (0x0A).
`kind` is the block kind of the header. -/
def tgtFails (kind slot last : Nat) (sh : Shape) (c : Common) : List Nat :=
  let one (t : Nat) : Bool :=
    let k := t / 128; let i := t % 128
    match k with
    | 0 => i = 0
    | 1 | 2 | 3 | 4 => slot < i && i ≤ last
    | 5 => kind = 1 && i < 4
    | 6 => kind = 1 && i < 16
    | _ => if kind = 0 then i < 64 else if kind = 1 then i < 8 else false
  (if sh.tgt = .never && (c.t1 ≠ 0 || c.t2 ≠ 0) then [0x05] else []) ++
  (if !one c.t1 || !one c.t2 || (sh.tgt = .needed && tgtNone c.t1 && tgtNone c.t2) then [0x0A] else [])

/-- The checks 0x05 to 0x0A and 0x0D of one instruction in a block of kind `kind` (0 sequencer, 1 actor,
2 configuration), apart from those that read other slots; the reasons found, in no order. -/
def wordFails (kind slot last : Nat) (i : Instr) : List Nat :=
  match opcodeOf i, fieldsOf i with
  | some op, some f =>
    let sh := shapeOf op; let c := commonOf f
    let dFmt := match f with | .d _ => true | _ => false
    (if c.pred = 3 then [0x07] else []) ++
    (if inMask sh.types c.ty then [] else [0x09]) ++
    srcFails kind dFmt sh.a c.a ++ srcFails kind dFmt sh.b c.b ++
    (if c.mod &&& sh.mods = c.mod then [] else [0x05]) ++
    immFails sh f ++ extraFails i ++ tgtFails kind slot last sh c ++
    (if (kind = 0 && sh.seqK) || (kind = 1 && sh.actK) || (kind = 2 && sh.cfgK) then [] else [0x0D])
  | _, _ => [0x06]

/-- Whether the constructor is the one its selector fields name, for the mnemonics that the table splits. -/
def selectorOk : Instr → Bool
  | .apatchSet f => f.imm.toNat / 1024 % 4 = 0 || f.imm.toNat / 1024 % 4 = 3
  | .apatchAdd f => f.imm.toNat / 1024 % 4 = 1
  | .apatchScale f => f.imm.toNat / 1024 % 4 = 2
  | .mtk f => f.imm.toNat % 4096 ≠ 0x030 && f.imm.toNat % 4096 ≠ 0x034
  | .fpxClear f => f.imm.toNat % 4096 = 0x030
  | .wpHitClear f => f.imm.toNat % 4096 = 0x034
  | .cactor f => f.arg.toNat / 8 % 2 = 0
  | .cactorUnbind f => f.arg.toNat / 8 % 2 = 1
  | .cmodeMatrixRectangle f => f.arg ≠ 1 && f.arg ≠ 2
  | .cmodePatchLogWindow f => f.arg = 1
  | .cmodeBarrierCount f => f.arg = 2
  | .cswap f => f.arg.toNat % 2 = 0
  | .cswapDiscard f => f.arg.toNat % 2 = 1
  | .cpy f => f.flags.toNat / 4 % 2 = 0
  | .cpyChained f => f.flags.toNat / 4 % 2 = 1
  | .cpypMax f => f.flags.toNat % 2 = 0
  | .cpypAvg f => f.flags.toNat % 2 = 1
  | .strmRead f => f.flags.toNat % 2 = 0
  | .strmWrite f => f.flags.toNat % 2 = 1
  | .strxStop f => f.flags.toNat % 4 ≠ 1
  | .strxResume f => f.flags.toNat % 4 = 1
  | .nredAdd f => f.flags.toNat % 4 = 0 || f.flags.toNat % 4 = 3
  | .nredMax f => f.flags.toNat % 4 = 1
  | .nredMin f => f.flags.toNat % 4 = 2
  | .wpsetDescriptor f => f.flags.toNat % 2 = 0
  | .wpsetRange f => f.flags.toNat % 2 = 1
  | .rwcArm f => f.imm.toNat % 2 = 1
  | .rwcCancel f => f.imm.toNat % 2 = 0
  | .profStart f => f.imm.toNat % 4 = 0
  | .profStop f => f.imm.toNat % 4 = 1
  | .profRead f => f.imm.toNat % 4 ≥ 2
  | _ => true

end Sys2Proof.Machine
end

