-- ==== Sys2Proof/Machine/Operands.lean ====
section
/-!
DEFINITION. Immediates (R124, Table 5-1), tokens built element by element with the width bit V (R13, R123,
R126), and what an operand position delivers (R105, R123).
-/

namespace Sys2Proof.Machine

/-- The token whose elements of width `w` are the values of a list, element 0 first; the rest is zero. -/
def ofVals (w : Nat) (l : List Nat) : Row :=
  BitVec.ofNat 512 (l.foldr (fun x acc => (acc <<< w) + x % 2 ^ w) 0)

/-- The token that holds one value in each of its elements of type `ty`. -/
def splat (ty : BitVec 4) (v : Nat) : Row := ofVals (tyBits ty) (List.replicate (tyCount ty) v)

/-- The elements of a token in a type. -/
def vals (ty : BitVec 4) (t : Row) : List Nat := (List.range (tyCount ty)).map (elem (tyBits ty) t)

/-- The width bit V of a word's mod field (R13). -/
def vOf (m : BitVec 4) : Bool := m.getLsbD 3

/-- The saturation bit S of a word's mod field (R125). -/
def sOf (m : BitVec 4) : Bool := m.getLsbD 2

/-- Elements that an element-wise instruction forms: element 0 alone under V (R13). -/
def laneCount (ty m : BitVec 4) : Nat := if vOf m then 1 else tyCount ty

/-- A result formed element by element with the flags of the elements formed (R13, R123, R126). -/
def lanes (ty m : BitVec 4) (g : Nat → Nat × Fpx) : Row × Fpx :=
  let l := (List.range (laneCount ty m)).map g
  (ofVals (tyBits ty) (l.map Prod.fst), l.foldl (fun acc x => acc ||| x.2) fNone)

/-- As `lanes`, without flags. -/
def lanesI (ty m : BitVec 4) (g : Nat → Nat) : Row × Fpx :=
  (ofVals (tyBits ty) ((List.range (laneCount ty m)).map g), fNone)

/-- The element that imm16 becomes (R85, R124). -/
def immElem (r : ImmRule) (ty : BitVec 4) (imm : BitVec 16) : Nat :=
  match r with
  | .byType =>
    if tyInt ty then if tySigned ty then wrapTo (tyBits ty) imm.toInt else imm.toNat % 2 ^ tyBits ty
    else if ty = 14 then imm.toNat <<< 16
    else imm.toNat % 2 ^ tyBits ty
  | .zero => imm.toNat % 2 ^ tyBits ty
  | .sign => wrapTo (tyBits ty) imm.toInt
  | _ => 0

/-- The token that source code 5 delivers (R123): nothing where the entry reads imm16 as an index or a field. -/
def immTok (r : ImmRule) (ty : BitVec 4) (imm : BitVec 16) : Row :=
  match r with
  | .byte => ofVals 8 (List.replicate 64 (imm.toNat % 256))
  | .byType | .zero | .sign => splat ty (immElem r ty imm)
  | .index | .field _ | .none => 0

/-- What a source position delivers: its buffer or link (`got`) for codes 0 to 4, the immediate for code 5, zero for
code 6 (R105, R123). -/
def sourceTok (r : ImmRule) (ty : BitVec 4) (imm : BitVec 16) (code : BitVec 3) (got : Row) : Row :=
  if code.toNat < 5 then got else if code = 5 then immTok r ty imm else 0

end Sys2Proof.Machine
end

