-- ==== Sys2Proof/WellFormed.lean ====
section
/-!
DEFINITION. Well-formed instructions: the constructor agrees with its selector fields, and in some block
kind no check of Table 4-11 that reads the word alone fails. An event has no words and is not
well-formed.
-/

namespace Sys2Proof

/-- Whether the word of an instruction passes its checks in slot 0 of a block of some kind whose last slot
is 127 (R115). -/
def wellFormed (i : Instr) : Bool :=
  Machine.selectorOk i &&
    (Machine.wordFails 0 0 127 i == [] || Machine.wordFails 1 0 127 i == [] || Machine.wordFails 2 0 127 i == [])

/-- The instruction is well-formed. -/
abbrev WellFormed (i : Instr) : Prop := wellFormed i = true

end Sys2Proof
end

