-- ==== Sys2Proof/Decode.lean ====
section
/-!
DEFINITION. The words of an instruction: field layouts of Tables 4-4 to 4-9, opcodes of Table 4-10. The
decoder is total and refuses by name; the encoder is written from the same tables.
-/

namespace Sys2Proof

open Sys2Proof.Machine

/-- Why the decoder refuses a word: an unassigned opcode (R113), or a bit that every instruction of the
format holds at zero (R106 to R111). -/
inductive DecodeError where
  | opcode
  | reserved
  deriving DecidableEq, Repr

/-- The letter of a format (R106 to R111). -/
inductive Format where
  | d
  | w
  | m
  | c
  | e
  | l
  deriving DecidableEq, Repr

/-- Bits [lo + n - 1 : lo] of a word. -/
def bits (w : Word) (lo n : Nat) : BitVec n := w.extractLsb' lo n

/-- The opcode of a word, bits [63:54] (R103). -/
def opBits (w : Word) : BitVec 10 := bits w 54 10

/-- Fields of format D (Table 4-4). -/
def dFields (w : Word) : DFields :=
  ⟨bits w 52 2, bits w 48 4, bits w 45 3, bits w 42 3, bits w 38 4, bits w 28 10, bits w 18 10, bits w 0 16⟩

/-- Fields of format W (Table 4-5). -/
def wFields (w : Word) : WFields :=
  ⟨bits w 52 2, bits w 48 4, bits w 45 3, bits w 42 3, bits w 38 4, bits w 28 10, bits w 18 10, bits w 12 4, bits w 0 12⟩

/-- Fields of format M (Table 4-6). -/
def mFields (w : Word) : MFields :=
  ⟨bits w 52 2, bits w 48 4, bits w 45 3, bits w 42 3, bits w 38 4, bits w 28 10, bits w 18 10, bits w 16 2, bits w 0 16⟩

/-- Fields of format C (Table 4-7). -/
def cFields (w : Word) : CFields :=
  ⟨bits w 52 2, bits w 48 4, bits w 45 3, bits w 42 3, bits w 38 4, bits w 28 10, bits w 18 10, bits w 8 8, bits w 0 8⟩

/-- Fields of format E (Table 4-8). -/
def eFields (w : Word) : EFields :=
  ⟨bits w 52 2, bits w 48 4, bits w 45 3, bits w 42 3, bits w 38 4, bits w 28 10, bits w 18 10, bits w 12 6, bits w 4 8, bits w 0 4⟩

/-- Fields of format L (Table 4-9) with the literal of the next slot. -/
def lFields (w lit : Word) : LFields :=
  ⟨bits w 52 2, bits w 48 4, bits w 28 10, bits w 18 10, lit⟩

/-- The bits that every instruction of a format holds at zero (check 0x05). -/
def reservedZero (fmt : Format) (w : Word) : Bool :=
  match fmt with
  | .d | .w | .c => bits w 16 2 == 0
  | .m | .e => true
  | .l => bits w 38 10 == 0 && bits w 0 18 == 0

/-- The format of an opcode; none when it is unassigned (Table 4-10, R113). -/
def formatOf (op : Nat) : Option Format :=
  if (0x000 ≤ op && op ≤ 0x00E) || (0x040 ≤ op && op ≤ 0x04C) || (0x080 ≤ op && op ≤ 0x087) || op = 0x089 || (0x0C0 ≤ op &&
      op ≤ 0x0CF) || (0x100 ≤ op && op ≤ 0x106) || (0x110 ≤ op && op ≤ 0x113) || (0x140 ≤ op && op ≤ 0x148) ||
      op = 0x190 || (0x198 ≤ op && op ≤ 0x19C) || (0x240 ≤ op && op ≤ 0x247) || (0x280 ≤ op && op ≤ 0x28B) || (0x381 ≤ op &&
      op ≤ 0x387) then some .d
  else if op = 0x088 then some .l
  else if (0x180 ≤ op && op ≤ 0x185) then some .w
  else if (0x1C0 ≤ op && op ≤ 0x1C7) || (0x200 ≤ op && op ≤ 0x209) then some .m
  else if (0x2C0 ≤ op && op ≤ 0x2CF) then some .c
  else if (0x186 ≤ op && op ≤ 0x187) || (0x300 ≤ op && op ≤ 0x305) || (0x340 ≤ op && op ≤ 0x345) || (0x348 ≤ op && op ≤ 0x34A) ||
      (0x350 ≤ op && op ≤ 0x352) || (0x358 ≤ op && op ≤ 0x35A) || op = 0x360 || op = 0x380 then some .e
  else none

/-- The instruction of an opcode of format D. -/
def buildD (op : Nat) (f : DFields) : Option Instr :=
  match op with
  | 0x000 => some (.add f)
  | 0x001 => some (.sub f)
  | 0x002 => some (.mul f)
  | 0x003 => some (.mulh f)
  | 0x004 => some (.mad f)
  | 0x005 => some (.quo f)
  | 0x006 => some (.rem f)
  | 0x007 => some (.neg f)
  | 0x008 => some (.abs f)
  | 0x009 => some (.min f)
  | 0x00A => some (.max f)
  | 0x00B => some (.clamp f)
  | 0x00C => some (.adds f)
  | 0x00D => some (.subs f)
  | 0x00E => some (.dot4 f)
  | 0x040 => some (.and f)
  | 0x041 => some (.or f)
  | 0x042 => some (.xor f)
  | 0x043 => some (.andn f)
  | 0x044 => some (.not f)
  | 0x045 => some (.shl f)
  | 0x046 => some (.shr f)
  | 0x047 => some (.sra f)
  | 0x048 => some (.rotl f)
  | 0x049 => some (.clz f)
  | 0x04A => some (.popc f)
  | 0x04B => some (.bfx f)
  | 0x04C => some (.bfi f)
  | 0x080 => some (.cmpeq f)
  | 0x081 => some (.cmpne f)
  | 0x082 => some (.cmplt f)
  | 0x083 => some (.cmple f)
  | 0x084 => some (.sel f)
  | 0x085 => some (.mov f)
  | 0x086 => some (.movi f)
  | 0x087 => some (.movh f)
  | 0x089 => some (.nop f)
  | 0x0C0 => some (.fadd f)
  | 0x0C1 => some (.fsub f)
  | 0x0C2 => some (.fmul f)
  | 0x0C3 => some (.fma f)
  | 0x0C4 => some (.fnma f)
  | 0x0C5 => some (.fmin f)
  | 0x0C6 => some (.fmax f)
  | 0x0C7 => some (.fabs f)
  | 0x0C8 => some (.fneg f)
  | 0x0C9 => some (.fcmpeq f)
  | 0x0CA => some (.fcmplt f)
  | 0x0CB => some (.fcmple f)
  | 0x0CC => some (.fcmpun f)
  | 0x0CD => some (.fclass f)
  | 0x0CE => some (.fscale f)
  | 0x0CF => some (.fdiv f)
  | 0x100 => some (.frcp f)
  | 0x101 => some (.frsq f)
  | 0x102 => some (.fsqrt f)
  | 0x103 => some (.fexp2 f)
  | 0x104 => some (.flog2 f)
  | 0x105 => some (.fsig f)
  | 0x106 => some (.ftanh f)
  | 0x110 => some (.cvt f)
  | 0x111 => some (.cvts f)
  | 0x112 => some (.pack f)
  | 0x113 => some (.unpk f)
  | 0x140 => some (.bcast f)
  | 0x141 => some (.shuf f)
  | 0x142 => some (.rotx f)
  | 0x143 => some (.lane f)
  | 0x144 => some (.insl f)
  | 0x145 => some (.redadd f)
  | 0x146 => some (.redmax f)
  | 0x147 => some (.redmin f)
  | 0x148 => some (.scan f)
  | 0x190 => some (.hget f)
  | 0x198 => some (.ard f)
  | 0x199 => some (.awr f)
  | 0x19A => some (.aacc f)
  | 0x19B => some (match f.imm.toNat / 1024 % 4 with | 1 => .apatchAdd f | 2 => .apatchScale f | _ => .apatchSet f)
  | 0x19C => some (.aclr f)
  | 0x240 => some (.fence f)
  | 0x241 => some (.xfence f)
  | 0x242 => some (.tset f)
  | 0x243 => some (.tget f)
  | 0x244 => some (.bara f)
  | 0x245 => some (.barw f)
  | 0x246 => some (.baraw f)
  | 0x247 => some (.waitc f)
  | 0x280 => some (.br f)
  | 0x281 => some (.brc f)
  | 0x282 => some (.brx f)
  | 0x283 => some (.call f)
  | 0x284 => some (.ret f)
  | 0x285 => some (.grd f)
  | 0x286 => some (.mfk f)
  | 0x287 => some (if f.imm.toNat % 4096 = 0x030 then .fpxClear f else if f.imm.toNat % 4096 = 0x034 then .wpHitClear f else .mtk f)
  | 0x288 => some (.trap f)
  | 0x289 => some (.rft f)
  | 0x28A => some (.halt f)
  | 0x28B => some (.evwait f)
  | 0x381 => some (.wpclr f)
  | 0x382 => some (.mark f)
  | 0x383 => some (if f.imm.toNat % 2 = 1 then .rwcArm f else .rwcCancel f)
  | 0x384 => some (.finj f)
  | 0x385 => some (.mcrd f)
  | 0x386 => some (match f.imm.toNat % 4 with | 0 => .profStart f | 1 => .profStop f | _ => .profRead f)
  | 0x387 => some (.walk f)
  | _ => none

/-- The instruction of an opcode of format W. -/
def buildW (op : Nat) (f : WFields) : Option Instr :=
  match op with
  | 0x180 => some (.wrd f)
  | 0x181 => some (.wrdx f)
  | 0x182 => some (.wupd f)
  | 0x183 => some (.wfil f)
  | 0x184 => some (.wshr f)
  | 0x185 => some (.wcnt f)
  | _ => none

/-- The instruction of an opcode of format M. -/
def buildM (op : Nat) (f : MFields) : Option Instr :=
  match op with
  | 0x1C0 => some (.ld f)
  | 0x1C1 => some (.ld2 f)
  | 0x1C2 => some (.lds f)
  | 0x1C3 => some (.st f)
  | 0x1C4 => some (.sts f)
  | 0x1C5 => some (.gath f)
  | 0x1C6 => some (.scat f)
  | 0x1C7 => some (.pref f)
  | 0x200 => some (.atadd f)
  | 0x201 => some (.atfadd f)
  | 0x202 => some (.atmin f)
  | 0x203 => some (.atmax f)
  | 0x204 => some (.atfmax f)
  | 0x205 => some (.atand f)
  | 0x206 => some (.ator f)
  | 0x207 => some (.atxor f)
  | 0x208 => some (.atxch f)
  | 0x209 => some (.atcas f)
  | _ => none

/-- The instruction of an opcode of format C. -/
def buildC (op : Nat) (f : CFields) : Option Instr :=
  match op with
  | 0x2C0 => some (if f.arg.toNat / 8 % 2 = 1 then .cactorUnbind f else .cactor f)
  | 0x2C1 => some (.cport f)
  | 0x2C2 => some (.cwin f)
  | 0x2C3 => some (.wgrow f)
  | 0x2C4 => some (.croute f)
  | 0x2C5 => some (.csteer f)
  | 0x2C6 => some (.cmerge f)
  | 0x2C7 => some (.ccarry f)
  | 0x2C8 => some (.cinv f)
  | 0x2C9 => some (.cchain f)
  | 0x2CA => some (.cloop f)
  | 0x2CB => some (.cturn f)
  | 0x2CC => some (if f.arg = 1 then .cmodePatchLogWindow f else if f.arg = 2 then .cmodeBarrierCount f else .cmodeMatrixRectangle f)
  | 0x2CD => some (.cdesc f)
  | 0x2CE => some (if f.arg.toNat % 2 = 1 then .cswapDiscard f else .cswap f)
  | 0x2CF => some (.cqui f)
  | _ => none

/-- The instruction of an opcode of format E. -/
def buildE (op : Nat) (f : EFields) : Option Instr :=
  match op with
  | 0x186 => some (.wsave f)
  | 0x187 => some (.wrest f)
  | 0x300 => some (.mxldw f)
  | 0x301 => some (.mxsel f)
  | 0x302 => some (.mxrun f)
  | 0x303 => some (.mxstat f)
  | 0x304 => some (.mxthr f)
  | 0x305 => some (.mxpeek f)
  | 0x340 => some (if f.flags.toNat / 4 % 2 = 1 then .cpyChained f else .cpy f)
  | 0x341 => some (.cpyw f)
  | 0x342 => some (.cpyr f)
  | 0x343 => some (.cpyi f)
  | 0x344 => some (if f.flags.toNat % 2 = 1 then .cpypAvg f else .cpypMax f)
  | 0x345 => some (.cpyf f)
  | 0x348 => some (if f.flags.toNat % 2 = 1 then .strmWrite f else .strmRead f)
  | 0x349 => some (.strw f)
  | 0x34A => some (if f.flags.toNat % 4 = 1 then .strxResume f else .strxStop f)
  | 0x350 => some (.tqry f)
  | 0x351 => some (.tin f)
  | 0x352 => some (.tout f)
  | 0x358 => some (.nsend f)
  | 0x359 => some (.nget f)
  | 0x35A => some (match f.flags.toNat % 4 with | 1 => .nredMax f | 2 => .nredMin f | _ => .nredAdd f)
  | 0x360 => some (.xinv f)
  | 0x380 => some (if f.flags.toNat % 2 = 1 then .wpsetRange f else .wpsetDescriptor f)
  | _ => none

/-- The instruction that a word's fields name, whatever its reserved bits hold. -/
def readWord (w lit : Word) : Option Instr :=
  let op := (opBits w).toNat
  match formatOf op with
  | none => none
  | some .d => buildD op (dFields w)
  | some .w => buildW op (wFields w)
  | some .m => buildM op (mFields w)
  | some .c => buildC op (cFields w)
  | some .e => buildE op (eFields w)
  | some .l => some (.lit (lFields w lit))

/-- The instruction that a word holds, `lit` being the word of the slot after it (read by format L
alone, R111). -/
def decodeWord (w lit : Word) : Except DecodeError Instr :=
  match formatOf (opBits w).toNat, readWord w lit with
  | some fmt, some i => if reservedZero fmt w then .ok i else .error .reserved
  | _, _ => .error .opcode

/-- The word of fields under an opcode (Tables 4-4 to 4-9). -/
def encodeFields (op : BitVec 10) : Fields → Word
  | .d f => op ++ f.pred ++ f.ty ++ f.srcA ++ f.srcB ++ f.mod ++ f.t1 ++ f.t2 ++ 0#2 ++ f.imm
  | .w f => op ++ f.pred ++ f.ty ++ f.srcA ++ f.ofs ++ f.mod ++ f.t1 ++ f.t2 ++ 0#2 ++ f.port ++ f.dist
  | .m f => op ++ f.pred ++ f.ty ++ f.srcA ++ f.srcB ++ f.mod ++ f.t1 ++ f.t2 ++ f.size ++ f.low
  | .c f => op ++ f.pred ++ f.ty ++ f.srcA ++ f.srcB ++ f.mod ++ f.t1 ++ f.t2 ++ 0#2 ++ f.obj ++ f.arg
  | .e f => op ++ f.pred ++ f.ty ++ f.srcA ++ f.srcB ++ f.mod ++ f.t1 ++ f.t2 ++ f.desc ++ f.win ++ f.flags
  | .l f => op ++ f.pred ++ f.ty ++ 0#10 ++ f.t1 ++ f.t2 ++ 0#18

/-- The words of an instruction: one, or two for format L; an event has none. -/
def encode (i : Instr) : List Word :=
  match opcodeOf i, fieldsOf i with
  | some op, some (.l f) => [encodeFields (BitVec.ofNat 10 op) (.l f), f.lit]
  | some op, some f => [encodeFields (BitVec.ofNat 10 op) f]
  | _, _ => []

/-- The instruction whose words hold the bits `w`, the first word in the low 64 bits; `nbits` bits are
given and those above are zero. -/
def decodeTableWord (nbits w : Nat) : Option Instr :=
  let v := w % 2 ^ nbits
  match decodeWord (BitVec.ofNat 64 v) (BitVec.ofNat 64 (v / 2 ^ 64)) with
  | .ok i => some i
  | .error _ => none

end Sys2Proof
end

