-- ==== Sys2Proof/Machine/Block.lean ====
section
/-!
DEFINITION. Block images (R99 to R102), their validation (R114 to R116) and the counts that binding
reads: fill counts, ports named, links named, register targets.
-/

namespace Sys2Proof.Machine

/-- A block image: the 128-bit header and the instruction words (R99). -/
structure Block where
  hdr : BitVec 128
  words : List Word
  deriving DecidableEq, Repr, Inhabited

/-- Bits [hi:lo] of the header. -/
def Block.field (b : Block) (hi lo : Nat) : Nat := Machine.field b.hdr.toNat hi lo

/-- LAST (Table 4-1). -/
def Block.last (b : Block) : Nat := b.field 16 10

/-- KIND: 0 sequencer, 1 actor, 2 configuration. -/
def Block.kind (b : Block) : Nat := b.field 9 8

/-- The CRC of the words (R102). -/
def wordsCrc (ws : List Word) : Nat := crc32c (ws.flatMap fun w => natBytes 8 w.toNat)

/-- The slots of a block with their words and the instructions their fields name, literal slots left out
(R111). -/
def slotsFrom : Nat → List Word → List (Nat × Word × Option Instr)
  | _, [] => []
  | n, [w] => [(n, w, readWord w 0)]
  | n, w :: l :: r =>
    if opBits w = 0x088 then (n, w, readWord w l) :: slotsFrom (n + 2) r
    else (n, w, readWord w l) :: slotsFrom (n + 1) (l :: r)

/-- The slots of a block. -/
def Block.slots (b : Block) : List (Nat × Word × Option Instr) := slotsFrom 0 b.words

/-- The instructions of a block with their slots. DESIGN CHOICE (log entry 61): a word with an unassigned opcode is none, so that
its bits count neither as fills nor as register writes (R101). -/
def Block.instrs (b : Block) : List (Nat × Instr) :=
  b.slots.filterMap fun s => s.2.2.map fun i => (s.1, i)

/-- The instruction of one slot. -/
def Block.instrAt (b : Block) (slot : Nat) : Option Instr :=
  (b.instrs.find? fun p => p.1 = slot).map Prod.snd

/-- The slots that hold literals. -/
def Block.literalSlots (b : Block) : List Nat :=
  b.slots.filterMap fun s => if opBits s.2.1 = 0x088 then some (s.1 + 1) else none

/-- The seven branch instructions (R101). -/
def isBranch (i : Instr) : Bool :=
  match opcodeOf i with
  | some op => (0x280 ≤ op && op ≤ 0x284) || op = 0x289 || op = 0x28A
  | none => false

/-- The common fields of an instruction; all zero for an event. -/
def commonFields (i : Instr) : Common :=
  match fieldsOf i with
  | some f => commonOf f
  | none => ⟨0, 0, none, none, 0, 0, 0⟩

/-- The entry of an instruction. -/
def shapeIn (i : Instr) : Shape :=
  match opcodeOf i with
  | some op => shapeOf op
  | none => { types := 0 }

/-- An atomic of Table 6-10. -/
def isAtomic (i : Instr) : Bool :=
  match opcodeOf i with
  | some op => 0x200 ≤ op && op ≤ 0x209
  | none => false

/-- A store, STS or SCAT. -/
def isStore (i : Instr) : Bool :=
  match opcodeOf i with
  | some op => op = 0x1C3 || op = 0x1C4 || op = 0x1C6
  | none => false

/-- An atomic with a target (R162). -/
def isEager (i : Instr) : Bool :=
  isAtomic i && !(tgtNone (commonFields i).t1 && tgtNone (commonFields i).t2)

/-- Store-class outputs (R101). -/
def isStoreClass (i : Instr) : Bool := isStore i || (isAtomic i && !isEager i)

/-- Whether operand C is read: by entry, and for the memory instructions by form (R180, R186). -/
def readsC (i : Instr) : Bool :=
  match i, fieldsOf i with
  | .atcas _, _ => true
  | .gath f, _ => f.mod.toNat < 8
  | .scat f, _ => f.mod.toNat < 8
  | _, some (.m f) => isAtomic i && f.mod.toNat < 8
  | _, _ => (shapeIn i).c

/-- Whether the operand position `p` (0 a, 1 b, 2 c, 3 p) is read from the slot's own buffer. -/
def readsBuf (i : Instr) (p : Nat) : Bool :=
  let c := commonFields i
  match p with
  | 0 => c.a == some 0 && (shapeIn i).a ≠ sNo
  | 1 => c.b == some 0 && (shapeIn i).b ≠ sNo
  | 2 => readsC i
  | _ => c.pred = 1 || c.pred = 2

/-- The target fields of an instruction that are not none. -/
def targetsOf (i : Instr) : List Nat :=
  let c := commonFields i
  [c.t1, c.t2].filter fun t => !tgtNone t

/-- An output of a block (R118). -/
def isOutput (i : Instr) : Bool := (shapeIn i).effect || (targetsOf i).any fun t => t / 128 ≥ 5

/-- Fill count of a port: targets of kind 6 and WFIL that name it (R101). -/
def Block.fillCount (b : Block) (port : Nat) : Nat :=
  (b.instrs.map fun s =>
    ((targetsOf s.2).filter fun t => t = 6 * 128 + port).length +
      (match s.2 with | .wfil f => if f.port.toNat = port then 1 else 0 | _ => 0)).sum

/-- Whether some target names register `n`. -/
def Block.writesReg (b : Block) (n : Nat) : Bool :=
  b.instrs.any fun s => (targetsOf s.2).any fun t => t = 7 * 128 + n

/-- Store-class outputs of a block. -/
def Block.storeCount (b : Block) : Nat := (b.instrs.filter fun s => isStoreClass s.2).length

/-- The header that R101 and R102 give a list of words of one kind; the summary fields are cut to their
widths. -/
def headerOf (kind : Nat) (ws : List Word) : BitVec 128 :=
  let b : Block := ⟨0, ws⟩
  let outs : Nat :=
    if kind = 1 then ((List.range 16).map fun p => (b.fillCount p % 16) <<< (4 * p)).sum
    else if kind = 0 then ((List.range 64).map fun n => if b.writesReg n then 2 ^ n else 0).sum
    else 0
  let hmask : Nat :=
    if kind = 1 then ((List.range 8).map fun n => if b.writesReg n then 2 ^ n else 0).sum else 0
  let branch := if b.instrs.any (fun s => isBranch s.2) then 1 else 0
  BitVec.ofNat 128 (0xB7 + kind <<< 8 + ((ws.length - 1) % 128) <<< 10 + branch <<< 17 +
    (b.storeCount % 32) <<< 19 + hmask <<< 24 + outs <<< 32 + wordsCrc ws <<< 96)

/-- The summary check 0x04: every summary field as R101 counts it, and no count beyond its field. -/
def Block.summaryOk (b : Block) : Bool :=
  let h := headerOf b.kind b.words
  Machine.field h.toNat 95 19 == b.field 95 19 && Machine.field h.toNat 17 17 == b.field 17 17 &&
    (List.range 16).all (fun p => b.fillCount p < 16 || b.kind ≠ 1) && b.storeCount < 32 &&
    b.words.length = b.last + 1

/-- The header checks 0x01 to 0x05 in order (R116); `pe` tells the PE store from the sequencer's. -/
def Block.headerFail (b : Block) (pe : Bool) : Option Nat :=
  if b.field 7 0 ≠ 0xB7 then some 0x01
  else if (if pe then b.kind ≠ 1 else b.kind ≠ 0 && b.kind ≠ 2) then some 0x02
  else if wordsCrc b.words ≠ b.field 127 96 then some 0x03
  else if !b.summaryOk then some 0x04
  else if b.field 18 18 ≠ 0 then some 0x05
  else none

/-- Buffers named by targets, as slot · 4 + position, in slot order. -/
def Block.named (b : Block) : List (Nat × Nat) :=
  b.instrs.flatMap fun s =>
    (targetsOf s.2).filterMap fun t =>
      let k := t / 128
      if 1 ≤ k && k ≤ 4 then some (s.1, (t % 128) * 4 + (k - 1)) else none

/-- The target failures of one instruction that read the rest of the block (check 0x0A): a literal slot,
a buffer named twice, an operand its instruction does not read. DESIGN CHOICE (log entry 61): of two targets naming one buffer both
fail, so that the lower slot is reported; a slot with an unassigned opcode reads no operand. -/
def Block.crossTgt (b : Block) (s : Nat × Instr) : Bool :=
  let names := b.named
  (targetsOf s.2).any fun t =>
    let k := t / 128; let key := (t % 128) * 4 + (k - 1)
    1 ≤ k && k ≤ 4 &&
      (b.literalSlots.contains (t % 128) ||
       (names.filter fun n => n.2 = key).length > 1 ||
       (match b.instrAt (t % 128) with
        | some i => !readsBuf i (k - 1)
        | none => true))

/-- The failures 0x0B of one instruction: an operand read from its slot that no target names, or a literal
beyond LAST. -/
def Block.operandFail (b : Block) (s : Nat × Instr) : Bool :=
  (List.range 4).any (fun p => readsBuf s.2 p && !(b.named.any fun n => n.2 = s.1 * 4 + p)) ||
    (match s.2 with | .lit _ => s.1 = b.last | _ => false)

/-- The failures 0x0C of one instruction: a predicated branch, a branch in another kind of block, a second
branch. -/
def Block.branchFail (b : Block) (s : Nat × Instr) : Bool :=
  isBranch s.2 &&
    ((commonFields s.2).pred ≠ 0 || b.kind ≠ 0 ||
      b.instrs.any fun r => isBranch r.2 && r.1 < s.1)

/-- The lowest reason of a slot's failures, if any. -/
def leastOf (l : List Nat) : Option Nat := l.foldl (fun m x => match m with | none => some x | some y => some (min x y)) none

/-- The failure of one slot. -/
def Block.slotFail (b : Block) (s : Nat × Word × Option Instr) : Option Nat :=
  match s.2.2 with
  | none => some 0x06
  | some i =>
    leastOf ((match decodeWord s.2.1 0 with | .error .reserved => [0x05] | _ => []) ++
      wordFails b.kind s.1 b.last i ++
      (if b.crossTgt (s.1, i) then [0x0A] else []) ++
      (if b.operandFail (s.1, i) then [0x0B] else []) ++
      (if b.branchFail (s.1, i) then [0x0C] else []))

/-- TRAP_ADDR of a failure (R116). -/
def failAddr (reason slot opcode : Nat) : Nat := reason + slot <<< 8 + opcode <<< 16

/-- The TRAP_ADDR value of the failure reported for a block, none when it passes (R115, R116). -/
def Block.validate (b : Block) (pe : Bool) : Option Nat :=
  match b.headerFail pe with
  | some r => some (failAddr r 0xFF 0)
  | none =>
    match b.slots.findSome? fun s => (b.slotFail s).map fun r => failAddr r s.1 (opBits s.2.1).toNat with
    | some a => some a
    | none =>
      if b.kind = 0 && !b.instrs.any (fun s => isBranch s.2) then some (failAddr 0x0C 0xFF 0)
      else if !b.instrs.any (fun s => isOutput s.2) then some (failAddr 0x0F 0xFF 0)
      else none

/-- The window instructions and fill targets of a block that name a port. -/
def Block.namesPort (b : Block) (port : Nat) : Bool :=
  b.fillCount port > 0 ||
    b.instrs.any fun s => match fieldsOf s.2 with | some (.w f) => f.port.toNat = port | _ => false

/-- WRD offsets of a block on a port are below its need (R32). -/
def Block.wrdBelow (b : Block) (port need : Nat) : Bool :=
  b.instrs.all fun s => match s.2 with
    | .wrd f => f.port.toNat ≠ port || f.dist.toNat < need
    | _ => true

/-- The window instructions of a block suit a port's direction (R164); WCNT suits either. -/
def Block.directionOk (b : Block) (port : Nat) (out : Bool) : Bool :=
  (!(b.fillCount port > 0) || out) &&
    b.instrs.all fun s => match s.2 with
      | .wrd f => f.port.toNat ≠ port || !out
      | .wrdx f => f.port.toNat ≠ port || !out
      | .wupd f => f.port.toNat ≠ port || !out
      | .wshr f => f.port.toNat ≠ port || !out
      | _ => true

/-- Link reads of a block towards direction `d` (0 N, 1 E, 2 S, 3 W), as slot · 4 + position, in order. -/
def Block.linkReads (b : Block) (d : Nat) : List Nat :=
  b.instrs.flatMap fun s =>
    let c := commonFields s.2
    (if c.a = some (d + 1) && (shapeIn s.2).a ≠ sNo then [s.1 * 4] else []) ++
    (if c.b = some (d + 1) && (shapeIn s.2).b ≠ sNo then [s.1 * 4 + 1] else [])

/-- Link sends of a block towards direction `d`, as slot · 2 + target, in order. -/
def Block.linkSends (b : Block) (d : Nat) : List Nat :=
  b.instrs.flatMap fun s =>
    let c := commonFields s.2
    (if c.t1 = 5 * 128 + d then [s.1 * 2] else []) ++ (if c.t2 = 5 * 128 + d then [s.1 * 2 + 1] else [])

/-- Whether a block uses the link towards direction `d`. -/
def Block.usesLink (b : Block) (d : Nat) : Bool := b.linkReads d ≠ [] || b.linkSends d ≠ []

/-- The PE beyond the link of direction `d` of PE `pe`, when the mesh has it (R17). -/
def neighbour (pe d : Nat) : Option Nat :=
  match d with
  | 0 => if pe < 16 then none else some (pe - 16)
  | 1 => if pe % 16 = 15 then none else some (pe + 1)
  | 2 => if pe ≥ 240 then none else some (pe + 16)
  | _ => if pe % 16 = 0 then none else some (pe - 1)

end Sys2Proof.Machine
end

