-- ==== Sys2Proof/Machine/Sparse.lean ====
section
/-!
DEFINITION. Maps from natural keys, listed by rising key: memory, register files and tables. `sget`
and `sput` treat a default as absent, so that equal maps are equal lists.
-/

namespace Sys2Proof.Machine

/-- The entry at key `i`, if one is listed. -/
def sfind {α : Type} : Sparse α → Nat → Option α
  | [], _ => none
  | (k, v) :: r, i => if i = k then some v else sfind r i

/-- The map with key `i` listed at `v`, in its place by key. -/
def sset {α : Type} : Sparse α → Nat → α → Sparse α
  | [], i, v => [(i, v)]
  | (k, w) :: r, i, v =>
    if i < k then (i, v) :: (k, w) :: r
    else if i = k then (i, v) :: r
    else (k, w) :: sset r i v

/-- The map without key `i`. -/
def sdel {α : Type} (m : Sparse α) (i : Nat) : Sparse α := m.filter fun p => p.1 ≠ i

/-- The value at key `i`, or the default `d`. -/
def sget {α : Type} (d : α) (m : Sparse α) (i : Nat) : α := (sfind m i).getD d

/-- The map whose value at `i` is `v`; the default `d` is not listed. -/
def sput {α : Type} [DecidableEq α] (d : α) (m : Sparse α) (i : Nat) (v : α) : Sparse α :=
  if v = d then sdel m i else sset m i v

/-- The value at key `i` changed by `f`, the default `d` standing for an absent one. -/
def smod {α : Type} (d : α) (m : Sparse α) (i : Nat) (f : α → α) : Sparse α :=
  sset m i (f (sget d m i))

/-- The canonical form: keys strictly rising and no entry equal to the default. -/
abbrev Swf {α : Type} [DecidableEq α] (d : α) (m : Sparse α) : Prop :=
  m.Pairwise (fun a b => a.1 < b.1) ∧ ∀ p ∈ m, p.2 ≠ d

/-- The keys of a map, rising. -/
def skeys {α : Type} (m : Sparse α) : List Nat := m.map Prod.fst

/-- Whether key `i` is listed. -/
def shas {α : Type} (m : Sparse α) (i : Nat) : Bool := (sfind m i).isSome

end Sys2Proof.Machine
end

