-- ==== Sys2Proof/Machine/State.lean ====
section
/-!
DEFINITION. The state of the module: everything that R11 names, and the state of the engines, memories,
scheduler, fabric, recovery, debug and host units that the chapters give. All of it is plain data; a
core, region, context or the like that a map does not list is at its reset value.
-/

namespace Sys2Proof.Machine

/-! ### Blocks in progress -/

/-- A token (R12) with its ember bit (R404). -/
structure Tok where
  bits : Row := 0
  ember : Bool := false
  deriving DecidableEq, Repr, Inhabited

/-- What arrives in an operand buffer: a null (R119) or a token. -/
inductive Arrival where
  | null
  | tok (t : Tok)
  deriving DecidableEq, Repr, Inhabited

/-- One lane of a store or of a deferred atomic, translated (R182, R188). `op` is the atomic's opcode, 0 for
a store; `cls` the page's class; `gath` a SCAT lane. -/
structure MemLane where
  va : Nat
  pa : Nat
  n : Nat
  data : Nat
  cmp : Nat := 0
  op : Nat := 0
  ty : BitVec 4 := 0
  cls : Nat := 0
  gath : Bool := false
  deriving DecidableEq, Repr, Inhabited

/-- What an accumulator write does to its row (R175). -/
inductive AccOp where
  | write
  | add (mode : Nat)
  | patch (kind mode mask : Nat)
  | clear (count : Nat)
  deriving DecidableEq, Repr, Inhabited

/-- An effect buffered to commit or to the end of a sequencer block (R24, R161, R197). -/
inductive Effect where
  | upd (port off : Nat) (row : Tok)
  | fill (port : Nat) (row : Tok)
  | shrink (port n : Nat)
  | held (n : Nat) (row : Tok)
  | greg (n : Nat) (row : Tok)
  | mtk (num : Nat) (v : Tok)
  | acc (row : Nat) (op : AccOp) (val : Tok)
  | store (lanes : List MemLane) (val : Bool)
  | arrive (bar : Nat)
  deriving DecidableEq, Repr, Inhabited

/-- A wait of an instruction that has been offered to issue (R23, R193, R194, R207, R225, R230). -/
inductive Wait where
  | row (off : Nat)
  | slot (chan : Nat)
  | bar (b : Nat) (phase : Bool)
  | count (limits : Nat)
  | event (mask time : Nat)
  | queue
  | drain
  deriving DecidableEq, Repr, Inhabited

/-- The choice of a sequencer block's branch (Table 7-1); `null` is a squashed branch (R121). -/
inductive Choice where
  | goto (x : Nat)
  | call (x : Nat)
  | ret
  | rft (x : Option Nat)
  | halt
  | null
  deriving DecidableEq, Repr, Inhabited

/-- What a firing reads as it stood at its start (R33, R166, R175, R201): F and head of its ports' windows,
accumulator rows, g registers and control registers. -/
structure Snap where
  f0 : Sparse Nat := []
  head0 : Sparse Nat := []
  acc : Sparse Tok := []
  g : Sparse Word := []
  ctl : Sparse Word := []
  deriving DecidableEq, Repr, Inhabited

/-- A block in progress: operand buffers by slot · 4 + position, the executed mask, waits, the effect list in
slot order, flags raised, the timestamp, and the choice of the branch (R18, R19). `acted` tells that
something has acted at execution (R403); `spoiled` that all it has produced carries the ember bit (R27); `fences` holds, by slot,
the first number given after a fence was offered (R191). -/
structure Exec where
  id : Nat := 0
  block : Nat := 0
  bufs : Sparse Arrival := []
  done : List Nat := []
  waits : List (Nat × Wait) := []
  queued : List Nat := []
  inflight : List Nat := []
  effects : List (Nat × Effect) := []
  flags : Fpx := 0
  tstamp : Option Word := none
  acted : Bool := false
  choice : Option Choice := none
  soft : Option (Nat × Nat) := none
  snap : Snap := {}
  lines : List Nat := []
  serial : Bool := false
  spoiled : Bool := false
  stepOver : Option Nat := none
  fences : Sparse Nat := []
  deriving DecidableEq, Repr, Inhabited

/-- Where a firing stands (Table 1-3); a running firing with a wait is waiting. -/
inductive Phase where
  | running
  | committing
  | trapped
  deriving DecidableEq, Repr, Inhabited

/-- What returns a trapped firing to pinned (R27, R453). -/
inductive Release where
  | rft
  | restore
  | wrest
  | deadlock
  deriving DecidableEq, Repr, Inhabited

/-- A firing in progress. -/
structure Firing where
  exec : Exec
  phase : Phase := .running
  pinned : Bool := false
  release : Release := .rft
  deriving DecidableEq, Repr, Inhabited

/-- The state of an actor (R40, R42, R43, R316, R377): held registers, FPX, FIRING_CNT, age, its firing, the holds on it (an
unreturned trap, a tier miss, the accumulator row it was aborted for), the contribution of its last commit, and the fence its next
firing waits for (R191). -/
structure Actor where
  held : Sparse Row := []
  fpx : Fpx := 0
  count : Word := 0
  age : Nat := 0
  firing : Option Firing := none
  trapHeld : Bool := false
  missPage : Option Nat := none
  deadHeld : Bool := false
  accWait : Option Nat := none
  joined : Option Word := none
  fence : Option Nat := none
  stepOver : Option Nat := none
  deriving DecidableEq, Repr, Inhabited

/-! ### Traps and the sequencer -/

/-- The source of a trap (Table 17-3). -/
inductive Source where
  | actor (at_ : Nat) (pinned : Bool)
  | block
  | soft
  | engine
  deriving DecidableEq, Repr, Inhabited

/-- A trap on its way to the sequencer: the values of the trap registers (R204, R397), WP_INFO for a WATCH (R429), its source, and
for a strike the engine and command, or the context, connection and slice, that wait on its RFT (R430); `noStep` when a WPSET has
cancelled its step-over; `cycle` is that in which it arrived (R205). -/
structure Trap where
  code : Nat
  async : Bool := false
  slot : Nat := 0
  lane : Nat := 0
  op : Nat := 0
  addr : Nat := 0
  pe : Nat := 0
  src : Source := .engine
  info : Option Word := none
  holder : Option (Nat × Eng × Nat) := none
  conn : Option (Nat × Nat × Nat) := none
  dead : List (Nat × Nat) := []
  noStep : Bool := false
  cycle : Nat := 0
  deriving DecidableEq, Repr, Inhabited

/-- A call-stack entry: its tag and its return block, none for halt (R199, Table 7-4). -/
structure Entry where
  trap : Bool
  ret : Option Nat
  deriving DecidableEq, Repr, Inhabited

/-- Where a sequencer stands: no group, between two blocks (none: about to halt), waiting for a block to be
read from the image, running a block, halted, or waiting on the Kiln before a boundary (R197, R200, R311, R318, R399). -/
inductive SeqPhase where
  | off
  | boundary (next : Option Nat)
  | fetch (b : Nat)
  | run
  | halted
  | kiln (next : Option Nat)
  deriving DecidableEq, Repr, Inhabited

/-- A sequencer (R39 to R43, R52, Table 1-7): `stack` newest first, `spilled` the entries in the carve-out, `ovf` the number of
those in memory at STACK_OVF; `loader` names the branch that chose the next block, as TRAP_SLOT and TRAP_OP do, 0xFFFF and 0 where
none did (R116). -/
structure Seqr where
  g : Sparse Word := []
  stack : List Entry := []
  spilled : List Entry := []
  ovf : Nat := 0
  phase : SeqPhase := .off
  exec : Option Exec := none
  fpx : Fpx := 0
  count : Word := 0
  ctl : Sparse Word := []
  pending : List Trap := []
  serving : Option Trap := none
  phases : Sparse Bool := []
  resident : List Nat := []
  stepOver : Option (Nat × Nat) := none
  loader : Nat × Nat := (0xFFFF, 0)
  deriving DecidableEq, Repr, Inhabited

/-- OUTSTANDING (Table 1-9). -/
structure Counts where
  ld : Nat := 0
  st : Nat := 0
  cp : Nat := 0
  mx : Nat := 0
  deriving DecidableEq, Repr, Inhabited

/-! ### Configuration planes -/

/-- A window's configuration (R30, R212): identities as CWIN gave them (Table 6-5); `landing` marks a landing window of an
output (true) or input (false) port (R213). -/
structure WinCfg where
  base : Nat
  cap : Nat
  filler : Nat
  reader : Nat
  landing : Option Bool := none
  deriving DecidableEq, Repr, Inhabited

/-- A port's binding (R213); `need` is make for an output port. -/
structure PortCfg where
  win : Nat
  out : Bool
  need : Nat
  deriving DecidableEq, Repr, Inhabited

/-- An actor's binding (R214); `links` is its link set. -/
structure ActorCfg where
  block : Nat
  store : Nat
  links : Option Nat
  urgent : Bool
  deriving DecidableEq, Repr, Inhabited

/-- The local end of a route (R217): kind 0 landing window, 1 operator input, 2 operator output. -/
structure EndCfg where
  kind : Nat
  obj : Nat
  inp : Nat
  depth : Nat
  deriving DecidableEq, Repr, Inhabited

/-- A router operator, counter chain, loop generator or corner turn, by the opcode that configures it, with
its operands (R218 to R222). -/
structure OperCfg where
  op : Nat
  arg : Nat
  a : Row
  b : Row
  deriving DecidableEq, Repr, Inhabited

/-- A tensor descriptor, bits 0 to 511 and 512 to 1,023 (Table 7-10). -/
structure Desc where
  lo : Row
  hi : Row
  deriving DecidableEq, Repr, Inhabited

/-- A full configuration (R209). Ports are keyed by (PE · 4 + actor) · 16 + port, actors by PE · 4 + index,
route ends by route · 2 + END. -/
structure Plane where
  wins : Sparse WinCfg := []
  ports : Sparse PortCfg := []
  actors : Sparse ActorCfg := []
  ends : Sparse EndCfg := []
  opers : Sparse OperCfg := []
  rect : Nat × Nat × Nat × Nat := (0, 0, 0, 0)
  patchLog : Option Nat := none
  bars : Sparse Nat := []
  descs : Sparse Desc := []
  deriving DecidableEq, Repr, Inhabited

/-- The kindling plane's state (Table 7-6). -/
inductive Kindling where
  | empty
  | program
  | bind
  deriving DecidableEq, Repr, Inhabited

/-- A group on a core: what its bind record and directory entry give it, and its block table (R196, R306).
`filled` and `refused` tell how a BIND plane's filling ended (R311). -/
structure Group where
  record : Nat
  context : Nat
  region : Nat
  group : Nat
  stage : Nat
  gang : Nat
  slice : Nat
  decl : Bool
  stack : Nat
  blocks : List Block
  rows : List (Nat × List Row)
  filled : Bool := false
  refused : Bool := false
  restored : Bool := false
  deriving DecidableEq, Repr, Inhabited

/-! ### Windows, rows, matrix state -/

/-- A window (Table 1-4): filled rows, head, filled rows not yet released with the unit each waits for
(R371), and control tokens by the rows ahead of each (R255). -/
structure Win where
  f : Nat := 0
  head : Nat := 0
  unrel : List (Nat × Nat) := []
  ctl : List (Nat × Nat) := []
  deriving DecidableEq, Repr, Inhabited

/-- A tile group (R44, R242, R243): MX_SAT, MX_NAN, MX_BSO, their thresholds and crossed bits; `fired` marks the counters whose
trap has been raised since their threshold was set. -/
structure Tile where
  sat : Nat := 0
  nan : Nat := 0
  bso : Nat := 0
  thr : Nat × Nat × Nat := (0, 0, 0)
  crossed : Nat := 0
  fired : Nat := 0
  deriving DecidableEq, Repr, Inhabited

/-- A line read that an engine has in hand: the run or record it serves (R334), its address and bytes, and the row that had it
read (R436). -/
structure Landed where
  row : Nat
  va : Nat
  data : Tok
  own : Nat := 0
  deriving DecidableEq, Repr, Inhabited

/-- A strike of an engine's command that waits for its skid (R428, R436, R437): `ahead` reports come before its own, which stops
the command; `others` are the watchpoints of other cores struck with it: core, watchpoint, address. -/
structure Strike where
  wp : Nat
  kind : Nat
  addr : Nat
  skid : Nat
  wcore : Nat
  ahead : Nat := 0
  others : List (Nat × Nat × Nat) := []
  stopped : Bool := false
  raised : Bool := false
  deriving DecidableEq, Repr, Inhabited

/-- A command of the matrix queue: MXRUN or chained half (kind 0), MXLDW (1), MXTHR (2), MXSTAT (3) or MXPEEK (4); its fields,
the set it reads, the rectangle it runs on, the block and slot that a value goes to, and how far it has run; `block` numbers the
sequencer block that issued it (R390). -/
structure MxCmd where
  id : Nat
  kind : Nat
  op : Nat
  a : Row
  mod : Nat
  flags : Nat
  ty : BitVec 4
  win : Nat
  desc : Desc
  set : Nat
  rect : Nat × Nat × Nat × Nat := (0, 0, 0, 0)
  exec : Nat := 0
  slot : Nat := 0
  chain : Option Nat := none
  ready : Bool := true
  loaded : Bool := false
  admitted : Nat := 0
  written : Nat := 0
  arr : List (Nat × List Tok) := []
  landed : List Landed := []
  unreported : Nat := 0
  strike : Option Strike := none
  block : Nat := 0
  deriving DecidableEq, Repr, Inhabited

/-- The matrix region of a core: accumulator rows, weight sets keyed by set · 65,536 + word, tile groups, the
selection of MXSEL and the queue (R44, R46, R230, R237). -/
structure Matrix where
  acc : Sparse Tok := []
  ws : Sparse Word := []
  wsEmber : List Nat := []
  tiles : Sparse Tile := []
  sel : Nat := 0
  queue : List MxCmd := []
  deriving DecidableEq, Repr, Inhabited

/-! ### Memory path -/

/-- A translation held in a core's cache or a stream entry, with the counts gathered for its page (R294,
R297). -/
structure Trans where
  ctx : Nat
  va : Nat
  size : Nat
  pa : Nat
  leaf : Nat
  attr : Nat
  reads : Nat := 0
  writes : Nat := 0
  remote : Nat := 0
  deriving DecidableEq, Repr, Inhabited

/-- What a request does (R181, R187, R182). -/
inductive ReqKind where
  | load
  | load2
  | scalar
  | gather
  | eager
  | store
  | deferred
  deriving DecidableEq, Repr, Inhabited

/-- One lane of a request: lane number, address, width, data, compare value; its physical address and page
class once translated, `page` the base of its page then (R188), `bad` when its walk faulted, `early` the misalignment or strike found
at issue; the value read once performed. -/
structure ReqLane where
  idx : Nat
  va : Nat
  n : Nat
  data : Nat := 0
  cmp : Nat := 0
  pa : Option (Nat × Nat) := none
  page : Nat := 0
  bad : Bool := false
  early : Option (Nat × Nat × List (Nat × Nat)) := none
  got : Option Tok := none
  deriving DecidableEq, Repr, Inhabited

/-- A request of a core's PEs or sequencer, from its issue until its result is delivered. `exec` is the block in
progress that issued it; `chan` the request channel whose slot it holds. -/
structure Req where
  id : Nat
  who : Agent
  exec : Nat
  slot : Nat
  op : Nat
  ty : BitVec 4
  kind : ReqKind
  chan : Option Nat := none
  lanes : List ReqLane := []
  val : Bool := false
  deriving DecidableEq, Repr, Inhabited

/-- A store unit (R364): its stamp (cycle, then agent), its lanes, the lines whose part has arrived, and how far it has gone. `whos`
are its agents, all members of a link set; `ops` counts its instructions; `key` is the timestamped firing's key (R377); `block`
numbers the sequencer block that handed it over, 0 for a firing's (R390); `packets` counts its packets, one store credit each
(R352). -/
structure StoreUnit where
  id : Nat
  cycle : Nat
  core : Nat
  pe : Nat
  whos : List Agent
  region : Nat
  lanes : List MemLane
  sent : Bool := false
  arrived : List Nat := []
  performed : Bool := false
  ops : Nat := 0
  key : Option (Nat × Nat × Nat) := none
  block : Nat := 0
  packets : Nat := 0
  deriving DecidableEq, Repr, Inhabited

/-- An instruction that has asked for a slot of a request channel: its block in progress and slot, and the cycle of its asking
(R358). -/
structure Asker where
  chan : Nat
  who : Agent
  slot : Nat
  exec : Nat
  cycle : Nat := 0
  deriving DecidableEq, Repr, Inhabited

/-- The source of a tier miss (Table 9-8). -/
inductive MissSrc where
  | gen (i : Nat)
  | actor (at_ : Nat)
  | seq
  deriving DecidableEq, Repr, Inhabited

/-- A pending tier miss (R299). -/
structure Miss where
  page : Nat
  delegated : Bool
  srcs : List MissSrc
  deriving DecidableEq, Repr, Inhabited

/-- A fault with the Kiln: what it would resume and the trap it would deliver; `push` is a fault met while a trap was being
delivered, whose trap cannot be delivered if it stays (R204, R399). -/
structure KilnFault where
  trap : Trap
  gen : Option Nat := none
  actor : Option Nat := none
  push : Bool := false
  deriving DecidableEq, Repr, Inhabited

/-! ### Engines -/

/-- Why a generator is parked (R48, R259). -/
structure Park where
  tier : Bool
  va : Nat
  delegated : Bool
  deriving DecidableEq, Repr, Inhabited

/-- A command of a generator: opcode, fields, the descriptor and operands as read at execution, passes (0 repeats),
its place in the order of entry, its chained half, and the sequencer block that issued it (R230, R249, R256, R257, R390). -/
structure GenCmd where
  op : Nat
  desc : Desc
  win : Nat
  flags : Nat
  a : Row
  b : Row
  order : Nat
  passes : Nat := 1
  chain : Option Nat := none
  block : Nat := 0
  deriving DecidableEq, Repr, Inhabited

/-- An address generator (R48, R245, R294): queue, running command, next row, lines landed, lines written by row, stream entry,
park, strike; `stopped` when STRX has stopped it. -/
structure Gen where
  queue : List GenCmd := []
  cur : Option GenCmd := none
  row : Nat := 0
  landed : List Landed := []
  wrote : List (Nat × Nat) := []
  entry : Option Trans := none
  park : Option Park := none
  unreported : Nat := 0
  strike : Option Strike := none
  stopped : Bool := false
  deriving DecidableEq, Repr, Inhabited

/-- A window image in transfer by WSAVE or WREST (R168 to R171). -/
structure Image where
  id : Nat
  save : Bool
  win : Nat
  va : Nat
  rows : List Tok
  total : Nat
  pos : Nat := 0
  failed : Bool := false
  unreported : Nat := 0
  strike : Option Strike := none
  block : Nat := 0
  deriving DecidableEq, Repr, Inhabited

/-- A command of the tier and network queue (R260 to R267): its number, opcode, rows it moves in all, operands, rows landed, sent,
acknowledged. -/
structure NetCmd where
  id : Nat
  op : Nat
  total : Nat
  ty : BitVec 4
  flags : Nat
  win : Nat
  desc : Desc
  a : Row
  b : Row
  running : Bool := false
  sent : Nat := 0
  acked : Nat := 0
  ended : Bool := false
  landed : List Landed := []
  unreported : Nat := 0
  strike : Option Strike := none
  block : Nat := 0
  deriving DecidableEq, Repr, Inhabited

/-- A byte that a sequencer block has stored while a command of the same block is unfinished, as it stood before: the command never
sees the store (R233, R390). -/
structure Hidden where
  block : Nat
  pa : Nat
  old : Byte
  deriving DecidableEq, Repr, Inhabited

/-- The engines of a core. -/
structure Engines where
  gens : Sparse Gen := []
  images : List Image := []
  net : List NetCmd := []
  order : Nat := 0
  strws : List (Nat × Nat) := []
  strm : Nat := 0
  tierEv : Bool := false
  hidden : List Hidden := []
  deriving DecidableEq, Repr, Inhabited

/-! ### Fabric -/

/-- A circuit beat (Table 13-1). -/
structure Beat where
  tag : Nat
  tok : Tok
  deriving DecidableEq, Repr, Inhabited

/-- The ends of a route on a core: the outbound buffer and the receive buffer (R346, R347), and the beats sent that still cross die
edges, each with the number of edges that it has crossed; the entries of the receive buffer that hold a beat or wait for one are
the credits in use. -/
structure RouteEnd where
  out : List Beat := []
  recv : List Beat := []
  air : List (Nat × Beat) := []
  deriving DecidableEq, Repr, Inhabited

/-- An operator's state (R219 to R222): phase, held token, tokens held by a corner turn, iteration counters, control
tokens still to emit, credits taken and index tokens emitted. -/
structure Oper where
  phase : Nat := 0
  held : Option Tok := none
  buf : List Tok := []
  ix : List Nat := []
  bound : Row := 0
  eods : List Nat := []
  started : Bool := false
  credit : Nat := 0
  sent : Nat := 0
  stuck : Bool := false
  deriving DecidableEq, Repr, Inhabited

/-! ### Debug and checking -/

/-- A watchpoint unit (R51, R268): KIND, descriptor, operands A and B of the WPSET. -/
structure Watch where
  range : Bool
  desc : Desc
  a : Row
  b : Row
  deriving DecidableEq, Repr, Inhabited

/-- A channel's counters (R275, R435). -/
structure Prof where
  chan : Nat
  running : Bool
  full : Nat := 0
  empty : Nat := 0
  moving : Nat := 0
  moved : Bool := false
  deriving DecidableEq, Repr, Inhabited

/-- An armed injection (R273). -/
structure Inject where
  pe : Nat
  cls : Nat
  lane : Nat
  bit : Nat
  deriving DecidableEq, Repr, Inhabited

/-- A remote strike not yet raised (R437): the arrival that made it, its slice and cycle. -/
structure RemoteStrike where
  strike : Strike
  ctx : Nat
  conn : Nat
  req : Nat
  slice : Nat
  cycle : Nat := 0
  deriving DecidableEq, Repr, Inhabited

/-- The debug state of a core. -/
structure Debug where
  wps : Sparse Watch := []
  hit : BitVec 8 := 0
  prof : List Prof := []
  finj : List Inject := []
  retired : Word := 0
  patches : Word := 0
  stop : Option Word := none
  frozen : Bool := false
  gating : Bool := false
  skid : List (Nat × Nat) := []
  remote : List RemoteStrike := []
  deriving DecidableEq, Repr, Inhabited

/-- A barrier (R50). -/
structure Bar where
  arrived : Nat := 0
  phase : Bool := false
  deriving DecidableEq, Repr, Inhabited

/-- A core (R11, R15, R277): `picks` holds the member that a PE has picked of a link set (R317), `barWait` the arrivals of commits
by the unit they wait for (R193), `slotBack` the request channels to which a slot has returned with its cycle (R357), `commitAt` the
cycle and the place of the latest commit (R432); `marking` tells that a pre-emption marker is on its way to it and `saving` that it
has come (R410), `gangHold` the gang whose next instant the idle core waits for (R324). -/
structure Core where
  site : Option Nat := none
  lastRegion : Nat := 0
  group : Option Group := none
  incoming : Option Group := none
  bindExec : Option Exec := none
  plane : Plane := {}
  kindling : Kindling := .empty
  kplane : Plane := {}
  seq : Seqr := {}
  counts : Counts := {}
  actors : Sparse Actor := []
  ptrU : Sparse Nat := []
  ptrN : Sparse Nat := []
  picks : Sparse Nat := []
  barWait : List (Nat × Nat) := []
  wins : Sparse Win := []
  rows : Sparse Tok := []
  mx : Matrix := {}
  eng : Engines := {}
  bars : Sparse Bar := []
  tlb : List Trans := []
  askers : List Asker := []
  slotBack : List (Nat × Nat) := []
  commitAt : Nat × Nat := (0, 0)
  misses : List Miss := []
  missWait : List Miss := []
  faults : List KilnFault := []
  credits : Nat := 256
  ends : Sparse RouteEnd := []
  opers : Sparse Oper := []
  dbg : Debug := {}
  passed : List Nat := []
  marking : Bool := false
  saving : Bool := false
  cutDone : Bool := false
  gangHold : Option Nat := none
  deriving DecidableEq, Repr, Inhabited

/-! ### Regions, contexts, module units -/

/-- An entry of a region's input log (R433): a write (`op` 0) or atomic within one line, and the number of the region's own
accesses to the line before it; `kept` tells that the line's old value already stood in the undo log, so that a rollback takes the
arrival back. -/
structure Logged where
  conn : Nat
  seq : Nat
  va : Nat
  n : Nat
  op : Nat
  ty : BitVec 4
  data : Nat
  cmp : Nat
  before : Nat
  kept : Bool := false
  deriving DecidableEq, Repr, Inhabited

/-- A region: what its launch set (R301, Table 21-1), HORIZON (R378), its snapshot interval with the last complete cut and logs
(R409 to R413, R433), the core images of its pre-empted groups by group (R323), its detector (R416) and its stop (R400). `past`
keeps the values that lines held since the start token (R375); `paths` the paths of its routes (R343); `turn` the gang slice whose
turn has come (R321); `drain` since when its cores drain, with the cores whose overrun is reported (R322). -/
structure Region where
  tag : Word := 0
  context : Nat := 0
  image : Nat := 0
  cores : List (Nat × Nat) := []
  tdel : Bool := false
  finj : Bool := false
  dlock : Nat := 65536
  snap : Nat := 0
  report : Nat := 0
  repRows : Nat := 0
  save : Nat := 0
  saveLen : Nat := 0
  pool : List Nat := []
  gang : Nat := 0
  horizon : Word := 0
  horizonAt : Nat := 0
  idle : Nat := 0
  walking : Bool := false
  lastStall : List Row := []
  sites : List Nat := []
  interval : Nat := 0
  cutting : Bool := false
  saved : Sparse Core := []
  fresh : Sparse Core := []
  images : Sparse Core := []
  savedImages : Sparse Core := []
  undo : Sparse Tok := []
  lines : Sparse Nat := []
  past : Sparse (List Tok) := []
  inputs : List Logged := []
  rowsIn : List (Nat × Nat × Row) := []
  rowsBack : List (Nat × Nat × Row) := []
  redo : List Logged := []
  commits : List (Nat × Nat) := []
  half : Bool := false
  full : Bool := false
  complete : Bool := false
  rollback : Bool := false
  replay : List (Nat × Nat) := []
  stop : Option (Nat × Trap) := none
  stopped : Bool := false
  frozen : Bool := false
  turn : Option Nat := none
  ready : Bool := false
  missed : Nat := 0
  drain : Nat := 0
  overran : List Nat := []
  paths : List RoutePath := []
  snapAge : Nat := 0
  running : Bool := false
  deriving DecidableEq, Repr, Inhabited

/-- Kinds of message: a row to write, rows asked for, a row to reduce by an operation of R266, the answers to an arrival: done
with its value, refused, refused for want of SA; and the report to its sender that one was lost (R356). -/
inductive MsgKind where
  | write
  | read
  | reduce (op : Nat)
  | done
  | refused
  | scope
  | lost
  deriving DecidableEq, Repr, Inhabited

/-- A message that has left over a connection: what it is, remote address, row or value, count, type (R264 to R266,
R300). -/
structure NetMsg where
  op : MsgKind
  va : Nat
  row : Row
  n : Nat
  ty : BitVec 4 := 15
  deriving DecidableEq, Repr, Inhabited

/-- An NRED row that has come over a connection and whose elements its slice applies one by one (R266, R438): address,
operation, type, elements, the row, its number on the connection, and the elements applied. -/
structure RowIn where
  va : Nat
  op : Nat
  ty : BitVec 4
  n : Nat
  row : Row
  seq : Nat
  next : Nat := 0
  deriving DecidableEq, Repr, Inhabited

/-- A connection of a context (R263, R441, R447): its peer, what has been sent over it, the sequence numbers of its next request
out and next arrival, the slices that hold its arrivals for a strike (R437), and the NRED rows that it has brought. -/
structure Conn where
  peer : Word
  out : List NetMsg := []
  sseq : Nat := 0
  rseq : Nat := 0
  held : List Nat := []
  rowsIn : List RowIn := []
  deriving DecidableEq, Repr, Inhabited

/-- What the Kiln tells the host beside completion records, whose form is not given (log entry 69): a region's miss of a gang
instant (R321), and the overrun of a core's drain (R322). -/
inductive Notice where
  | missed (tag : Word) (gang instant : Nat)
  | overrun (tag : Word) (core : Nat)
  deriving DecidableEq, Repr, Inhabited

/-- A context record (R287, R297, R442, R447). -/
structure Context where
  isSealed : Bool := false
  build : BitVec 256 := 0
  ckey : Option (BitVec 256) := none
  root : Nat := 0
  ptBase : Nat := 0
  ptNext : Nat := 0
  ptEnd : Nat := 0
  side : Nat := 0
  cmdCap : Nat := 64
  cplCap : Nat := 64
  cmd : List Row := []
  cpl : List Row := []
  cplHeld : List Row := []
  holding : Bool := false
  conns : Sparse Conn := []
  measured : List Row := []
  reports : List (List Byte) := []
  notices : List Notice := []
  deriving DecidableEq, Repr, Inhabited

/-- A page in transit (R261, R262). -/
structure Transit where
  inward : Bool
  ctx : Nat
  page : Nat
  size : Nat
  leaf : Nat
  frame : Nat
  region : Nat
  deriving DecidableEq, Repr, Inhabited

/-- A flit: what it carries and the header of Table 13-2 but for LSEQ, which its link gives, and CRC, which is right unless the
event says otherwise: source (site · 2 + port), destination site, virtual channel (0 REQ, 1 RSP, 2 CFG), SSEQ before wrapping. A
circuit beat on a lane has but what it carries. -/
structure Flit where
  what : LinkUnit
  src : Nat := 0
  dst : Nat := 0
  vc : Nat := 0
  sseq : Nat := 0
  deriving DecidableEq, Repr, Inhabited

/-- The packet network (R349 to R352): the router input buffers by (site · 16 + port) · 4 + virtual channel, the flits landed at
their destinations, the next SSEQ of each source, the routing table entries that differ from the default paths by router · 2,048 +
destination, and for each output the cycle of its latest flit with the cycles in which REQ has lost it since. -/
structure Mesh where
  bufs : Sparse (List Flit) := []
  home : List Flit := []
  sseq : Sparse Nat := []
  tables : Sparse Nat := []
  outs : Sparse (Nat × Nat) := []
  deriving DecidableEq, Repr, Inhabited

/-- An entry of a retry buffer: its LSEQ, the unit, and how often it has been replayed (R353, R354). -/
structure Sent where
  lseq : Nat
  flit : Flit
  replays : Nat := 0
  deriving DecidableEq, Repr, Inhabited

/-- A link's retry state (R353, R354): next LSEQ to give, the retry buffer, the next entry to replay, the receiver's
expected LSEQ, a NAK on its way, cycles without progress. -/
structure Link where
  next : Nat := 0
  buf : List Sent := []
  cursor : Nat := 0
  expect : Nat := 0
  nak : Bool := false
  refusing : Bool := false
  stall : Nat := 0
  dead : Bool := false
  deriving DecidableEq, Repr, Inhabited

/-- The service the module gives (R2, R448, R451). -/
inductive Service where
  | none
  | reduced
  | full
  | dead
  | gated
  deriving DecidableEq, Repr, Inhabited

/-- A die's error-record bank (R405 to R407): entries, drop count, records on their way, counting windows by source (cycle opened,
count), cores declared lasting with the snapshot interval of their region then, the sites of cores retired, and the cache ways of
slice sites disabled. -/
structure Bank where
  entries : Sparse (BitVec 256) := []
  drops : Nat := 0
  coming : List (BitVec 256) := []
  counts : Sparse (Nat × Nat) := []
  lasting : List (Nat × Nat) := []
  gone : List Nat := []
  waysOff : List (Nat × Nat) := []
  deriving DecidableEq, Repr, Inhabited

/-- The units of the module beside its cores: regions, contexts, the slot table (R306), gang entries (R319) with the instants judged
and switched at (R321, R322), die queues (R308), requests and store units on the packet network, the walks asked of each die's
walker in order (R294), tracked ordered-update lines (R380), pages in transit, the packet network, links, units lost, banks, frames
in use, the capacities of the CXL expanders by port and the ports failed, the Kiln's own state and time. -/
structure Units where
  regions : Sparse Region := []
  contexts : Sparse Context := []
  table : Sparse (BitVec 128) := []
  readyRec : List Nat := []
  gangs : Sparse (BitVec 128) := []
  judged : Sparse Nat := []
  switched : Sparse Nat := []
  queues : Sparse (List Nat) := []
  reqs : List Req := []
  stores : List StoreUnit := []
  tracked : Sparse (List (Nat × Nat)) := []
  walks : Sparse (List Walk) := []
  transits : List Transit := []
  mesh : Mesh := {}
  links : Sparse Link := []
  lost : List Flit := []
  paused : Bool := false
  deadLinks : List Nat := []
  banks : Sparse Bank := []
  frames : List (Nat × Nat) := []
  peat : List (Nat × Nat) := []
  expanders : List Nat := []
  failed : List Nat := []
  enabled : List Nat := []
  service : Service := .none
  firmware : Option Row := none
  admin : Option (BitVec 256) := none
  adminOpen : Bool := false
  clock : Nat := 16
  ptp : Word := 0
  frac : Nat := 0
  cycle : Nat := 0
  nextId : Nat := 1
  deriving DecidableEq, Repr, Inhabited

/-- The fabric: the cores, keyed by die · 128 + logical core, and the units. -/
structure Fabric where
  cores : Sparse Core := []
  units : Units := {}
  deriving DecidableEq, Repr, Inhabited

/-- A frame tag (R290). -/
structure FrameTag where
  layout : Bool := false
  isSealed : Bool := false
  owner : Nat := 0
  deriving DecidableEq, Repr, Inhabited

/-- The memories behind physical addresses (R280): HBM and the peat window by byte, an unlisted byte reading zero (log
entry 1); poisoned lines (R404); frame tags by granule (R290). -/
structure Memory where
  cells : List Host.Cell := []
  poison : List Nat := []
  tags : Sparse FrameTag := []
  deriving DecidableEq, Repr, Inhabited

/-- One turn of the machine: a slot of a block is offered to issue, an event happens, or cycles pass (R20; log entry
2). -/
inductive Turn where
  | issue (who : Agent) (slot : Nat)
  | event (i : Instr)
  | elapse (cycles : Nat)
  deriving DecidableEq, Repr, Inhabited

/-- The model's own bookkeeping: turns chosen ahead, the number of the next free turn, the slot whose instruction is
executing, the count of free values drawn, and what the Kiln lays at the end of the next reroute, which nothing constrains (log
entries 2, 5 and 58). -/
structure Run where
  turns : List Turn := []
  draw : Nat := 0
  acting : Option (Agent × Nat) := none
  free : Nat := 0
  plan : Plan := {}
  deriving DecidableEq, Repr, Inhabited

/-- The machine. -/
structure State where
  mem : Memory := {}
  fab : Fabric := {}
  run : Run := {}
  deriving DecidableEq, Repr, Inhabited

/-- Why the machine stops. -/
inductive Fault where
  /-- `step` raises it for a slot whose word has no instruction (R113: such a block never enters a store). Safe: the
  machine stops where the hardware never goes. -/
  | illegalWord
  deriving DecidableEq, Repr, Inhabited

/-- Why the model gives no meaning. -/
inductive Refusal where
  /-- The arm of an instruction without a meaning answers it. Safe: the model says nothing. -/
  | notModelled (mnemonic : String)
  deriving DecidableEq, Repr, Inhabited

/-- The module at power-on, before the boot ROM has run (R448): no service, no context, no region, every core at its
reset values, memory with nothing listed. -/
def State.reset : State := {}

end Sys2Proof.Machine
end

