-- ==== Sys2Proof/Machine/Ops.lean ====
section
/-!
DEFINITION. The shared operations: access to cores and blocks in progress, delivery of results to targets (R104,
R119, R126), squashing (R18, R119), the issue of an instruction, faults and traps (R26, R27, R204, R399, R402),
and machine checks (R403 to R407).
-/

namespace Sys2Proof.Machine

/-! ### Access -/

/-- The core of a key (die · 128 + logical core). -/
def Fabric.core (f : Fabric) (c : Nat) : Core := sget {} f.cores c

/-- The fabric with one core changed. -/
def Fabric.modCore (f : Fabric) (c : Nat) (g : Core → Core) : Fabric :=
  { f with cores := sset f.cores c (g (f.core c)) }

/-- The fabric with its units changed. -/
def Fabric.modUnits (f : Fabric) (g : Units → Units) : Fabric := { f with units := g f.units }

/-- The region of a key. -/
def Fabric.region (f : Fabric) (r : Nat) : Region := sget {} f.units.regions r

/-- The fabric with one region changed. -/
def Fabric.modRegion (f : Fabric) (r : Nat) (g : Region → Region) : Fabric :=
  f.modUnits fun u => { u with regions := smod {} u.regions r g }

/-- The context of a number. -/
def Fabric.context (f : Fabric) (x : Nat) : Context := sget {} f.units.contexts x

/-- The fabric with one context changed. -/
def Fabric.modContext (f : Fabric) (x : Nat) (g : Context → Context) : Fabric :=
  f.modUnits fun u => { u with contexts := smod {} u.contexts x g }

/-- The region whose group is lit on a core; 0 when none is. -/
def Core.regionId (k : Core) : Nat := match k.group with | some g => g.region | none => 0

/-- The context of the group lit on a core; 0 when none is. -/
def Core.contextId (k : Core) : Nat := match k.group with | some g => g.context | none => 0

/-- The core on which a group of a region is lit, and the image of a pre-empted one, changed. -/
def Fabric.modMember (f : Fabric) (reg group : Nat) (g : Core → Core) : Fabric :=
  { f.modRegion reg fun r => { r with images := r.images.map fun p => if p.1 = group then (p.1, g p.2) else p } with
    cores := f.cores.map fun q => if q.2.group.any fun x => x.region = reg && x.group = group then (q.1, g q.2) else q }

/-- The die of a core key. -/
def dieOf (c : Nat) : Nat := c / 128

/-- The machine with its fabric changed: no such step touches memory. -/
def State.onFabric (s : State) (g : Fabric → Fabric) : State := { s with fab := g s.fab }

/-- The next state of a meaning that changes the fabric alone. -/
def fabricStep (g : Fabric → Fabric) (s : State) : Host.Outcome State Fault Refusal := .next (s.onFabric g)

/-- Whether a unit has landed at its destination (R349). -/
def Units.here (u : Units) (x : LinkUnit) : Bool := u.mesh.home.any fun g => g.what = x

/-- How many entries of a link's retry buffer its receiver has accepted: those before its expected LSEQ (R353). -/
def Link.accepted (l : Link) : Nat :=
  match l.buf with
  | [] => 0
  | e :: _ => min l.buf.length ((l.expect + 256 - e.lseq) % 256)

/-- The units that lie in a link's retry buffer and that its receiver has still to accept. -/
def Link.crossing (l : Link) : List Sent := l.buf.drop l.accepted

/-- The units under way or landed: at their destinations, in router buffers, and on links. -/
def Units.flits (u : Units) : List Flit :=
  u.mesh.home ++ (u.mesh.bufs.flatMap Prod.snd) ++ u.links.flatMap fun q => q.2.crossing.map Sent.flit

/-- Whether a unit is under way or has landed. -/
def Units.carries (u : Units) (x : LinkUnit) : Bool := u.flits.any fun g => g.what = x

/-- The units that a test selects taken from those landed. -/
def Fabric.sinkAll (f : Fabric) (p : LinkUnit → Bool) : Fabric :=
  f.modUnits fun u => { u with mesh := { u.mesh with home := u.mesh.home.filter fun g => !p g.what } }

/-- A landed unit taken by what it was sent to. -/
def Fabric.sink (f : Fabric) (x : LinkUnit) : Fabric := f.sinkAll (· = x)

/-- Whether a unit belongs to a request. -/
def LinkUnit.ofReq (x : LinkUnit) (id : Nat) : Bool :=
  match x with
  | .ask n _ => n = id
  | .reply n _ => n = id
  | _ => false

/-- A new number for a block in progress, a request or a unit. -/
def Fabric.fresh (f : Fabric) : Nat × Fabric :=
  (f.units.nextId, f.modUnits fun u => { u with nextId := u.nextId + 1 })

/-- An actor of a core. -/
def Core.actor (k : Core) (a : Nat) : Actor := sget {} k.actors a

/-- The core with one actor changed. -/
def Core.modActor (k : Core) (a : Nat) (g : Actor → Actor) : Core :=
  { k with actors := smod {} k.actors a g }

/-- A window of a core. -/
def Core.win (k : Core) (w : Nat) : Win := sget {} k.wins w

/-- The core with one window changed. -/
def Core.modWin (k : Core) (w : Nat) (g : Win → Win) : Core := { k with wins := smod {} k.wins w g }

/-- The configuration of a window in the active plane. -/
def Core.winCfg (k : Core) (w : Nat) : WinCfg := sget ⟨0, 1, 0, 0, none⟩ k.plane.wins w

/-- Key of a port in a plane. -/
def portKey (a port : Nat) : Nat := a * 16 + port

/-- The binding of a port of an actor in the active plane. -/
def Core.port (k : Core) (a port : Nat) : Option PortCfg := sfind k.plane.ports (portKey a port)

/-- Physical row of offset `o` of a window whose oldest row is at `head` (R30). -/
def rowAt (cfg : WinCfg) (head o : Nat) : Nat := cfg.base + (head + o) % cfg.cap

/-- A physical row of the window store. -/
def Core.row (k : Core) (r : Nat) : Tok := sget {} k.rows r

/-- The core with one physical row written. -/
def Core.setRow (k : Core) (r : Nat) (t : Tok) : Core := { k with rows := sput {} k.rows r t }

/-! ### Window operations (R30, R32, Table 1-5) -/

/-- A row, token or request crossed a channel that PROF counts (R275). -/
def Core.crossed (k : Core) (chan : Nat) : Core :=
  { k with dbg := { k.dbg with prof := k.dbg.prof.map fun p => if p.chan = chan then { p with moved := true } else p } }

/-- One row filled into a window, released to its reader (R371). -/
def Core.fillWin (k : Core) (w : Nat) (t : Tok) : Core :=
  let n := k.win w; let cfg := k.winCfg w
  ((k.setRow (rowAt cfg n.head n.f) t).modWin w fun x => { x with f := x.f + 1 }).crossed w

/-- `n` rows shrunk from a window; the control tokens ahead of which they stood come nearer (R255). -/
def Core.shrinkWin (k : Core) (w n : Nat) : Core :=
  (k.modWin w fun x =>
    { x with
      head := (x.head + n) % (k.winCfg w).cap, f := x.f - n
      ctl := x.ctl.map fun p => (p.1 - n, p.2) }).crossed w

/-- Free rows of a window. -/
def Core.freeRows (k : Core) (w : Nat) : Nat := (k.winCfg w).cap - (k.win w).f

/-- Rows of a window that its reader may use: those filled and released (R371). -/
def Core.readable (k : Core) (w : Nat) : Nat := (k.win w).f - (k.win w).unrel.length

/-- Whether a WREST is rebuilding a window: fills and commits addressed to it wait (R170). -/
def Core.restoring (k : Core) (w : Nat) : Bool := k.eng.images.any fun i => !i.save && i.win = w

/-! ### Blocks in progress -/

/-- The block in progress of an agent; a trapped firing is none. -/
def Core.exec (k : Core) (who : Agent) : Option Exec :=
  match who with
  | .actor _ a => (k.actor a).firing.bind fun g => if g.phase = .trapped then none else some g.exec
  | .seq _ => if k.seq.phase = .run then k.seq.exec else none
  | .bind _ => k.bindExec

/-- Whether an agent's firing is committing: it issues nothing more, but an access that it issued may still fault (R163). -/
def Core.committing (k : Core) (who : Agent) : Bool :=
  match who with
  | .actor _ a => match (k.actor a).firing with | some g => g.phase = .committing | none => false
  | _ => false

/-- The core with an agent's block in progress changed. -/
def Core.modExec (k : Core) (who : Agent) (g : Exec → Exec) : Core :=
  match who with
  | .actor _ a => k.modActor a fun x => { x with firing := x.firing.map fun y => { y with exec := g y.exec } }
  | .seq _ => { k with seq := { k.seq with exec := k.seq.exec.map g } }
  | .bind _ => { k with bindExec := k.bindExec.map g }

/-- The group whose blocks an agent runs. -/
def Core.groupOf (k : Core) (who : Agent) : Option Group :=
  match who with
  | .bind _ => k.incoming
  | _ => k.group

/-- The block that an agent runs. -/
def Core.blockOf (k : Core) (who : Agent) (e : Exec) : Option Block :=
  (k.groupOf who).bind fun g => g.blocks[e.block]?

/-- The list with an entry placed after those of lower or equal slot (R20). -/
def insertSlot (n : Nat) (x : Effect) : List (Nat × Effect) → List (Nat × Effect)
  | [] => [(n, x)]
  | (m, y) :: r => if n < m then (n, x) :: (m, y) :: r else (m, y) :: insertSlot n x r

/-- The block in progress with an effect of a slot buffered. -/
def Exec.addEffect (e : Exec) (slot : Nat) (x : Effect) : Exec :=
  { e with effects := insertSlot slot x e.effects }

/-- The block in progress with a token or null in an operand buffer. -/
def Exec.put (e : Exec) (key : Nat) (v : Arrival) : Exec := { e with bufs := sset e.bufs key v }

/-- The slot counted as executed or squashed (R120), its waits ended and its flags gathered. -/
def Exec.mark (e : Exec) (slot : Nat) (fl : Fpx) : Exec :=
  { e with
    done := if e.done.contains slot then e.done else slot :: e.done
    waits := e.waits.filter fun w => w.1 ≠ slot
    queued := e.queued.filter (· ≠ slot)
    inflight := e.inflight.filter (· ≠ slot)
    flags := e.flags ||| fl }

/-! ### Targets -/

/-- The member of a link set and the buffer that the `n`-th target of a slot reaches over a link (R215). -/
def Core.linkPeer (k : Core) (a slot n d : Nat) : Option (Nat × Nat) := do
  let cfg ← sfind k.plane.actors a
  let set ← cfg.links
  let pe ← neighbour (a / 4) d
  let b ← (k.groupOf (.actor 0 a)).bind fun g => g.blocks[cfg.block]?
  let i := (b.linkSends d).idxOf (slot * 2 + n)
  let m ← (skeys k.plane.actors).find? fun x =>
    x / 4 = pe && ((sfind k.plane.actors x).bind (·.links)) = some set
  let mc ← sfind k.plane.actors m
  let mb ← (k.groupOf (.actor 0 a)).bind fun g => g.blocks[mc.block]?
  let key ← (mb.linkReads ((d + 2) % 4))[i]?
  return (m, key)

/-- One target served (R104, R119, R126): a buffer, a link, a fill or a register. -/
def Core.sendTarget (k : Core) (who : Agent) (slot n t : Nat) (v : Arrival) : Core :=
  match t / 128, v with
  | 0, _ => k
  | 5, v =>
    match who with
    | .actor c a =>
      match k.linkPeer a slot n (t % 4) with
      | some (m, key) => k.modExec (.actor c m) fun e => e.put key v
      | none => k
    | _ => k
  | 6, .tok x => k.modExec who fun e => e.addEffect slot (.fill (t % 128) x)
  | 7, .tok x =>
    k.modExec who fun e =>
      e.addEffect slot (match who with | .actor _ _ => .held (t % 128) x | _ => .greg (t % 128) x)
  | 6, .null => k
  | 7, .null => k
  | kind, v => k.modExec who fun e => e.put ((t % 128) * 4 + (kind - 1)) v

/-- An instruction's completion: its slot marked, its flags gathered, its targets served (R18, R119, R126). -/
def Core.finish (k : Core) (who : Agent) (slot : Nat) (i : Instr) (v1 v2 : Arrival) (fl : Fpx) : Core :=
  let c := commonFields i
  ((k.modExec who fun e => e.mark slot fl).sendTarget who slot 0 c.t1 v1).sendTarget who slot 1 c.t2 v2

/-- A squashed instruction: null on every target, nothing executed; a squashed branch leaves its mark (R119, R121). -/
def Core.squash (k : Core) (who : Agent) (slot : Nat) (i : Instr) : Core :=
  let k := k.finish who slot i .null .null fNone
  if isBranch i then k.modExec who fun e => { e with choice := some .null } else k

/-! ### Issue -/

/-- Whether operand position `p` (0 a, 1 b, 2 c, 3 p) is awaited: from its buffer or over a link (R18). -/
def awaits (i : Instr) (p : Nat) : Bool :=
  let c := commonFields i
  let sh := shapeIn i
  match p with
  | 0 => sh.a ≠ sNo && (match c.a with | some x => x < 5 | none => false)
  | 1 => sh.b ≠ sNo && (match c.b with | some x => x < 5 | none => false)
  | 2 => readsC i
  | _ => c.pred = 1 || c.pred = 2

/-- Operand positions that an instruction awaits. -/
def awaited (i : Instr) : List Nat := (List.range 4).filter (awaits i)

/-- Whether every awaited operand of a slot has arrived (R18). -/
def arrived (e : Exec) (slot : Nat) (i : Instr) : Bool :=
  (awaited i).all fun p => shas e.bufs (slot * 4 + p)

/-- The token in an operand buffer, zero when a null or nothing is there. -/
def gotTok (e : Exec) (slot p : Nat) : Tok :=
  match sfind e.bufs (slot * 4 + p) with
  | some (.tok t) => t
  | _ => {}

/-- Whether an awaited operand is null, or the predicate does not match (R18, R103, R119). -/
def squashes (e : Exec) (slot : Nat) (i : Instr) : Bool :=
  (awaited i).any (fun p => sfind e.bufs (slot * 4 + p) == some .null) ||
    (let nz := elem 64 (gotTok e slot 3).bits 0 ≠ 0
     match (commonFields i).pred with
     | 1 => !nz
     | 2 => nz
     | _ => false)

/-- imm16 of an instruction; zero outside format D. -/
def immOf (i : Instr) : BitVec 16 := match fieldsOf i with | some (.d f) => f.imm | _ => 0

/-- The token that operand position 0 (a), 1 (b) or 2 (c) delivers (R105, R123). -/
def operandTok (e : Exec) (slot : Nat) (i : Instr) (p : Nat) : Row :=
  let c := commonFields i
  let code := match p with | 0 => c.a | 1 => c.b | _ => some 0
  if awaits i p then (gotTok e slot p).bits
  else match code with
    | some 5 => if p = 2 then 0 else immTok (shapeIn i).imm (BitVec.ofNat 4 c.ty) (immOf i)
    | _ => 0

/-- What an instruction executes with: its agent, slot, operands, and whether an operand carries the ember bit
(R404). -/
structure Issue where
  who : Agent
  slot : Nat
  i : Instr
  exec : Exec
  a : Row
  b : Row
  c : Row
  ember : Bool

/-- The operands of a slot gathered. -/
def gather (who : Agent) (slot : Nat) (i : Instr) (e : Exec) : Issue :=
  ⟨who, slot, i, e, operandTok e slot i 0, operandTok e slot i 1, operandTok e slot i 2,
    (awaited i).any fun p => (gotTok e slot p).ember⟩

/-- The waits that hold back, in a sequencer block, what acts at execution (R197). -/
def holdsActions (w : Wait) : Bool :=
  match w with
  | .row _ | .slot _ | .queue => false
  | .bar _ _ | .count _ | .event _ _ | .drain => true

/-- Instructions that act at execution in a sequencer block (R197): accumulator writes, barrier arrivals, eager atomics,
loads, WSAVE, WREST and engine commands. -/
def actsAtExecution (i : Instr) : Bool :=
  match i with
  | .awr _ | .aacc _ | .apatchSet _ | .apatchAdd _ | .apatchScale _ | .aclr _ | .bara _ | .baraw _ => true
  | .ld _ | .ld2 _ | .lds _ | .gath _ => true
  | _ => isEager i || (match fieldsOf i with | some (.e _) => true | _ => false)

/-- Whether a waiting instruction of the sequencer's block holds this one back (R197). -/
def heldBack (who : Agent) (e : Exec) (i : Instr) : Bool :=
  match who with
  | .seq _ => actsAtExecution i && e.waits.any fun w => holdsActions w.2
  | _ => false

/-- Instructions that wait in a sequencer block (R197). -/
def isWaiting (i : Instr) : Bool :=
  match i with
  | .barw _ | .baraw _ | .waitc _ | .evwait _ | .cswap _ => true
  | _ => false

/-- Whether a lower slot's store, SCAT, eager atomic, TSET or fence holds back a memory access of `slot` (R184, R191,
R192): a load waits for them all, an eager atomic for TSETs and fences, any other access for TSETs. Engine commands
of one block enter in slot order and behind an XFENCE (R191, R230). A waiting instruction and what acts at execution go in slot order
(R197, R387, R392; log entry 63). -/
def ordersBefore (low i : Instr) : Bool :=
  let load := match i with | .ld _ | .ld2 _ | .lds _ | .gath _ => true | _ => false
  let memory := match fieldsOf i with | some (.m _) => true | _ => false
  let engine := match fieldsOf i with | some (.e _) => true | _ => false
  (isWaiting low && actsAtExecution i) || (actsAtExecution low && isWaiting i) ||
    match low with
    | .tset _ => memory
    | .fence _ => load || isEager i
    | .xfence _ => load || isEager i || engine
    | _ =>
      (load && (isStore low || isEager low)) ||
        (engine && (match fieldsOf low with | some (.e _) => true | _ => false))

/-- Whether every lower slot that must go first has executed or been squashed, or has entered its engine queue; for a waiting
instruction an access that has been issued is enough. -/
def orderedOk (b : Block) (e : Exec) (slot : Nat) (i : Instr) : Bool :=
  b.instrs.all fun s =>
    !(s.1 < slot && ordersBefore s.2 i) || e.done.contains s.1 || e.queued.contains s.1 ||
      (isWaiting i && e.inflight.contains s.1)

/-- Whether a slot may be offered: not yet executed nor in flight, its operands there, nothing ordered before it (R18, R184,
R197), not waiting. -/
def offered (k : Core) (e : Exec) (slot : Nat) (i : Instr) : Bool :=
  !e.done.contains slot && !e.queued.contains slot && !e.inflight.contains slot && !(e.waits.any fun w => w.1 = slot) &&
    arrived e slot i && !k.dbg.frozen

/-- The issue of the instruction `i` of the slot in `acting`: nothing until it may be offered; squashed when an operand
is null or the predicate does not match; else `go` with its operands, once nothing holds it back. -/
def Fabric.issue (f : Fabric) (acting : Option (Agent × Nat)) (i : Instr) (go : Issue → Fabric → Fabric) : Fabric :=
  match acting with
  | none => f
  | some (who, slot) =>
    let k := f.core who.core
    match k.exec who with
    | none => f
    | some e =>
      if k.committing who || !offered k e slot i then f
      else if squashes e slot i then f.modCore who.core fun k => k.squash who slot i
      else
        match k.blockOf who e with
        | none => f
        | some b => if heldBack who e i || !orderedOk b e slot i then f else go (gather who slot i e) f

/-- The meaning of an instruction that executes in a slot: it changes the fabric alone. -/
def issueStep (i : Instr) (go : Issue → Fabric → Fabric) (s : State) : Host.Outcome State Fault Refusal :=
  .next (s.onFabric fun f => f.issue s.run.acting i go)

/-- A slot completes with one result on both targets. -/
def Issue.result (x : Issue) (v : Row) (fl : Fpx) (f : Fabric) : Fabric :=
  f.modCore x.who.core fun k =>
    k.finish x.who x.slot x.i (.tok ⟨v, x.ember⟩) (.tok ⟨v, x.ember⟩) fl

/-- A slot completes without a result. -/
def Issue.noResult (x : Issue) (f : Fabric) : Fabric :=
  f.modCore x.who.core fun k => k.modExec x.who fun e => e.mark x.slot fNone

/-- A slot completes by buffering an effect (R24, R161). -/
def Issue.buffer (x : Issue) (y : Effect) (f : Fabric) : Fabric :=
  f.modCore x.who.core fun k => k.modExec x.who fun e => (e.addEffect x.slot y).mark x.slot fNone

/-- A slot begins to wait (R22, R23, R197). -/
def Issue.wait (x : Issue) (w : Wait) (f : Fabric) : Fabric :=
  f.modCore x.who.core fun k => k.modExec x.who fun e => { e with waits := (x.slot, w) :: e.waits }

/-! ### Traps -/

/-- CLASS of a cause code (Table 17-2). -/
def classOf (code : Nat) : Nat := code / 16 - 1

/-- Whether a trap saves a pinned firing's partial slot state. -/
def Trap.pinned (t : Trap) : Bool := match t.src with | .actor _ p => p | _ => false

/-- The TRAP_CAUSE value of a trap (Table 17-1). -/
def Trap.cause (t : Trap) : Nat :=
  (if t.async then 2 ^ 13 else 0) + (if t.pinned then 2 ^ 12 else 0) + classOf t.code * 256 + t.code

/-- The HANDLER_FAULT that goes to the Kiln in place of a trap (R204, R205). -/
def Trap.handlerFault (t : Trap) : Trap := { t with code := 0xA0, addr := t.cause, async := false, src := .block }

/-- A trap of an instruction in a slot: TRAP_SLOT, TRAP_PE and TRAP_OP as R42 and R204 give them. -/
def slotTrap (who : Agent) (slot : Nat) (i : Instr) (pin : Bool) (code addr lane : Nat) : Trap :=
  let op := (opcodeOf i).getD 0
  match who with
  | .actor _ a =>
    { code := code, slot := a % 4 * 256 + slot, lane := lane, op := op, addr := addr, pe := a / 4,
      src := .actor a pin }
  | _ => { code := code, slot := 0xFF00 + slot, lane := lane, op := op, addr := addr, pe := 0xFFFF, src := .block }

/-- The place of a trap among those that arrive in one cycle: the sequencer's first, then by PE and actor index, then the engines'
(R205). -/
def Trap.place (t : Trap) : Nat :=
  match t.src with
  | .actor a _ => 1 + a
  | .block | .soft => 0
  | .engine => 1025 + t.pe

/-- A pending trap in its order: of arrival, and in one cycle by place (R205). -/
def insertTrap (t : Trap) : List Trap → List Trap
  | [] => [t]
  | x :: r => if x.cycle = t.cycle && t.place < x.place then t :: x :: r else x :: insertTrap t r

/-- A trap held pending from the present cycle on. -/
def Fabric.pend (f : Fabric) (c : Nat) (t : Trap) : Fabric :=
  f.modCore c fun k => { k with seq := { k.seq with pending := insertTrap { t with cycle := f.units.cycle } k.seq.pending } }

/-- A trap that stops its region: the Kiln has it, and the core acts no further (R399, R400, R431). -/
def Fabric.stopRegion (f : Fabric) (c : Nat) (t : Trap) : Fabric :=
  (f.modRegion (f.core c).regionId fun r => { r with stop := match r.stop with | none => some (c, t) | x => x }).modCore c
    fun k => { k with dbg := { k.dbg with frozen := true } }

/-- A trap on its way to the handler of a core; after HALT it stops the region and stays pending (R200, R399). A user trap raised by
a block that runs while a trap entry is on the stack is a handler fault (R205). -/
def Fabric.postTrap (f : Fabric) (c : Nat) (t : Trap) : Fabric :=
  let k := f.core c
  if k.seq.phase = .halted || k.seq.phase = .off then
    (f.pend c t).stopRegion c t
  else match t.src, k.seq.serving with
    | .block, some _ => f.stopRegion c t.handlerFault
    | .soft, some _ => f.stopRegion c t.handlerFault
    | _, _ => f.pend c t

/-- The members of an actor's link set; itself alone without one (R215). -/
def Core.mates (k : Core) (a : Nat) : List Nat :=
  match (sfind k.plane.actors a).bind (·.links) with
  | none => [a]
  | some n => (skeys k.plane.actors).filter fun x => ((sfind k.plane.actors x).bind (·.links)) = some n

/-- The firing of an actor, and with it its link set's, aborted (R26, R215); nothing else changes. -/
def Core.abort (k : Core) (a : Nat) : Core :=
  (k.mates a).foldl (fun k m => k.modActor m fun x => { x with firing := none, fence := none }) k

/-- A pinned firing trapped with its partial slot state; what waited runs again at resumption (R27). -/
def Core.trapPinned (k : Core) (a : Nat) (how : Release) : Core :=
  k.modActor a fun x =>
    { x with firing := x.firing.map fun y =>
        { y with phase := .trapped, release := how, exec := { y.exec with waits := [] } } }

/-- Whether an actor's firing is pinned. -/
def Core.isPinned (k : Core) (a : Nat) : Bool :=
  match (k.actor a).firing with | some y => y.pinned | none => false

/-- A tier miss that awaits a resolution outside its instruction (R299): it joins its page's entry, takes a free one, or
stays with its source. -/
def Core.tierMiss (k : Core) (page : Nat) (delegated : Bool) (src : MissSrc) : Core :=
  let join (m : Miss) : Miss :=
    if m.page = page && !m.srcs.contains src then { m with srcs := m.srcs ++ [src] } else m
  if k.misses.any fun m => m.page = page then
    { k with misses := k.misses.map join, eng := { k.eng with tierEv := k.eng.tierEv || delegated } }
  else if k.misses.length < 32 then
    { k with misses := k.misses ++ [⟨page, delegated, [src]⟩], eng := { k.eng with tierEv := k.eng.tierEv || delegated } }
  else { k with missWait := k.missWait ++ [⟨page, delegated, [src]⟩] }

/-- Base of the page of an address as the core's translation cache holds it; its granule otherwise. -/
def Core.pageBase (k : Core) (va : Nat) : Nat :=
  match k.tlb.find? fun t => t.ctx = k.contextId && t.va ≤ va && va < t.va + t.size with
  | some t => t.va
  | none => va / 65536 * 65536

/-- Whether TIER_DELEGATE is set for the region lit on a core (R298). -/
def Fabric.delegates (f : Fabric) (c : Nat) : Bool := (f.region (f.core c).regionId).tdel

/-- The sequencer's block in progress abandoned with no g or MTK write applied; it is the next block again (R197,
Table 7-4). -/
def Core.dropBlock (k : Core) : Core :=
  match k.seq.exec with
  | some e => { k with seq := { k.seq with exec := none, phase := .boundary (some e.block) } }
  | none => k

/-- A fault that a trapping firing raises: it is aborted, or trapped with its partial state when pinned; the trap goes to
the handler, to the Kiln first (XLATE, FRAME_MISMATCH), or becomes a tier miss (R26, R27, R398, R399, Table 9-8). -/
def Fabric.firingFault (f : Fabric) (c a : Nat) (t : Trap) : Fabric :=
  let k := f.core c
  if k.isPinned a then
    let t := { t with src := .actor a true }
    let f := f.modCore c fun k => (k.trapPinned a .rft).modActor a fun x => { x with trapHeld := true }
    if t.code = 0x30 || t.code = 0x31 then
      f.modCore c fun k => { k with faults := k.faults ++ [{ trap := t, actor := some a }] }
    else f.postTrap c t
  else
    let f := f.modCore c fun k => k.abort a
    if t.code = 0x40 then
      f.modCore c fun k =>
        (k.tierMiss (k.pageBase t.addr) (f.delegates c) (.actor a)).modActor a fun x =>
          { x with missPage := some (k.pageBase t.addr) }
    else if t.code = 0x08 then f.modCore c fun k => k.modActor a fun x => { x with accWait := some t.addr }
    else
      let f := f.modCore c fun k => k.modActor a fun x => { x with trapHeld := true }
      if t.code = 0x30 || t.code = 0x31 then
        f.modCore c fun k => { k with faults := k.faults ++ [{ trap := t, actor := some a }] }
      else f.postTrap c t

/-- A fault of an instruction in the sequencer's block (R195, R197, R399, Table 9-8). -/
def Fabric.blockFault (f : Fabric) (c : Nat) (t : Trap) : Fabric :=
  let b := (f.core c).seq.exec.map Exec.block
  let f := f.modCore c Core.dropBlock
  if t.code = 0x30 || t.code = 0x31 then
    f.modCore c fun k => { k with seq := { k.seq with phase := .kiln b }, faults := k.faults ++ [{ trap := t }] }
  else if t.code = 0x40 && !f.delegates c then
    f.modCore c fun k =>
      { k.tierMiss (k.pageBase t.addr) false .seq with seq := { k.seq with phase := .kiln b } }
  else f.postTrap c t

/-- Whether a fault of `slot` may be reported (R20, R402): no lower slot can still run, each being done, waiting, or
short of an operand; or, once the firing is committing (`closed`), having no access in hand. -/
def faultReady (b : Block) (e : Exec) (slot : Nat) (closed : Bool) : Bool :=
  b.instrs.all fun s =>
    !(s.1 < slot) || e.done.contains s.1 ||
      (if closed then !e.inflight.contains s.1 else (e.waits.any fun w => w.1 = s.1) || !arrived e s.1 s.2)

/-- A fault of the instruction of a slot, once no lower slot can still run. In a BIND plane's filling it is reported to
the Kiln (R210, R227, R311). -/
def Fabric.faultAt (f : Fabric) (who : Agent) (slot : Nat) (i : Instr) (code addr lane : Nat)
    (info : Option Word := none) : Fabric :=
  let k := f.core who.core
  match k.exec who with
  | none => f
  | some e =>
    match k.blockOf who e with
    | none => f
    | some b =>
      if !faultReady b e slot (k.committing who) then f
      else
        let t := { slotTrap who slot i false code addr lane with info := info }
        match who with
        | .actor c a => f.firingFault c a t
        | .seq c => f.blockFault c t
        | .bind c =>
          f.modCore c fun k =>
            { k with bindExec := none, incoming := k.incoming.map fun g => { g with refused := true } }

/-- A fault of the instruction being issued. -/
def Issue.fault (x : Issue) (code addr : Nat) (lane : Nat := 0) (f : Fabric) : Fabric :=
  f.faultAt x.who x.slot x.i code addr lane

/-- A wait of a slot ended: the instruction is offered again (R22). -/
def Core.endWait (k : Core) (who : Agent) (slot : Nat) : Core :=
  k.modExec who fun e => { e with waits := e.waits.filter fun w => w.1 ≠ slot }

/-! ### Records (R405 to R407, R444) -/

/-- A completion record on its way into a context's completion window (R442, R444). -/
def Fabric.complete (f : Fabric) (x : Nat) (row : Row) : Fabric :=
  f.modContext x fun y => { y with cplHeld := y.cplHeld ++ [row] }

/-- The row of Table 21-2: TAG, KIND, CODE, BLOCK, CONTEXT, VALUE, CAUSE, TSLOT, TPE, TOP, DIE and CORE, TIME. -/
def completionRow (tag kind code block ctx value cause tslot tpe top core time : Nat) : Row :=
  BitVec.ofNat 512
    (tag + kind <<< 64 + code <<< 72 + block <<< 80 + ctx <<< 96 + value <<< 128 + cause <<< 192 +
      tslot <<< 256 + tpe <<< 272 + top <<< 288 + (core / 128) <<< 304 + (core % 128) <<< 307 + time <<< 320)

/-- Fields of an error record that its cause gives (Table 17-5); the rest is filled by `Fabric.record`. `home` is the die and site of
what is no part of a core: a slice, a track or a link. -/
structure Finding where
  unit : Nat
  sev : Nat
  inj : Bool := false
  exp : Bool := false
  seq : Bool := false
  pe : Nat := 0
  actor : Nat := 0
  slot : Nat := 0
  op : Nat := 0
  lane : Nat := 0
  el : Nat := 0
  pred : Nat := 0
  obs : Nat := 0
  info : Nat := 0
  home : Option (Nat × Nat) := none
  way : Nat := 0

/-- The physical site of a logical core as 18 · row + column (R16, R405): its spare site once retired, else the core sites
in row order, columns 0 to 7 and 9 to 16 (log entry 6). -/
def Fabric.site (f : Fabric) (c : Nat) : Nat :=
  ((f.core c).site).getD (18 * (c % 128 / 16) + (if c % 16 < 8 then c % 16 else c % 16 + 1))

/-- Whether a physical site of a die holds cores: columns 0 to 7 and 9 to 16 of rows 0 to 8 (R341). -/
def coreSite (site : Nat) : Bool := site / 18 < 9 && site % 18 ≠ 8 && site % 18 ≠ 17

/-- The spare sites left on a die: the core sites that no logical core stands on and that have not been retired (log entry 6). -/
def Fabric.spares (f : Fabric) (die : Nat) : List Nat :=
  (List.range 162).filter fun s =>
    coreSite s && !((sget {} f.units.banks die).gone.contains s) && (List.range 128).all fun i => f.site (die * 128 + i) ≠ s

/-- Key of a counting window (R407): one for the compute units of each PE, the sequencer counting as PE 256, one for
each storage structure of a core, and one for each of a site that holds no core. -/
def countKey (c : Nat) (g : Finding) : Nat :=
  match g.home with
  | some h => 2 ^ 24 + (h.1 * 256 + h.2) * 16 + g.unit
  | none => c * 1024 + (if g.unit < 5 then (if g.seq then 256 else g.pe) else 512 + g.unit)

/-- A record of Table 17-5: its finding, with COUNT, LASTING, the place and the time. -/
def Fabric.errorRow (f : Fabric) (c n : Nat) (lasting : Bool) (g : Finding) : BitVec 256 :=
  let ctx := (f.core c).contextId
  let sealBit := (f.context ctx).isSealed
  let b (x : Bool) : Nat := if x then 1 else 0
  BitVec.ofNat 256
    (n + ctx <<< 32 + g.unit <<< 48 + b g.exp <<< 56 + b lasting <<< 57 + b sealBit <<< 58 + b g.inj <<< 59 +
      g.sev <<< 60 + 1 <<< 63 + g.obs <<< 72 + g.pred <<< 75 + g.el <<< 78 + g.lane <<< 84 + g.op <<< 88 +
      g.slot <<< 98 + g.actor <<< 106 + g.pe <<< 108 + b g.seq <<< 116 + (g.home.getD (dieOf c, f.site c)).2 <<< 117 +
      (g.home.getD (dieOf c, 0)).1 <<< 125 +
      f.units.ptp.toNat <<< 128 +
      (if sealBit && 5 ≤ g.unit && g.unit ≤ 11 then g.info / 2 ^ 52 * 2 ^ 52 + g.info % 65536 else g.info) <<< 192)

/-- A machine-check record sent to a die's bank (R405, R407): COUNT in the window of its source; the third event there that no
injection made sets LASTING. Of a core's own units a record of UNIT 13 follows then, uncorrected when the die has no spare site left;
a slice's lasting cache way is disabled (log entry 64). -/
def Fabric.record (f : Fabric) (c : Nat) (g : Finding) : Fabric :=
  let u := f.units
  let die := (g.home.getD (dieOf c, 0)).1
  let bank := sget {} u.banks die
  let key := countKey c g
  let w := sget (u.cycle, 0) bank.counts key
  let w := if u.cycle - w.1 < 2 ^ 30 then (w.1, w.2 + 1) else (u.cycle, 1)
  let lasting := w.2 = 3 && !g.inj && g.unit ≤ 11
  let gone := lasting && g.unit ≤ 8
  let retire : Finding := { unit := 13, sev := if f.spares (dieOf c) = [] then 2 else 0 }
  let bank : Bank :=
    { bank with
      counts := sset bank.counts key w
      coming := bank.coming ++ f.errorRow c w.2 lasting g :: (if gone then [f.errorRow c w.2 false retire] else [])
      lasting := if gone then bank.lasting ++ [(c, (f.region (f.core c).regionId).interval)] else bank.lasting
      waysOff := match g.home with
        | some h => if lasting && g.unit = 9 then ((h.2, g.way) :: bank.waysOff).eraseDups else bank.waysOff
        | none => bank.waysOff }
  f.modUnits fun u => { u with banks := sset u.banks die bank }

/-- Severity of a deferred event: uncorrected where no rollback is possible (Table 17-4). -/
def Fabric.deferredSev (f : Fabric) (c : Nat) : Nat :=
  let r := f.region (f.core c).regionId
  if r.complete && !r.full then 1 else 2

/-- A rollback asked for (R412); without a complete cut, or in an unrecoverable interval, the region stops (R403,
R413). -/
def Fabric.askRollback (f : Fabric) (c : Nat) : Fabric :=
  let r := f.region (f.core c).regionId
  if r.complete && !r.full then f.modRegion (f.core c).regionId fun r => { r with rollback := true }
  else f.stopRegion c { code := 0x80 }

/-- A rollback that no record tells of: where none is possible the region stops with an uncorrected record (R413; log entry
15). -/
def Fabric.needRollback (f : Fabric) (c : Nat) (g : Finding) : Fabric :=
  (if f.deferredSev c = 2 then f.record c { g with sev := 2 } else f).askRollback c

/-- The ember bit of every token that a block has in hand or would write; nothing of it commits (R27, R404, R412). -/
def Exec.setEmber (e : Exec) (b : Bool) : Exec :=
  let m (t : Tok) : Tok := { t with ember := b }
  { e with
    spoiled := b
    bufs := e.bufs.map fun p => (p.1, match p.2 with | .tok t => .tok (m t) | .null => .null)
    effects := e.effects.map fun p => (p.1, match p.2 with
      | .upd a o t => .upd a o (m t)
      | .fill a t => .fill a (m t)
      | .held n t => .held n (m t)
      | .greg n t => .greg n (m t)
      | .mtk n t => .mtk n (m t)
      | .acc r o t => .acc r o (m t)
      | .store l _ => .store l b
      | x => x) }

/-- A firing marked with the ember bit in all that it has produced. -/
def Core.emberFiring (k : Core) (a : Nat) : Core :=
  k.modActor a fun x => { x with firing := x.firing.map fun g => { g with exec := g.exec.setEmber true } }

/-- A firing that an ordered-update conflict, or the loss of one of its requests, reaches: aborted without a trap, or when
pinned its results take the ember bit and the region rolls back (R27, R356, R380). -/
def Fabric.upset (f : Fabric) (c a : Nat) : Fabric :=
  if (f.core c).isPinned a then (f.modCore c fun k => k.emberFiring a).needRollback c { unit := 0, sev := 2, pe := a / 4, actor := a % 4 }
  else f.modCore c fun k => k.abort a

/-- The opcodes of the configuration instructions (R209 to R223). -/
def isConfigOp (i : Instr) : Bool := match opcodeOf i with | some op => 0x2C0 ≤ op && op ≤ 0x2CF | none => false

/-- The declaration block of a bind begun, or the plane filled at once without one (R311). A first block that is no
configuration block, and a sequencer or configuration block that fails validation as it enters the store (R114), are refused. -/
def Fabric.beginFill (f : Fabric) (c : Nat) (g : Group) : Fabric :=
  let (id, f) := f.fresh
  let bad := (g.decl && !(g.blocks.head?.any fun b => b.kind = 2)) ||
    g.blocks.any fun b => b.kind ≠ 1 && (b.validate false).isSome
  f.modCore c fun k =>
    { k with
      kindling := .bind, kplane := {}
      incoming := some { g with filled := !g.decl, refused := bad }
      bindExec := if g.decl && !bad then some { id := id, block := 0 } else none }

/-- A plane that is being filled filled again from the start (R227, R313). -/
def Fabric.refill (f : Fabric) (c : Nat) : Fabric :=
  match (f.core c).incoming with
  | some g => if g.filled || g.refused then f else f.beginFill c g
  | none => f

/-- An error found in the firing or the block of an agent (R129, R227, R403): unpinned, or with nothing acted at execution, it runs
again, a configuration instruction's PROGRAM plane discarded, and a plane being filled is filled again; else `mark` gives what was
produced the ember bit and the region rolls back. -/
def Fabric.blockError (f : Fabric) (who : Agent) (config : Bool) (g : Finding) (mark : Fabric → Fabric) : Fabric :=
  let c := who.core
  let k := f.core c
  let clean := match who with
    | .actor _ a => !k.isPinned a
    | _ => match k.exec who with | some e => !e.acted | none => true
  if clean then
    let f := f.record c { g with sev := 0 }
    match who with
    | .actor _ a => f.modCore c fun k => k.abort a
    | .seq _ => f.modCore c fun k =>
      (if config && k.kindling = .program then { k with kindling := .empty, kplane := {} } else k).dropBlock
    | .bind _ => f.refill c
  else (mark (f.record c { g with sev := f.deferredSev c })).askRollback c

end Sys2Proof.Machine
end

