-- ==== Sys2Proof/Machine/Windows.lean ====
section
/-!
DEFINITION. The window instructions of an actor firing (R164 to R166) and HGET (R172).
-/

namespace Sys2Proof.Machine

/-- The actor of an agent as PE · 4 + index; 0 for a sequencer, whose blocks hold no window instruction. -/
def Agent.place (who : Agent) : Nat := match who with | .actor _ a => a | _ => 0

/-- The window behind port `p` of an agent's actor. -/
def Core.winOf (k : Core) (who : Agent) (p : Nat) : Option Nat := (k.port (Agent.place who) p).map PortCfg.win

/-- The row at offset `o` of a window, counted from the head at firing start (R33, R165). -/
def Core.rowFrom (k : Core) (e : Exec) (w o : Nat) : Tok := k.row (rowAt (k.winCfg w) (sget 0 e.snap.head0 w) o)

/-- A slot completes with a token that already carries its ember bit. -/
def Issue.token (x : Issue) (t : Tok) (f : Fabric) : Fabric :=
  f.modCore x.who.core fun k =>
    k.finish x.who x.slot x.i (.tok ⟨t.bits, t.ember || x.ember⟩) (.tok ⟨t.bits, t.ember || x.ember⟩) fNone

/-- WRD (R32, R165): the row at an immediate offset, never waiting; WINDOW_RANGE when o ≥ C. -/
def execWrd (w : WFields) (s : State) : Host.Outcome State Fault Refusal :=
  issueStep (.wrd w) (fun x f =>
    let k := f.core x.who.core
    match k.winOf x.who w.port.toNat with
    | none => f
    | some n =>
      if (k.winCfg n).cap ≤ w.dist.toNat then x.fault 0x20 w.dist.toNat 0 f
      else x.token (k.rowFrom x.exec n w.dist.toNat) f) s

/-- The offset of a WRDX: DIST, or A.e[0] read as z32 when OFS = 1. -/
def wrdxOffset (w : WFields) (a : Row) : Nat := if w.ofs = 1 then elem 32 a 0 else w.dist.toNat

/-- WRDX (R165): waits until F > o, aborts with WINDOW_RANGE when o ≥ C. -/
def execWrdx (w : WFields) (s : State) : Host.Outcome State Fault Refusal :=
  issueStep (.wrdx w) (fun x f =>
    let k := f.core x.who.core
    let o := wrdxOffset w x.a
    match k.winOf x.who w.port.toNat with
    | none => f
    | some n =>
      if (k.winCfg n).cap ≤ o then x.fault 0x20 o 0 f
      else if o < k.readable n then x.token (k.rowFrom x.exec n o) f
      else x.wait (.row o) f) s

/-- WUPD (R165): an update buffered to commit; WINDOW_RANGE when o ≥ F at firing start. -/
def execWupd (w : WFields) (s : State) : Host.Outcome State Fault Refusal :=
  issueStep (.wupd w) (fun x f =>
    let k := f.core x.who.core
    match k.winOf x.who w.port.toNat with
    | none => f
    | some n =>
      if sget 0 x.exec.snap.f0 n ≤ w.dist.toNat then x.fault 0x20 w.dist.toNat 0 f
      else x.buffer (.upd w.port.toNat w.dist.toNat ⟨x.a, x.ember⟩) f) s

/-- WFIL (R165): a fill buffered to commit. -/
def execWfil (w : WFields) (s : State) : Host.Outcome State Fault Refusal :=
  issueStep (.wfil w) (fun x f => x.buffer (.fill w.port.toNat ⟨x.a, x.ember⟩) f) s

/-- WSHR (R165): a shrink buffered to commit; a count of 0 adds nothing. -/
def execWshr (w : WFields) (s : State) : Host.Outcome State Fault Refusal :=
  issueStep (.wshr w) (fun x f =>
    if w.dist = 0 then x.noResult f else x.buffer (.shrink w.port.toNat w.dist.toNat) f) s

/-- The count token of a window as it stood at firing start (R166). -/
def Core.countToken (k : Core) (e : Exec) (w : Nat) : Row :=
  let n := sget 0 e.snap.f0 w
  let cap := (k.winCfg w).cap
  ofVals 32 [n, cap - n, cap, sget 0 e.snap.head0 w]

/-- WCNT (R166): never waits and never faults. -/
def execWcnt (w : WFields) (s : State) : Host.Outcome State Fault Refusal :=
  issueStep (.wcnt w) (fun x f =>
    let k := f.core x.who.core
    match k.winOf x.who w.port.toNat with
    | none => f
    | some n => x.result (k.countToken x.exec n) fNone f) s

/-- HGET (R172): hN as it stood at firing start; only commit writes a held register (R40). -/
def execHget (d : DFields) (s : State) : Host.Outcome State Fault Refusal :=
  issueStep (.hget d) (fun x f =>
    let k := f.core x.who.core
    x.result (sget 0 (k.actor (Agent.place x.who)).held (d.imm.toNat % 8)) fNone f) s

end Sys2Proof.Machine
end

