-- ==== Sys2Proof/Machine/Acc.lean ====
section
/-!
DEFINITION. Accumulator rows: the instructions of R173 to R178, the holds of R45, and the writes as commit and a
sequencer's execution apply them (R175, R176, R178).
-/

namespace Sys2Proof.Machine

/-- Whether a matrix operation holds an accumulator row: from its entry into the queue until its last row is written
(R45, R240). -/
def Core.accHeld (k : Core) (row : Nat) : Bool :=
  k.mx.queue.any fun m => m.kind = 0 && elem 32 m.a 1 ≤ row && row < elem 32 m.a 1 + elem 32 m.a 0

/-- The rows that an accumulator write names. -/
def AccOp.rows (o : AccOp) (row : Nat) : List Nat :=
  match o with
  | .clear n => (List.range n).map (row + ·)
  | _ => [row]

/-- An accumulator row. -/
def Core.acc (k : Core) (row : Nat) : Tok := sget {} k.mx.acc row

/-- The core with an accumulator row written. -/
def Core.setAcc (k : Core) (row : Nat) (t : Tok) : Core := { k with mx := { k.mx with acc := sput {} k.mx.acc row t } }

/-- Element-wise f32 arithmetic on a row, one rounding each (R58, R175): `kind` 0 keeps the second operand, 1 adds,
2 multiplies; only the elements of `mask` change. -/
def accElems (kind mode mask : Nat) (old val : Row) : Row × Fpx :=
  let one (e : Nat) : Nat × Fpx :=
    let x := elem 32 old e
    let y := elem 32 val e
    if !bitOf mask e then (x, fNone)
    else match kind with
      | 0 => (y, fNone)
      | 1 => fAddV fmtF32 mode (unpack fmtF32 x) (unpack fmtF32 y)
      | _ => fMulV fmtF32 mode (unpack fmtF32 x) (unpack fmtF32 y)
  let l := (List.range 16).map one
  (ofVals 32 (l.map Prod.fst), l.foldl (fun a p => a ||| p.2) fNone)

/-- The row of Table 6-7; PE and ACTOR are 0xFF for the sequencer. -/
def patchRecord (who : Agent) (row kind mask : Nat) (val : Row) (retired count : Word) : Row :=
  let (pe, act) := match who with | .actor _ a => (a / 4, a % 4) | _ => (0xFF, 0xFF)
  BitVec.ofNat 512
    (count.toNat + retired.toNat <<< 64 + pe <<< 128 + act <<< 136 + kind <<< 148 + row <<< 150 +
      (elem 32 val 0) <<< 160 + mask <<< 192)

/-- The agent's place in a release note: its actor, or 1,024 for a sequencer. -/
def agentCode (who : Agent) : Nat := match who with | .actor _ a => a | _ => 1024

/-- The greatest number among the units of an agent whose last part has not left the port, with the agent's place: what holds
back the release of a row that the agent fills now (R371). -/
def Fabric.heldUnit (f : Fabric) (who : Agent) : Option (Nat × Nat) :=
  match f.units.stores.filter fun u => u.whos.contains who && !u.sent with
  | [] => none
  | l => some (agentCode who, l.foldl (fun m u => max m u.id) 0)

/-- A row filled into a window with its release held until the units of an agent up to a number have gone (R371). -/
def Core.fillHeld (k : Core) (w : Nat) (t : Tok) (rel : Option (Nat × Nat)) : Core :=
  (k.fillWin w t).modWin w fun x => match rel with | some r => { x with unrel := x.unrel ++ [r] } | none => x

/-- One accumulator write applied (R175, R178); a patch is counted and logged. -/
def Core.accApply (k : Core) (who : Agent) (row : Nat) (o : AccOp) (val : Tok) (rel : Option (Nat × Nat)) : Core × Fpx :=
  let old := k.acc row
  match o with
  | .write => (k.setAcc row val, fNone)
  | .add mode =>
    let r := accElems 1 mode 0xFFFF old.bits val.bits
    (k.setAcc row ⟨r.1, old.ember || val.ember⟩, r.2)
  | .clear _ => ((o.rows row).foldl (fun k j => k.setAcc j {}) k, fNone)
  | .patch kind mode mask =>
    let r := accElems kind mode mask old.bits val.bits
    let k := k.setAcc row ⟨r.1, old.ember || val.ember⟩
    let count := k.dbg.patches + 1
    let k := { k with dbg := { k.dbg with patches := count } }
    match k.plane.patchLog with
    | none => (k, r.2)
    | some w =>
      ((k.fillHeld w ⟨patchRecord who row kind mask val.bits k.dbg.retired count, val.ember⟩ rel).fillHeld w old rel,
        r.2)

/-- The row index r' (R174): a from A.e0 read as z32, plus the row field of imm16. -/
def accRow (d : DFields) (a : Row) : Nat := elem 32 a 0 + d.imm.toNat % 1024

/-- Whether an accumulator write fills the patch log (R178). -/
def AccOp.isPatch (o : AccOp) : Bool := match o with | .patch _ _ _ => true | _ => false

/-- Whether a WREST of the patch-log window is in progress: the fills of a patch wait (R170). -/
def Core.logRestoring (k : Core) : Bool := match k.plane.patchLog with | some w => k.restoring w | none => false

/-- An accumulator write at execution: the checks of R45 and R174; buffered in a firing, applied at once in a sequencer
block, where it waits while its row is held (R176). `last` is the last row named. -/
def accWrite (x : Issue) (row last : Nat) (o : AccOp) (f : Fabric) : Fabric :=
  let k := f.core x.who.core
  let held := (o.rows row).find? k.accHeld
  let full : Bool := match o, k.plane.patchLog with | .patch _ _ _, some w => decide (k.freeRows w < 2) | _, _ => false
  if 1023 < last then x.fault 0x07 last 0 f
  else match x.who, held with
    | .actor _ _, some r => x.fault 0x08 r 0 f
    | .actor _ _, none => x.buffer (.acc row o ⟨x.b, x.ember⟩) f
    | _, some _ => f
    | _, none =>
      if o.isPatch && k.logRestoring then f
      else if full then x.fault 0x09 (k.plane.patchLog.getD 0) 0 f
      else f.modCore x.who.core fun k =>
        let r := k.accApply x.who row o ⟨x.b, x.ember⟩ (f.heldUnit x.who)
        r.1.modExec x.who fun e => { e.mark x.slot r.2 with acted := true }

/-- ARD (R175): the row as at firing start; in the sequencer, as at execution. -/
def execArd (d : DFields) (s : State) : Host.Outcome State Fault Refusal :=
  issueStep (.ard d) (fun x f =>
    let k := f.core x.who.core
    let row := accRow d x.a
    if 1023 < row then x.fault 0x07 row 0 f
    else match x.who, k.accHeld row with
      | .actor _ _, true => x.fault 0x08 row 0 f
      | .actor _ _, false => x.token (sget {} x.exec.snap.acc row) f
      | _, true => f
      | _, false => x.token (k.acc row) f) s

/-- AWR (R175): raw 32-bit elements. -/
def execAwr (d : DFields) (s : State) : Host.Outcome State Fault Refusal :=
  issueStep (.awr d) (fun x f => accWrite x (accRow d x.a) (accRow d x.a) .write f) s

/-- AACC (R175): one rounding under mod[1:0]. -/
def execAacc (d : DFields) (s : State) : Host.Outcome State Fault Refusal :=
  issueStep (.aacc d) (fun x f => accWrite x (accRow d x.a) (accRow d x.a) (.add (modeOf d.mod)) f) s

/-- The write of an APATCH of a mode: 0 set, 1 add, 2 scale. -/
def patchWrite (d : DFields) (kind : Nat) (x : Issue) (f : Fabric) : Fabric :=
  accWrite x (accRow d x.a) (accRow d x.a) (.patch kind (modeOf d.mod) (elem 32 x.c 0 % 65536)) f

/-- APATCH in mode set (R175, R178). -/
def execApatchSet (d : DFields) (s : State) : Host.Outcome State Fault Refusal :=
  issueStep (.apatchSet d) (patchWrite d 0) s

/-- APATCH in mode add (R175, R178). -/
def execApatchAdd (d : DFields) (s : State) : Host.Outcome State Fault Refusal :=
  issueStep (.apatchAdd d) (patchWrite d 1) s

/-- APATCH in mode scale (R175, R178). -/
def execApatchScale (d : DFields) (s : State) : Host.Outcome State Fault Refusal :=
  issueStep (.apatchScale d) (patchWrite d 2) s

/-- ACLR (R174, R175): imm16[15:10] + 1 rows cleared to +0. -/
def execAclr (d : DFields) (s : State) : Host.Outcome State Fault Refusal :=
  issueStep (.aclr d) (fun x f =>
    let n := d.imm.toNat / 1024 + 1
    accWrite x (accRow d x.a) (accRow d x.a + n - 1) (.clear n) f) s

end Sys2Proof.Machine
end

