-- ==== Sys2Proof/Machine/Tensor.lean ====
section
/-!
DEFINITION. Tensor descriptors (R224, Table 7-10), the address function of R293, and the bytes that an access and a
watchpoint share (R427).
-/

namespace Sys2Proof.Machine

/-- Bits [hi:lo] of a token. -/
def rowBits (t : Row) (hi lo : Nat) : Nat := field t.toNat hi lo

/-- BASE. -/
def Desc.base (d : Desc) : Nat := rowBits d.lo 55 0
/-- SCALE. -/
def Desc.scale (d : Desc) : Nat := rowBits d.lo 119 64
/-- Extent of dimension `k`: the field plus one. -/
def Desc.ext (d : Desc) (k : Nat) : Nat := rowBits d.lo (159 + 32 * k) (128 + 32 * k) + 1
/-- FMT. -/
def Desc.fmt (d : Desc) : Nat := rowBits d.lo 263 256
/-- GRAN. -/
def Desc.gran (d : Desc) : Nat := rowBits d.lo 264 264
/-- LAYOUT: 1 is the 16 × 16 tile swizzle. -/
def Desc.layout (d : Desc) : Nat := rowBits d.lo 265 265
/-- PAD. -/
def Desc.pad (d : Desc) : Nat := rowBits d.lo 383 320
/-- Stride of dimension `k` in bytes. -/
def Desc.str (d : Desc) (k : Nat) : Int := signedOf 64 (elem 64 d.hi k)

/-- Width in bytes of an element of a descriptor format; l4 and packed t6 count as 1 (R224). -/
def fmtBytes (fmt : Nat) : Nat := if fmt < 16 then tyBytes (BitVec.ofNat 4 fmt) else 1

/-- Bytes that `n` consecutive elements of a format take in a row: half a byte each for l4, three quarters for packed
t6 (R64, R293). -/
def fmtSpan (fmt n : Nat) : Nat :=
  if fmt = 16 then (n + 1) / 2 else if fmt = 18 then 3 * ((n + 3) / 4) else n * fmtBytes fmt

/-- Byte address of element (i0, i1, i2, i3), and the bytes that hold it (R293). -/
def Desc.elemAddr (d : Desc) (i0 i1 i2 i3 : Nat) : Nat × Nat :=
  let outer : Int := i2 * d.str 2 + i3 * d.str 3
  if d.layout = 1 then
    let w := fmtBytes d.fmt
    (vaAdd d.base (outer + (i1 / 16 * 16 : Nat) * d.str 1 + (i0 / 16 * 256 * w + (i1 % 16 * 16 + i0 % 16) * w : Nat)), w)
  else if d.fmt = 16 then (vaAdd d.base (outer + i1 * d.str 1 + (i0 / 2 : Nat)), 1)
  else if d.fmt = 18 then
    let b := 6 * (i0 % 4)
    (vaAdd d.base (outer + i1 * d.str 1 + (3 * (i0 / 4) + b / 8 : Nat)), (b + 5) / 8 - b / 8 + 1)
  else (vaAdd d.base (outer + i1 * d.str 1 + i0 * d.str 0), fmtBytes d.fmt)

/-- The numbers from `lo` to `hi`. -/
def fromTo (lo hi : Nat) : List Nat := (List.range (hi + 1 - lo)).map (lo + ·)

/-- Whether byte address `a` matches a watchpoint's setting (R268, R427). -/
def Watch.matchesByte (w : Watch) (a : Nat) : Bool :=
  if w.range then
    let start := (elem 64 w.a 0) % 2 ^ 56
    start ≤ a && a < start + elem 32 w.a 2 && bitOf (elem 64 w.b 0) (a % 64)
  else
    let lo (k : Nat) := elem 32 w.a k
    let hi (k : Nat) := elem 32 w.a (4 + k)
    (fromTo (lo 3) (hi 3)).any fun i3 => (fromTo (lo 2) (hi 2)).any fun i2 =>
      (fromTo (lo 1) (hi 1)).any fun i1 => (fromTo (lo 0) (hi 0)).any fun i0 =>
        let p := w.desc.elemAddr i0 i1 i2 i3
        p.1 ≤ a && a < p.1 + p.2

/-- Whether a watchpoint selects an access kind (0 read, 1 write, 2 atomic) and a source (0 core, 1 copy engine,
2 remote). -/
def Watch.selects (w : Watch) (kind src : Nat) : Bool := bitOf (elem 32 w.a 8) kind && bitOf (elem 32 w.a 9) src

/-- The first matching byte of an access of `n` bytes at `va`. -/
def Watch.firstByte (w : Watch) (kind src va n : Nat) : Option Nat :=
  if w.selects kind src then ((List.range n).map (va + ·)).find? w.matchesByte else none

/-- The watchpoints of a core that an access strikes, lowest first, with their first matching bytes, those of `skip`
left out (R428, R430). -/
def Core.struck (k : Core) (skip : Option Nat) (kind src va n : Nat) : List (Nat × Nat) :=
  k.dbg.wps.filterMap fun p =>
    if skip = some p.1 then none else (p.2.firstByte kind src va n).map fun b => (p.1, b)

/-- WP_HIT with the bits of struck watchpoints set. -/
def Core.hit (k : Core) (l : List (Nat × Nat)) : Core :=
  { k with dbg := { k.dbg with hit := l.foldl (fun h p => h ||| BitVec.ofNat 8 (2 ^ p.1)) k.dbg.hit } }

/-- WP_INFO (Table 19-3). -/
def wpInfo (req conn skid gen kind src wp : Nat) : Word :=
  BitVec.ofNat 64 (req <<< 48 + conn <<< 40 + skid <<< 36 + gen <<< 32 + kind <<< 5 + src <<< 3 + wp)

end Sys2Proof.Machine
end

