-- ==== Sys2Proof/Machine/Memory.lean ====
section
/-!
DEFINITION. Memory by physical address (R280), the page walk (R287 to R292), the translation caches (R294, R295) and the
permission and tier checks of an access (R289, R298).
-/

namespace Sys2Proof.Machine

/-! ### Bytes -/

/-- A byte of memory; an unlisted one reads zero (log entry 1). -/
def Memory.byte (m : Memory) (a : Nat) : Byte := sget 0 m.cells a

/-- The memory with one byte written, in canonical form. -/
def Memory.setByte (m : Memory) (a : Nat) (b : Byte) : Memory := { m with cells := sput 0 m.cells a b }

/-- `n` bytes from address `a`. -/
def Memory.read (m : Memory) (a n : Nat) : List Byte := (List.range n).map fun i => m.byte (a + i)

/-- The memory with bytes written from address `a` on. -/
def Memory.write (m : Memory) (a : Nat) : List Byte → Memory
  | [] => m
  | b :: r => (m.setByte a b).write (a + 1) r

/-- A little-endian number of `n` bytes (R3). -/
def Memory.readNat (m : Memory) (a n : Nat) : Nat := bytesNat (m.read a n)

/-- The memory with a little-endian number of `n` bytes written. -/
def Memory.writeNat (m : Memory) (a n v : Nat) : Memory := m.write a (natBytes n v)

/-- The canonical form of memory: addresses strictly rising, no byte listed that an unlisted one reads as. -/
abbrev Memory.wf (m : Memory) : Prop := Swf (0 : Byte) m.cells

/-- The 64-byte line of an address. -/
def lineOf (a : Nat) : Nat := a / 64

/-- Bytes `a … a + n - 1` as a token, marked when a line among them is poisoned (R404). -/
def Memory.token (m : Memory) (a n : Nat) : Tok :=
  ⟨ofBytes (m.read a n), m.poison.any fun l => lineOf a ≤ l && l ≤ lineOf (a + n - 1)⟩

/-- Whether an address lies in HBM (R280, Table 9-2). -/
def inHbm (a : Nat) : Bool := a < 0x18000000000

/-- Whether an address lies in the peat window (R280, Table 9-2). -/
def inPeat (a : Nat) : Bool := 0x8000000000000 ≤ a && a < 0x8080000000000

/-- The granule of a physical address. -/
def granuleOf (a : Nat) : Nat := a / 65536

/-! ### The walk -/

/-- Bytes that a leaf of a level maps (Table 9-4): 64 KiB, 2 MiB or 1 GiB. -/
def pageBytes (level : Nat) : Nat := if level = 1 then 65536 else if level = 2 then 2097152 else 1073741824

/-- Size of the tables of a level in bytes. -/
def tableBytes (level : Nat) : Nat := if level = 1 then 256 else if level = 2 then 4096 else 65536

/-- Index of a virtual address at a level. -/
def indexAt (level va : Nat) : Nat :=
  match level with
  | 1 => field va 20 16
  | 2 => field va 29 21
  | 3 => field va 42 30
  | _ => field va 55 43

/-- Whether a leaf entry of a level breaks R289. -/
def badLeaf (level e : Nat) : Bool :=
  let frame := field e 51 16 * 65536
  field e 63 52 ≠ 0 || field e 15 10 ≠ 0 || field e 7 6 = 3 || level = 4 || frame % pageBytes level ≠ 0 ||
    (if bitOf e 4 then !inPeat frame || level = 3 else !inHbm frame)

/-- Whether a table entry above a level breaks R289. -/
def badTable (below e : Nat) : Bool :=
  field e 63 52 ≠ 0 || field e 7 2 ≠ 0 || (field e 51 8 * 256) % tableBytes below ≠ 0 || !inHbm (field e 51 8 * 256)

/-- The walk from a table of level `level + 1`: the leaf's level, its entry's address and the entry; none is a
translation fault. -/
def walkFrom (m : Memory) (va : Nat) : Nat → Nat → Option (Nat × Nat × Nat)
  | 0, _ => none
  | l + 1, table =>
    let p := table + 8 * indexAt (l + 1) va
    let e := m.readNat p 8
    if !bitOf e 0 then none
    else if bitOf e 1 then if badLeaf (l + 1) e then none else some (l + 1, p, e)
    else if badTable l e then none
    else walkFrom m va l (field e 51 8 * 256)

/-- The leaf that maps a virtual address of a context. -/
def Context.leaf (x : Context) (m : Memory) (va : Nat) : Option (Nat × Nat × Nat) := walkFrom m va 4 x.root

/-- Whether a leaf's LAYOUT and SEAL agree with the tag of the granule at its base (R291). -/
def tagAgrees (m : Memory) (ctx e : Nat) : Bool :=
  let t := sget {} m.tags (field e 51 16)
  bitOf e 8 == t.layout && bitOf e 5 == t.isSealed && (!bitOf e 5 || t.owner = ctx)

/-- A walk completed (R289, R291): the translation, or the fault code. -/
def translate (m : Memory) (x : Context) (ctx va : Nat) : Except Nat Trans :=
  match x.leaf m va with
  | none => .error 0x30
  | some (l, p, e) =>
    if !bitOf e 4 && !tagAgrees m ctx e then .error 0x31
    else .ok { ctx := ctx, va := va / pageBytes l * pageBytes l, size := pageBytes l,
               pa := field e 51 16 * 65536, leaf := p, attr := e % 1024 }

/-- CLASS of a translation: 0 streaming, 1 random, 2 ordered-update. -/
def Trans.cls (t : Trans) : Nat := field t.attr 7 6

/-- Physical address of a virtual address under a translation. -/
def Trans.phys (t : Trans) (va : Nat) : Nat := t.pa + (va - t.va)

/-- Whether a translation covers an address of a context. -/
def Trans.covers (t : Trans) (ctx va : Nat) : Bool := t.ctx = ctx && t.va ≤ va && va < t.va + t.size

/-- Whether the page of an address is in transit under TOUT or TIN (R261, R262). -/
def Fabric.inTransit (f : Fabric) (ctx va : Nat) : Bool :=
  f.units.transits.any fun t => t.ctx = ctx && t.page ≤ va && va < t.page + t.size

/-- The fault or tier miss of an access under a translation: RO first, then the tier (R289, R298). -/
def Fabric.accessFault (f : Fabric) (t : Trans) (write : Bool) (va : Nat) : Option Nat :=
  if write && bitOf t.attr 2 then some 0x30
  else if bitOf t.attr 4 || f.inTransit t.ctx va then some 0x40
  else none

/-! ### The core's translation cache (R294) -/

/-- The entry of the core's cache that covers an address. -/
def Core.cached (k : Core) (ctx va : Nat) : Option Trans := k.tlb.find? fun t => t.covers ctx va

/-- The core's cache with the entry of an address used: it becomes the most recent and its counts rise (R294, R297). -/
def Core.useEntry (k : Core) (ctx va : Nat) (write : Bool) : Core :=
  match k.cached ctx va with
  | none => k
  | some t =>
    let t' := if write then { t with writes := t.writes + 1 } else { t with reads := t.reads + 1 }
    { k with tlb := t' :: k.tlb.filter fun u => !u.covers ctx va }

/-- Counts gathered in an entry added to the side table, each counter saturating (R297, Table 9-7). -/
def Memory.addCounts (m : Memory) (x : Context) (t : Trans) : Memory :=
  if t.leaf < x.ptBase then m
  else
    let p := x.side + 2 * (t.leaf - x.ptBase)
    let up (m : Memory) (o n : Nat) : Memory :=
      if n = 0 then m else m.writeNat (p + o) 4 (min (m.readNat (p + o) 4 + n) 0xFFFFFFFF)
    up (up (up m 0 t.reads) 4 t.writes) 8 t.remote

/-- A translation entered in a core's 64-entry cache, evicting the least recent; the evicted entry is returned
(R294). -/
def Core.enter (k : Core) (t : Trans) : Core × Option Trans :=
  ({ k with tlb := (t :: k.tlb).take 64 }, if k.tlb.length < 64 then none else k.tlb.getLast?)

end Sys2Proof.Machine
end

