-- ==== Sys2Proof/Machine/Requests.lean ====
section
/-!
DEFINITION. The memory requests of PEs and sequencers: lanes and addresses (R180), the checks of a lane in order (R180,
R182, R188, R192, R402), response slots (R49, R357 to R359), and what a response delivers (R181, R184, R187).
-/

namespace Sys2Proof.Machine

/-! ### Addresses and lanes (R180) -/

/-- A.e[0] + DISP modulo 2^56. -/
def scalarVa (a : Row) (low : BitVec 16) : Nat := vaAdd (elem 64 a 0) low.toInt

/-- Lane address `k`: C.e[0] plus lane k of A read as s32. -/
def laneVa (ty : BitVec 4) (a c : Row) (k : Nat) : Nat :=
  vaAdd (elem 64 c 0) (signedOf 32 (elem (tyBits ty) a k))

/-- The enabled lanes of a lane-form instruction. -/
def enabledLanes (ty : BitVec 4) (low : BitVec 16) : List Nat :=
  (List.range (if tyBytes ty = 4 then 16 else 8)).filter fun k => low.getLsbD k

/-- Whether an M-format word is of the lane-address form (R108). -/
def laneForm (f : MFields) : Bool := !f.mod.getLsbD 3

/-- The lanes of a gather, scatter or atomic: data from B, the compare value from C (R180, R186). -/
def formLanes (f : MFields) (a b c : Row) : List ReqLane :=
  let n := tyBytes f.ty
  if laneForm f then
    (enabledLanes f.ty f.low).map fun k =>
      { idx := k, va := laneVa f.ty a c k, n := n, data := elem (8 * n) b k, cmp := elem (8 * n) c k }
  else [{ idx := 0, va := scalarVa a f.low, n := n, data := elem (8 * n) b 0, cmp := elem (8 * n) c 0 }]

/-- SIZE in bytes (R108). -/
def sizeBytes (f : MFields) : Nat := 2 ^ f.size.toNat

/-- The data of an STS: B.e[0], saturated to SIZE bytes when mod[2] = 1 (R182). -/
def stsData (f : MFields) (b : Row) : Nat :=
  let x := intOf f.ty (elem (tyBits f.ty) b 0)
  let w := 8 * sizeBytes f
  wrapTo w (if f.mod.getLsbD 2 then clampInt (tySigned f.ty) w x else x)

/-- The lanes of a memory instruction from its operands. -/
def memLanes (i : Instr) (a b c : Row) : List ReqLane :=
  match i, fieldsOf i with
  | .ld f, _ => [{ idx := 0, va := scalarVa a f.low, n := 64 }]
  | .ld2 f, _ =>
    [{ idx := 0, va := scalarVa a f.low, n := 64 }, { idx := 1, va := vaAdd (scalarVa a f.low) 64, n := 64 }]
  | .lds f, _ => [{ idx := 0, va := scalarVa a f.low, n := sizeBytes f }]
  | .st f, _ => [{ idx := 0, va := scalarVa a f.low, n := 64, data := b.toNat }]
  | .sts f, _ => [{ idx := 0, va := scalarVa a f.low, n := sizeBytes f, data := stsData f b }]
  | _, some (.m f) => formLanes f a b c
  | _, _ => []

/-- Alignment of a lane (R180): LD2 is aligned as a whole. -/
def laneAlign (i : Instr) (l : ReqLane) : Nat :=
  match i with
  | .ld2 _ => if l.idx = 0 then 128 else 64
  | _ => l.n

/-- TRAP_LANE of a lane, `off` bytes into it (R42): element and lane. -/
def trapLane (i : Instr) (l : ReqLane) (off : Nat) : Nat :=
  let w := tyBytes (BitVec.ofNat 4 (commonFields i).ty)
  match fieldsOf i with
  | some (.m f) =>
    let whole := match i with | .ld _ | .ld2 _ | .lds _ | .st _ | .sts _ => true | _ => false
    let byte := if whole then off % 64 else if laneForm f then l.idx * w + off else off
    (byte / w % 64) * 256 + byte / 4 % 16
  | _ => 0

/-! ### Checks of a lane -/

/-- Access kind of a memory instruction: 0 read, 1 write, 2 atomic (R427). -/
def accessKind (i : Instr) : Nat := if isAtomic i then 2 else if isStore i then 1 else 0

/-- The misalignment or strike of a lane at its issue (R180, R427, R428). -/
def Core.early (k : Core) (e : Exec) (i : Instr) (l : ReqLane) : ReqLane :=
  if l.va % laneAlign i l ≠ 0 then { l with early := some (0x0A, l.va, []) }
  else match k.struck e.stepOver (accessKind i) 0 l.va l.n with
    | h :: t => { l with early := some (0x60, t.foldl (fun m p => min m p.2) h.2, h :: t) }
    | [] => { l with early := none }

/-- The watchpoints that the lanes of one instruction strike, by number; each struck lane names them all (R428; log entry 36). -/
def shareStrikes (lanes : List ReqLane) : List ReqLane :=
  let hits := lanes.flatMap fun l => match l.early with | some (0x60, _, h) => h | _ => []
  let all := (List.range 8).filterMap fun w => hits.find? fun h => h.1 = w
  lanes.map fun l => match l.early with | some (0x60, a, _) => { l with early := some (0x60, a, all) } | _ => l

/-- What the check of a lane finds. -/
inductive LaneOut where
  | fault (code addr : Nat) (hits : List (Nat × Nat))
  | walk
  | ok (pa cls page : Nat)
  deriving DecidableEq, Repr

/-- Whether a block in progress has no timestamp: an unset or all-ones TSTAMP (R192). -/
def untimed (e : Exec) : Bool := match e.tstamp with | none => true | some t => t = BitVec.allOnes 64

/-- The check of a lane against the core's translation cache: early findings, then permission and tier, then the rules of
ordered-update pages (R189, R192, R298, R380). -/
def Fabric.checkLane (f : Fabric) (who : Agent) (e : Exec) (i : Instr) (l : ReqLane) : LaneOut :=
  let k := f.core who.core
  match l.early with
  | some (code, addr, hits) => .fault code addr hits
  | none =>
    match k.cached k.contextId l.va with
    | none => .walk
    | some t =>
      match f.accessFault t (accessKind i ≠ 0) l.va with
      | some code => .fault code l.va []
      | none =>
        let firing := match who with | .actor _ _ => true | _ => false
        if t.cls = 2 && isEager i && firing then .fault 0x0B l.va []
        else if t.cls = 2 && untimed e then .fault 0x0D l.va []
        else .ok (t.phys l.va) t.cls t.va

/-- Lanes checked in order up to the first that faults or needs a walk. -/
def Fabric.checkLanes (f : Fabric) (who : Agent) (e : Exec) (i : Instr) :
    List ReqLane → List ReqLane × Option (ReqLane × LaneOut)
  | [] => ([], none)
  | l :: r =>
    if l.pa.isSome then
      let q := f.checkLanes who e i r
      (l :: q.1, q.2)
    else match f.checkLane who e i l with
      | .ok pa cls page =>
        let q := f.checkLanes who e i r
        ({ l with pa := some (pa, cls), page := page } :: q.1, q.2)
      | out => (l :: r, some (l, out))

/-- Translated accesses counted in the core's cache (R294, R297): lanes translated now. -/
def Core.countLanes (k : Core) (write : Bool) (was now : List ReqLane) : Core :=
  (was.zip now).foldl
    (fun k p => if p.1.pa.isNone && p.2.pa.isSome then k.useEntry k.contextId p.2.va write else k) k

/-- Whether a fault of an agent's slot may be reported now. -/
def Fabric.canFault (f : Fabric) (who : Agent) (slot : Nat) : Bool :=
  let k := f.core who.core
  match k.exec who with
  | some e => (match k.blockOf who e with | some b => faultReady b e slot (k.committing who) | none => false)
  | none => false

/-- A fault of a lane, with WP_HIT and WP_INFO for a strike (R428, R429). -/
def Fabric.laneFault (f : Fabric) (who : Agent) (slot : Nat) (i : Instr) (l : ReqLane) (code addr : Nat)
    (hits : List (Nat × Nat)) : Fabric :=
  if !f.canFault who slot then f
  else
    let info := match hits with
      | h :: _ => some (wpInfo 0 0 0 0 (accessKind i) 0 h.1)
      | [] => none
    let off := if code = 0x60 then addr - l.va else 0
    (f.modCore who.core fun k => k.hit hits).faultAt who slot i code addr (trapLane i l off) info

/-! ### Requests in the units -/

/-- Whether a kind of request is a load, which holds a response slot and counts in LD (R49, R52). -/
def ReqKind.isLoad : ReqKind → Bool
  | .load | .load2 | .scalar | .gather => true
  | _ => false

/-- The outstanding counts of a sequencer changed by a request, `up` or down (R52, R185). -/
def Core.countReq (k : Core) (who : Agent) (kind : ReqKind) (up : Bool) : Core :=
  let step (n : Nat) : Nat := if up then n + 1 else n - 1
  match who with
  | .seq _ =>
    if kind.isLoad then { k with counts := { k.counts with ld := step k.counts.ld } }
    else if kind = .eager then { k with counts := { k.counts with st := step k.counts.st } }
    else k
  | _ => k

/-- The request of a number. -/
def Fabric.req (f : Fabric) (id : Nat) : Option Req := f.units.reqs.find? fun r => r.id = id

/-- The request of a slot of a block in progress. -/
def Fabric.reqOf (f : Fabric) (exec slot : Nat) : Option Req :=
  f.units.reqs.find? fun r => r.exec = exec && r.slot = slot

/-- A request replaced by its new value. -/
def Fabric.putReq (f : Fabric) (r : Req) : Fabric :=
  f.modUnits fun u => { u with reqs := u.reqs.map fun x => if x.id = r.id then r else x }

/-- A walk asked of a die's walker, unless it is asked already (R294). -/
def Fabric.askWalk (f : Fabric) (die : Nat) (w : Walk) : Fabric :=
  f.modUnits fun u => { u with walks := smod [] u.walks die fun l => if l.contains w then l else l ++ [w] }

/-- A walk no longer with its walker. -/
def Fabric.endWalk (f : Fabric) (die : Nat) (w : Walk) : Fabric :=
  f.modUnits fun u => { u with walks := sput [] u.walks die ((sget [] u.walks die).erase w) }

/-- Whether something still waits for a walk. -/
def Fabric.walkLive (f : Fabric) (w : Walk) : Bool :=
  match w with
  | .req id => (f.req id).isSome
  | .gen c i => (sget {} (f.core c).eng.gens i).cur.isSome

/-- Whether a walk is in flight: the walker holds 16 and starts them in the order requested (R294). -/
def Fabric.walkStarted (f : Fabric) (die : Nat) (w : Walk) : Bool :=
  (((sget [] f.units.walks die).filter f.walkLive).take 16).contains w

/-- The walk that a request needs for its first untranslated lane, asked of the walker of its die. -/
def Fabric.askFor (f : Fabric) (r : Req) : Fabric :=
  if r.lanes.any fun l => l.pa.isNone && !l.bad then f.askWalk (dieOf r.who.core) (.req r.id) else f

/-- Whether an agent is no actor: a load of its block acts at execution (R197). -/
def Agent.isBlock (who : Agent) : Bool := match who with | .actor _ _ => false | _ => true

/-- A request crosses its channel, as PROF counts it (R275). -/
def Core.crossedReq (k : Core) (r : Req) : Core :=
  match r.chan with | some n => k.crossed (512 + n) | none => k

/-- A new request, its slot in flight and its count raised; in a sequencer block a load has acted (R197, R403). -/
def Fabric.openReq (f : Fabric) (r : Req) : Fabric :=
  (f.modUnits fun u => { u with reqs := u.reqs ++ [r] }).modCore r.who.core fun k =>
    ((k.modExec r.who fun e =>
      { e with inflight := r.slot :: e.inflight, acted := e.acted || (Agent.isBlock r.who && r.kind.isLoad) }).countReq r.who r.kind
        true).crossedReq r

/-- A request ended: its slot of the channel returns in this cycle and its count falls (R49, R357). -/
def Fabric.closeReq (f : Fabric) (r : Req) : Fabric :=
  (((f.sinkAll fun x => LinkUnit.ofReq x r.id).endWalk (dieOf r.who.core) (.req r.id)).modUnits fun u =>
    { u with reqs := u.reqs.filter fun x => x.id ≠ r.id }).modCore r.who.core fun k =>
    let k := match r.chan with
      | some n => { k with slotBack := (n, f.units.cycle) :: k.slotBack.filter fun p => p.2 = f.units.cycle }
      | none => k
    (k.countReq r.who r.kind false).modExec r.who fun e =>
      if e.id = r.exec then { e with inflight := e.inflight.filter (· ≠ r.slot) } else e

/-- Response slots of a channel of a core that no request holds (R49). -/
def Fabric.freeSlots (f : Fabric) (c chan : Nat) : Nat :=
  8 - (f.units.reqs.filter fun r => r.who.core = c && r.chan = some chan).length

/-- Whether a slot of a channel may be granted: one returned in a cycle may be from the next on (R357). -/
def Fabric.slotReady (f : Fabric) (c chan : Nat) : Bool :=
  ((f.core c).slotBack.filter fun p => p = (chan, f.units.cycle)).length < f.freeSlots c chan

/-- Kind of a memory instruction's request. -/
def reqKind (i : Instr) : ReqKind :=
  match i with
  | .ld _ => .load
  | .ld2 _ => .load2
  | .lds _ => .scalar
  | .gath _ => .gather
  | _ => if isAtomic i then (if isEager i then .eager else .deferred) else .store

/-- The channel of a load (R108, R181). -/
def reqChan (i : Instr) : Option Nat :=
  if (reqKind i).isLoad then some ((commonFields i).mod % 4) else none

/-- A lane as a store unit carries it (R182, R188). -/
def ReqLane.mem (i : Instr) (l : ReqLane) : MemLane :=
  { va := l.va, pa := (l.pa.getD (0, 0)).1, n := l.n, data := l.data, cmp := l.cmp,
    op := if isAtomic i then (opcodeOf i).getD 0 else 0, ty := BitVec.ofNat 4 (commonFields i).ty,
    cls := (l.pa.getD (0, 0)).2,
    gath := match i with | .scat _ => true | _ => false }

/-- A store or deferred atomic whose lanes are all translated: buffered to commit (R182, R188). -/
def Fabric.bufferStore (f : Fabric) (who : Agent) (slot : Nat) (i : Instr) (lanes : List ReqLane) (ember : Bool) :
    Fabric :=
  f.modCore who.core fun k => k.modExec who fun e =>
    (e.addEffect slot (.store (lanes.map (ReqLane.mem i)) ember)).mark slot fNone

/-- A request taken as far as the core's translation cache carries it: a fault ends it, a store whose lanes are translated is
buffered, a load waits at its slices; a lane without an entry waits for the die walker. -/
def Fabric.advance (f : Fabric) (r : Req) (i : Instr) (e : Exec) : Fabric :=
  let q := f.checkLanes r.who e i r.lanes
  let f' := f.modCore r.who.core fun k => k.countLanes (accessKind i ≠ 0) r.lanes q.1
  match q.2 with
  | some (l, .fault code addr hits) =>
    if f.canFault r.who r.slot then (f'.closeReq r).laneFault r.who r.slot i l code addr hits else f
  | some _ => (f'.putReq { r with lanes := q.1 }).askFor { r with lanes := q.1 }
  | none =>
    if r.kind = .store || r.kind = .deferred then
      (f'.closeReq r).bufferStore r.who r.slot i q.1 r.val
    else f'.putReq { r with lanes := q.1 }

/-- The request of an instruction issued. -/
def Issue.request (x : Issue) (id : Nat) (lanes : List ReqLane) : Req :=
  { id := id, who := x.who, exec := x.exec.id, slot := x.slot, op := (opcodeOf x.i).getD 0,
    ty := BitVec.ofNat 4 (commonFields x.i).ty, kind := reqKind x.i, chan := reqChan x.i, lanes := lanes,
    val := x.ember }

/-- The lanes of an instruction at its issue, misalignments and strikes found. -/
def Issue.lanesNow (x : Issue) (f : Fabric) : List ReqLane :=
  shareStrikes ((memLanes x.i x.a x.b x.c).map ((f.core x.who.core).early x.exec x.i))

/-- A store, STS, SCAT or deferred atomic at execution: every lane is checked and translated; it is buffered at once when
the core's cache holds every page (R182, R188). -/
def Fabric.storeIssue (f : Fabric) (x : Issue) : Fabric :=
  let lanes := x.lanesNow f
  let q := f.checkLanes x.who x.exec x.i lanes
  let f' := f.modCore x.who.core fun k => k.countLanes true lanes q.1
  match q.2 with
  | none => f'.bufferStore x.who x.slot x.i q.1 x.ember
  | some (l, .fault code addr hits) => f.laneFault x.who x.slot x.i l code addr hits
  | some _ =>
    let (id, f') := f'.fresh
    (f'.askFor (x.request id q.1)).openReq (x.request id q.1)

/-- The place of an asker among those of one cycle: by PE_ID and actor index, the sequencer last (R358). -/
def Asker.place (a : Asker) : Nat := match a.who with | .actor _ n => n | _ => 1024

/-- Whether one asker goes before another: by cycle, place and slot (R358). -/
def Asker.before (a b : Asker) : Bool :=
  a.cycle < b.cycle || (a.cycle = b.cycle && (a.place < b.place || (a.place = b.place && a.slot ≤ b.slot)))

/-- An asker in its order among the others. -/
def insertAsker (a : Asker) : List Asker → List Asker
  | [] => [a]
  | x :: r => if x.before a then x :: insertAsker a r else a :: x :: r

/-- Whether an asker still waits: its block is the one that asked, and its slot waits for the channel (R26, R359). -/
def Core.stillAsks (k : Core) (a : Asker) : Bool :=
  match k.exec a.who with
  | some e => e.id = a.exec && e.waits.any fun w => w = (a.slot, .slot a.chan)
  | none => false

/-- An instruction that asks for a slot of its channel and finds none free, or another waiting, waits in order of asking
(R358, R359). -/
def Fabric.askSlot (f : Fabric) (x : Issue) (chan : Nat) : Fabric :=
  let f := f.modCore x.who.core fun k => { k with askers := k.askers.filter k.stillAsks }
  (x.wait (.slot chan) f).modCore x.who.core fun k =>
    { k with askers := insertAsker ⟨chan, x.who, x.slot, x.exec.id, f.units.cycle⟩ k.askers }

/-- Whether a load is granted a slot at once (R357, R358). -/
def Fabric.slotFree (f : Fabric) (c chan : Nat) : Bool :=
  f.slotReady c chan && (f.core c).askers.all fun a => !(a.chan = chan && (f.core c).stillAsks a)

/-- Whether a load of a lower slot of the block is ready and has not asked yet: the loads of a block ask for the slots of a
channel in slot order (R358, R360; log entry 65). -/
def Fabric.lowerAsks (f : Fabric) (x : Issue) (chan : Nat) : Bool :=
  let k := f.core x.who.core
  match k.blockOf x.who x.exec with
  | some b => b.instrs.any fun s =>
      s.1 < x.slot && reqChan s.2 = some chan && offered k x.exec s.1 s.2 && !squashes x.exec s.1 s.2
  | none => false

/-- A load at execution (R181): faults found in the core's cache are raised; then it takes a response slot, or asks for one
unless it has been granted one. -/
def Fabric.loadIssue (f : Fabric) (x : Issue) (granted : Bool) : Fabric :=
  let lanes := x.lanesNow f
  let q := f.checkLanes x.who x.exec x.i lanes
  match q.2 with
  | some (l, .fault code addr hits) => f.laneFault x.who x.slot x.i l code addr hits
  | _ =>
    let chan := (reqChan x.i).getD 0
    if !granted && f.lowerAsks x chan then f
    else if granted || f.slotFree x.who.core chan then
      let f' := f.modCore x.who.core fun k => k.countLanes false lanes q.1
      let (id, f') := f'.fresh
      (f'.askFor (x.request id q.1)).openReq (x.request id q.1)
    else f.askSlot x chan

/-! ### Eager atomics (R187 to R189) -/

/-- Order in which an eager atomic takes its lanes: pages ascending, then lanes (R188). -/
def laneBefore (a b : ReqLane) : Bool := a.page < b.page || (a.page = b.page && a.idx ≤ b.idx)

/-- A lane placed in that order. -/
def insertLane (l : ReqLane) : List ReqLane → List ReqLane
  | [] => [l]
  | x :: r => if laneBefore x l then x :: insertLane l r else l :: x :: r

/-- The finding of the lowest lane of an eager atomic that refuses it before it issues: a misalignment, a strike, or an
ordered-update page (R180, R189, R428). -/
def Fabric.eagerRefused (f : Fabric) (who : Agent) (e : Exec) (i : Instr) (lanes : List ReqLane) :
    Option (ReqLane × Nat × Nat × List (Nat × Nat)) :=
  ((List.range 16).filterMap fun n => lanes.find? fun l => l.idx = n).findSome? fun l =>
    match f.checkLane who e i { l with pa := none } with
    | .fault code addr hits =>
      if code = 0x0A || code = 0x60 || code = 0x0B || code = 0x0D then some (l, code, addr, hits) else none
    | _ => none

/-- A lane of an eager atomic translated, or marked as one whose page faults. -/
def Fabric.eagerLane (f : Fabric) (who : Agent) (e : Exec) (i : Instr) (l : ReqLane) : ReqLane :=
  if l.pa.isSome then l
  else match f.checkLane who e i l with
    | .ok pa cls page => { l with pa := some (pa, cls), page := page, bad := false }
    | .fault _ _ _ => { l with bad := true, page := (f.core who.core).pageBase l.va }
    | .walk => { l with bad := false }

/-- The lanes of an eager atomic in the order in which they are taken (R188). -/
def sortLanes (ls : List ReqLane) : List ReqLane := ls.foldl (fun m l => insertLane l m) []

/-- An agent pinned by an eager atomic, and its link set with it; a sequencer block has acted (R27, R215, R403). -/
def Core.pin (k : Core) (who : Agent) : Core :=
  match who with
  | .actor _ a =>
    (k.mates a).foldl (fun k m => k.modActor m fun x => { x with firing := x.firing.map fun y => { y with pinned := true } }) k
  | _ => k.modExec who fun e => { e with acted := true }

/-- Whether lanes of an eager atomic have been applied. -/
def Req.someDone (r : Req) : Bool := r.lanes.any fun l => l.got.isSome

/-- The first lane, in the order of R188, that is not applied and whose page faults, when every lane of the pages before it
is applied. -/
def Req.faultingLane (r : Req) : Option ReqLane :=
  match r.lanes.find? fun l => l.got.isNone with
  | some l => if l.bad then some l else none
  | none => none

/-- An eager atomic taken on: its untranslated lanes wait for the walker; once every lane's page is known it is refused, or it
faults when the first page to act on faults, or it issues and pins its firing (R188, R189). -/
def Fabric.eagerAdvance (f : Fabric) (r : Req) (i : Instr) (e : Exec) : Fabric :=
  match (if r.someDone then none else f.eagerRefused r.who e i r.lanes) with
  | some (l, code, addr, hits) =>
    if f.canFault r.who r.slot then (f.closeReq r).laneFault r.who r.slot i l code addr hits else f
  | none =>
    let lanes := sortLanes (r.lanes.map (f.eagerLane r.who e i))
    let r' := { r with lanes := lanes }
    let f' := (f.modCore r.who.core fun k => k.countLanes true r.lanes (r.lanes.map (f.eagerLane r.who e i))).putReq r'
    if lanes.any fun l => l.pa.isNone && !l.bad then f'.askFor r'
    else match r'.faultingLane with
      | none => f'.modCore r.who.core fun k => k.pin r.who
      | some l =>
        match f.checkLane r.who e i l with
        | .fault code addr hits =>
          if !f.canFault r.who r.slot then f
          else if (match r.who with | .actor _ _ => r.someDone | _ => false) then
            (f'.modCore r.who.core fun k => k.modExec r.who fun e =>
              { e with inflight := e.inflight.filter (· ≠ r.slot) }).laneFault r.who r.slot i l code addr hits
          else (f'.closeReq r).laneFault r.who r.slot i l code addr hits
        | _ => f'

/-- An eager atomic at execution: a new request, or the one whose done-mask the firing kept (R188). -/
def Fabric.eagerIssue (f : Fabric) (x : Issue) : Fabric :=
  match f.reqOf x.exec.id x.slot with
  | some r =>
    let r := { r with lanes := r.lanes.map fun l => { l with bad := false, early := none } }
    ((f.putReq r).modCore x.who.core fun k => k.modExec x.who fun e =>
      { e with inflight := x.slot :: e.inflight }).eagerAdvance r x.i x.exec
  | none =>
    let lanes := x.lanesNow f
    match f.eagerRefused x.who x.exec x.i lanes with
    | some (l, code, addr, hits) => f.laneFault x.who x.slot x.i l code addr hits
    | none =>
      let (id, f) := f.fresh
      let r := x.request id lanes
      (f.openReq r).eagerAdvance r x.i x.exec

/-! ### What a request delivers -/

/-- The bytes of a load with the same block's stores of lower slots laid over them, the highest slot winning (R184). -/
def overlay (e : Exec) (slot pa : Nat) (bytes : List Byte) : List Byte :=
  e.effects.foldl
    (fun bs x =>
      match x with
      | (n, .store lanes _) =>
        if n < slot then
          lanes.foldl
            (fun bs l =>
              if l.op ≠ 0 then bs
              else bs.zipIdx.map fun p =>
                let a := pa + p.2
                if l.pa ≤ a && a < l.pa + l.n then BitVec.ofNat 8 (l.data >>> (8 * (a - l.pa))) else p.1)
            bs
        else bs
      | _ => bs)
    bytes

/-- Whether a store laid over a load carries the ember bit (R404). -/
def overlayEmber (e : Exec) (slot pa n : Nat) : Bool :=
  e.effects.any fun x =>
    match x with
    | (m, .store lanes emb) => m < slot && emb && lanes.any fun l => l.op = 0 && l.pa < pa + n && pa < l.pa + l.n
    | _ => false

/-- The value of a performed lane as the block sees it (R184). -/
def laneValue (e : Exec) (r : Req) (l : ReqLane) : Tok :=
  let t := l.got.getD {}
  let pa := (l.pa.getD (0, 0)).1
  if r.kind = .eager then t
  else ⟨ofBytes (overlay e r.slot pa (toBytes l.n t.bits)), t.ember || overlayEmber e r.slot pa l.n⟩

/-- The result token of a completed request (R181, R187). -/
def resultTok (e : Exec) (r : Req) : Tok :=
  let ember := r.lanes.any fun l => (laneValue e r l).ember
  let w := tyBits r.ty
  match r.kind, r.lanes with
  | .load, [l] => ⟨(laneValue e r l).bits, ember || r.val⟩
  | .scalar, [l] =>
    let v := (laneValue e r l).bits.toNat % 2 ^ (8 * l.n)
    ⟨ofVals w [if tySigned r.ty then wrapTo w (signedOf (8 * l.n) v) else v], ember || r.val⟩
  | _, ls =>
    ⟨ofElems w (64 / tyBytes r.ty) fun k =>
        match ls.find? fun l => l.idx = k with
        | some l => (laneValue e r l).bits.toNat % 2 ^ (8 * l.n)
        | none => 0, ember || r.val⟩

end Sys2Proof.Machine
end

