-- ==== Sys2Proof/Machine/Atomics.lean ====
section
/-!
DEFINITION. The atomics of R186 to R189: eager with a target, deferred without; and the new value that a slice
forms (Table 6-10).
-/

namespace Sys2Proof.Machine

/-- The new value of a word under an atomic (Table 6-10): `v` the present value, `b` the operand, `c` the compare
value, all raw. -/
def atomicNew (op : Nat) (ty : BitVec 4) (v b c : Nat) : Nat :=
  let w := tyBits ty
  match op with
  | 0x200 => (v + b) % 2 ^ w
  | 0x201 => (fAddV fmtF32 0 (unpack fmtF32 v) (unpack fmtF32 b)).1
  | 0x202 => if intOf ty b < intOf ty v then b else v
  | 0x203 => if intOf ty v < intOf ty b then b else v
  | 0x204 => (fMinMax fmtF32 true v b).1
  | 0x205 => v &&& b
  | 0x206 => v ||| b
  | 0x207 => v ^^^ b
  | 0x208 => b
  | _ => if v = c then b else v

/-- An atomic at execution (R187, R188): eager when it has a target, else checked and buffered to commit. -/
def atomicStep (i : Instr) : State → Host.Outcome State Fault Refusal :=
  issueStep i fun x f => if isEager i then f.eagerIssue x else f.storeIssue x

/-- ATADD (R186): v + b, wrapping. -/
def execAtadd (m : MFields) (s : State) : Host.Outcome State Fault Refusal := atomicStep (.atadd m) s

/-- ATFADD (R186): the f32 sum under RNE. -/
def execAtfadd (m : MFields) (s : State) : Host.Outcome State Fault Refusal := atomicStep (.atfadd m) s

/-- ATMIN (R186): min(v, b). -/
def execAtmin (m : MFields) (s : State) : Host.Outcome State Fault Refusal := atomicStep (.atmin m) s

/-- ATMAX (R186): max(v, b). -/
def execAtmax (m : MFields) (s : State) : Host.Outcome State Fault Refusal := atomicStep (.atmax m) s

/-- ATFMAX (R186): the greater f32, −0 below +0. -/
def execAtfmax (m : MFields) (s : State) : Host.Outcome State Fault Refusal := atomicStep (.atfmax m) s

/-- ATAND (R186): v AND b. -/
def execAtand (m : MFields) (s : State) : Host.Outcome State Fault Refusal := atomicStep (.atand m) s

/-- ATOR (R186): v OR b. -/
def execAtor (m : MFields) (s : State) : Host.Outcome State Fault Refusal := atomicStep (.ator m) s

/-- ATXOR (R186): v XOR b. -/
def execAtxor (m : MFields) (s : State) : Host.Outcome State Fault Refusal := atomicStep (.atxor m) s

/-- ATXCH (R186): b. -/
def execAtxch (m : MFields) (s : State) : Host.Outcome State Fault Refusal := atomicStep (.atxch m) s

/-- ATCAS (R186): b if v = c bitwise, else v. -/
def execAtcas (m : MFields) (s : State) : Host.Outcome State Fault Refusal := atomicStep (.atcas m) s

end Sys2Proof.Machine
end

