-- ==== Sys2Proof/Config.lean ====
section
/-!
DEFINITION. What the manual leaves open or takes from a standard it only names, as constants with no
body: no proof can see a value of theirs. Each is named in the assumption log.
-/

namespace Sys2Proof.Config

/-- The rounded result of a function unit where the fixed precision of Machine/Transc.lean cannot
decide between two neighbours (log entry 3); `fn` the opcode, `raw` the operand's bits. -/
opaque undecided (fn raw mode : Nat) : Nat

/-- SHAKE256 of FIPS 202, taken to 64 bytes, over the bytes given (R301, R448, R449; log entry 4). -/
opaque shake256 (bytes : List Byte) : BitVec 512

/-- Whether an SLH-DSA-SHAKE-256s signature of FIPS 205 over a message verifies under a public key
(R301, R304, R448; log entry 4). -/
opaque slhVerify (key msg sig : List Byte) : Bool

/-- The device's own signature over an attestation report, under the identity key (R449; log entry 4). -/
opaque deviceSign (report : List Byte) : List Byte

/-- The result of a group of a dense record whose type byte names no dense type (Table 8-3), a function of the record and the
activation row (log entry 12). -/
opaque strayGroup (record row : Nat) : BitVec 32

/-- The lane of each die edge, before reduction to the 66, that packets of a source, destination and virtual channel take (R342, R351;
log entry 22). -/
opaque laneOf (src dst vc : Nat) : Nat

/-- The IO die, 0 or 1 by its last bit, on whose ports a connection of a context stands (R1; log entry 22). -/
opaque portDie (ctx conn : Nat) : Nat

/-- Brixper's public key, whose digest is fused (R448; log entry 4). -/
opaque vendorKey : List Byte

/-- The boot measurement of an attestation report (R449; log entry 4). -/
opaque bootMeasure : BitVec 512

/-- What the Kiln lays at the end of a reroute (R355), a choice of its own each time (log entry 58). -/
opaque plan (n : Nat) : Plan

/-- A value the manual does not state, drawn anew each time (`n` is the draw's number; log entry 5). -/
opaque freeValue (n : Nat) : BitVec 512

end Sys2Proof.Config
end

