-- ==== Sys2Proof/Machine/Order.lean ====
section
/-!
DEFINITION. Ordering: what fences wait for in the memory path (R190, R191, R366), timestamps (R192, R377 to R379), barriers (R50,
R193) and WAITC (R194).
-/

namespace Sys2Proof.Machine

/-! ### Performed at a scope (R366) -/

/-- Classes of Table 6-11 that a request belongs to: 0 core, 3 gather/atomic. -/
def ReqKind.inClass (k : ReqKind) (cls : Nat) : Bool :=
  match k with
  | .load | .load2 | .scalar => cls = 0
  | .gather => cls = 3
  | .eager => cls = 0 || cls = 3
  | .store | .deferred => false

/-- Whether a request is performed at a scope (Table 15-1): sent into the network at core scope, performed at its slices beyond. -/
def Req.performedAt (u : Units) (r : Req) (scope : Nat) : Bool :=
  r.lanes.all fun l => l.got.isSome || scope = 0 && u.carries (.ask r.id l.idx)

/-- Whether a store unit belongs to a class. -/
def StoreUnit.inClass (u : StoreUnit) (cls : Nat) : Bool :=
  u.lanes.any fun l => if cls = 3 then l.gath || l.op ≠ 0 else l.op = 0 && !l.gath

/-- Whether a store unit is performed at a scope. -/
def StoreUnit.performedAt (u : StoreUnit) (scope : Nat) : Bool := if scope = 0 then u.sent else u.performed

/-- Whether every unit of an agent is performed at a scope. -/
def Fabric.unitsDone (f : Fabric) (who : Agent) (scope : Nat) : Bool :=
  f.units.stores.all fun u => !u.whos.contains who || u.performedAt scope

/-- Whether every core or gather/atomic access of a core numbered below `n` is performed at a scope. -/
def Fabric.accessesDone (f : Fabric) (c cls scope n : Nat) : Bool :=
  (f.units.reqs.all fun r => r.who.core ≠ c || n ≤ r.id || !r.kind.inClass cls || Req.performedAt f.units r scope) &&
    f.units.stores.all fun u => u.core ≠ c || n ≤ u.id || !u.inClass cls || u.performedAt scope

/-- Whether the lower slots of a block whose accesses a fence orders have issued and are performed at a scope; `sel`
chooses them. -/
def Fabric.lowerDone (f : Fabric) (b : Block) (e : Exec) (slot scope : Nat) (sel : Instr → Bool) : Bool :=
  b.instrs.all fun s =>
    !(s.1 < slot && sel s.2) || e.done.contains s.1 ||
      (match f.reqOf e.id s.1 with | some r => Req.performedAt f.units r scope | none => false)

/-- Whether an instruction's requests belong to a class. -/
def requestIn (cls : Nat) (i : Instr) : Bool :=
  match fieldsOf i with
  | some (.m _) => (isEager i || (reqKind i).isLoad) && (reqKind i).inClass cls
  | _ => false

/-- The number below which accesses count as issued before a fence: that of its first offer. -/
def Issue.bound (x : Issue) (f : Fabric) : Nat := sget f.units.nextId x.exec.fences x.slot

/-- A fence not yet satisfied stays in its slot, with the number of its first offer. -/
def Issue.hold (x : Issue) (f : Fabric) : Fabric :=
  f.modCore x.who.core fun k => k.modExec x.who fun e => { e with fences := sset e.fences x.slot (x.bound f) }

/-- A fence satisfied: its slot completes; an actor's next firing waits for this firing's own unit at the scope
(R191). -/
def Issue.fenced (x : Issue) (scope : Nat) (next : Bool) (f : Fabric) : Fabric :=
  let f := x.noResult f
  match x.who with
  | .actor c a =>
    if next then f.modCore c fun k => k.modActor a fun y =>
      { y with fence := some (max scope (y.fence.getD 0)) }
    else f
  | _ => f

/-! ### Timestamps -/

/-- TSET (R192, R379). -/
def execTset (d : DFields) (s : State) : Host.Outcome State Fault Refusal :=
  issueStep (.tset d) (fun x f =>
    let v : Word := BitVec.ofNat 64 (elem 64 x.a 0)
    if x.exec.tstamp.isSome then x.fault 0x0C 0 0 f
    else if v < (f.region (f.core x.who.core).regionId).horizon then x.fault 0x0E v.toNat 0 f
    else (x.noResult f).modCore x.who.core fun k => k.modExec x.who fun e => { e with tstamp := some v }) s

/-- TGET (R192): TSTAMP and HORIZON as at firing start, where no TSET has executed. -/
def execTget (d : DFields) (s : State) : Host.Outcome State Fault Refusal :=
  issueStep (.tget d) (fun x f =>
    x.result (ofVals 64 [2 ^ 64 - 1, (sget 0 x.exec.snap.ctl 0x013).toNat]) fNone f) s

/-! ### Barriers -/

/-- A barrier of a core. -/
def Core.bar (k : Core) (b : Nat) : Bar := sget {} k.bars b

/-- One arrival at a barrier (R50): the phase flips when the expected count is reached. -/
def Core.arrive (k : Core) (b : Nat) : Core :=
  let x := k.bar b
  let y : Bar := if x.arrived + 1 ≥ sget 1 k.plane.bars b then ⟨0, !x.phase⟩ else ⟨x.arrived + 1, x.phase⟩
  { k with bars := sset k.bars b y }

/-- The phase a sequencer recorded at its latest arrival at a barrier (R193). -/
def Core.recorded (k : Core) (b : Nat) : Bool := sget false k.seq.phases b

/-- A sequencer's arrival: the phase it sees is recorded. -/
def Core.seqArrive (k : Core) (b : Nat) : Core :=
  let p := (k.bar b).phase
  let k := k.arrive b
  { k with seq := { k.seq with phases := sset k.seq.phases b p } }

/-- BARA (R193). -/
def execBara (d : DFields) (s : State) : Host.Outcome State Fault Refusal :=
  issueStep (.bara d) (fun x f =>
    let b := d.imm.toNat % 32
    match x.who with
    | .actor _ _ => x.buffer (.arrive b) f
    | _ =>
      if f.unitsDone x.who 0 then
        (x.noResult (f.modCore x.who.core fun k => k.seqArrive b)).modCore x.who.core fun k =>
          k.modExec x.who fun e => { e with acted := true }
      else f) s

/-- BARW (R193): complete at once when the phase already differs from the one recorded. -/
def execBarw (d : DFields) (s : State) : Host.Outcome State Fault Refusal :=
  issueStep (.barw d) (fun x f =>
    let b := d.imm.toNat % 32
    let k := f.core x.who.core
    if (k.bar b).phase ≠ k.recorded b then x.noResult f else x.wait (.bar b (k.recorded b)) f) s

/-- BARAW (R193): an arrival, then the wait of BARW. -/
def execBaraw (d : DFields) (s : State) : Host.Outcome State Fault Refusal :=
  issueStep (.baraw d) (fun x f =>
    let b := d.imm.toNat % 32
    if !f.unitsDone x.who 0 then f
    else
      let f := f.modCore x.who.core fun k =>
        (k.seqArrive b).modExec x.who fun e => { e with acted := true }
      let k := f.core x.who.core
      if (k.bar b).phase ≠ k.recorded b then x.noResult f else x.wait (.bar b (k.recorded b)) f) s

/-- Whether OUTSTANDING is within the four limits of imm16 (R194); a limit of 15 means any count. -/
def Counts.within (n : Counts) (limits : Nat) : Bool :=
  let ok (v i : Nat) : Bool := field limits (4 * i + 3) (4 * i) = 15 || v ≤ field limits (4 * i + 3) (4 * i)
  ok n.ld 0 && ok n.st 1 && ok n.cp 2 && ok n.mx 3

/-- WAITC (R194). -/
def execWaitc (d : DFields) (s : State) : Host.Outcome State Fault Refusal :=
  issueStep (.waitc d) (fun x f =>
    if (f.core x.who.core).counts.within d.imm.toNat then x.noResult f else x.wait (.count d.imm.toNat) f) s

end Sys2Proof.Machine
end

