-- ==== Sys2Proof/Machine/Control.lean ====
section
/-!
DEFINITION. Block control: branches and HALT (R198 to R200), g and control registers (R42, R43, R201, R202), TRAP (R203),
RFT (R206) and EVWAIT (R207). A branch and an MTK act at the end of their block (Machine/Sequencer.lean).
-/

namespace Sys2Proof.Machine

/-! ### Branches -/

/-- The choice of a sequencer block's branch recorded. -/
def Issue.choose (x : Issue) (c : Choice) (f : Fabric) : Fabric :=
  (x.noResult f).modCore x.who.core fun k => k.modExec x.who fun e => { e with choice := some c }

/-- BR (R198). -/
def execBr (d : DFields) (s : State) : Host.Outcome State Fault Refusal :=
  issueStep (.br d) (fun x f => x.choose (.goto (d.imm.toNat % 1024)) f) s

/-- BRC (R198): block X when bytes 0 to 7 of A are not all zero, else the next index. -/
def execBrc (d : DFields) (s : State) : Host.Outcome State Fault Refusal :=
  issueStep (.brc d) (fun x f =>
    x.choose (.goto (if elem 64 x.a 0 ≠ 0 then d.imm.toNat % 1024 else x.exec.block + 1)) f) s

/-- BRX (R198): X plus bytes 0 to 7 of A read as z64. -/
def execBrx (d : DFields) (s : State) : Host.Outcome State Fault Refusal :=
  issueStep (.brx d) (fun x f => x.choose (.goto (d.imm.toNat % 1024 + elem 64 x.a 0)) f) s

/-- CALL (R198). -/
def execCall (d : DFields) (s : State) : Host.Outcome State Fault Refusal :=
  issueStep (.call d) (fun x f => x.choose (.call (d.imm.toNat % 1024)) f) s

/-- RET (R198). -/
def execRet (d : DFields) (s : State) : Host.Outcome State Fault Refusal :=
  issueStep (.ret d) (fun x f => x.choose .ret f) s

/-- RFT (R198, R206): to the saved return point, or with source A code 0 to the index in A.e0. -/
def execRft (d : DFields) (s : State) : Host.Outcome State Fault Refusal :=
  issueStep (.rft d) (fun x f => x.choose (.rft (if d.srcA = 0 then some (elem 64 x.a 0) else none)) f) s

/-- HALT (R200). -/
def execHalt (d : DFields) (s : State) : Host.Outcome State Fault Refusal :=
  issueStep (.halt d) (fun x f => x.choose .halt f) s

/-! ### Registers -/

/-- A token whose element 0 is a 64-bit value, the rest zero (R201). -/
def wordTok (v : Word) : Row := ofVals 64 [v.toNat]

/-- Sum over the tile groups of a counter, saturating (R42). -/
def Core.mxSum (k : Core) (g : Tile → Nat) : Nat := min ((k.mx.tiles.map fun p => g p.2).sum) 0xFFFFFFFF

/-- OUTSTANDING (Table 1-9). -/
def Counts.word (n : Counts) : Word := BitVec.ofNat 64 (n.ld + n.st <<< 16 + n.cp <<< 32 + n.mx <<< 48)

/-- A control register of core, group, region or module scope (Table 1-7); another number reads zero. -/
def Fabric.ctlShared (f : Fabric) (c num : Nat) : Word :=
  let k := f.core c
  let g (p : Group → Nat) : Word := match k.group with | some g => BitVec.ofNat 64 (p g) | none => 0
  match num with
  | 0x000 => BitVec.ofNat 64 (c % 128)
  | 0x001 => BitVec.ofNat 64 (dieOf c)
  | 0x003 => g Group.stage
  | 0x004 => g Group.group
  | 0x005 => g Group.context
  | 0x011 => k.dbg.retired
  | 0x013 => (f.region k.regionId).horizon
  | 0x014 => f.units.ptp
  | 0x031 => BitVec.ofNat 64 (k.mxSum Tile.sat)
  | 0x032 => BitVec.ofNat 64 (k.mxSum Tile.nan)
  | 0x033 => BitVec.ofNat 64 (k.mxSum Tile.bso)
  | 0x034 => k.dbg.hit.setWidth 64
  | 0x035 => k.dbg.patches
  | _ => 0

/-- The registers of sequencer scope that MTK writes: HANDLER, the trap registers, STACK_OVF and WP_INFO. -/
def seqScope (num : Nat) : Bool := (0x020 ≤ num && num ≤ 0x027) || num = 0x037

/-- A control register as a sequencer block reads it (R201). -/
def Fabric.ctlSeq (f : Fabric) (c num : Nat) : Word :=
  let k := f.core c
  match num with
  | 0x002 => 0xFFFF
  | 0x010 => k.seq.count
  | 0x012 => BitVec.allOnes 64
  | 0x030 => k.seq.fpx.setWidth 64
  | 0x036 => k.counts.word
  | n => if seqScope n then sget 0 k.seq.ctl n else f.ctlShared c n

/-- A control register as an actor's firing reads it, taken at its start (R201); TSTAMP is not among them. -/
def Fabric.ctlActor (f : Fabric) (c a num : Nat) : Word :=
  match num with
  | 0x002 => BitVec.ofNat 64 (a / 4)
  | 0x010 => ((f.core c).actor a).count
  | 0x030 => ((f.core c).actor a).fpx.setWidth 64
  | n => if seqScope n || n = 0x036 then 0 else f.ctlShared c n

/-- The control registers that a firing keeps from its start. -/
def Fabric.ctlSnap (f : Fabric) (c a : Nat) : Sparse Word :=
  [0x000, 0x001, 0x002, 0x003, 0x004, 0x005, 0x010, 0x011, 0x013, 0x014, 0x030, 0x031, 0x032, 0x033, 0x034, 0x035].map
    fun n => (n, f.ctlActor c a n)

/-- GRD (R201): gN as at the block's or the firing's start; g0 reads zero (R39). -/
def execGrd (d : DFields) (s : State) : Host.Outcome State Fault Refusal :=
  issueStep (.grd d) (fun x f =>
    let n := d.imm.toNat % 64
    let regs := match x.who with | .actor _ _ => x.exec.snap.g | _ => (f.core x.who.core).seq.g
    x.result (wordTok (if n = 0 then 0 else sget 0 regs n)) fNone f) s

/-- MFK (R201): at execution in the sequencer, as at firing start in an actor; TSTAMP is what this firing's TSET set
(R192; log entry 8). -/
def execMfk (d : DFields) (s : State) : Host.Outcome State Fault Refusal :=
  issueStep (.mfk d) (fun x f =>
    let n := d.imm.toNat % 4096
    let v := match x.who with
      | .actor _ _ =>
        if n = 0x012 then (match x.exec.tstamp with | some t => t | none => BitVec.allOnes 64)
        else sget 0 x.exec.snap.ctl n
      | w => f.ctlSeq w.core n
    x.result (wordTok v) fNone f) s

/-- The write of an MTK kept to the end of the block (R197, R201). -/
def mtkLater (d : DFields) (x : Issue) (f : Fabric) : Fabric := x.buffer (.mtk (d.imm.toNat % 4096) ⟨x.a, x.ember⟩) f

/-- MTK (R201). -/
def execMtk (d : DFields) (s : State) : Host.Outcome State Fault Refusal := issueStep (.mtk d) (mtkLater d) s

/-- MTK to FPX, which clears the flags written as one (R43). -/
def execFpxClear (d : DFields) (s : State) : Host.Outcome State Fault Refusal := issueStep (.fpxClear d) (mtkLater d) s

/-- MTK to WP_HIT, which clears the strike bits written as one (R42, R270). -/
def execWpHitClear (d : DFields) (s : State) : Host.Outcome State Fault Refusal :=
  issueStep (.wpHitClear d) (mtkLater d) s

/-- Bits of a sequencer-scope register that a write reaches (Tables 1-7, 7-3, 17-1, 19-3; R9). -/
def ctlMask (num : Nat) : Word :=
  match num with
  | 0x020 => 0x83FF
  | 0x021 => 0x3FFF
  | 0x022 => 0xFFFF
  | 0x023 => 0x3F0F
  | 0x024 => 0x03FF
  | 0x037 => 0xFFFFFFFF0000007F
  | _ => BitVec.allOnes 64

/-- A sequencer-scope register written. -/
def Core.setCtl (k : Core) (num : Nat) (v : Word) : Core :=
  { k with seq := { k.seq with ctl := sput 0 k.seq.ctl num (v &&& ctlMask num) } }

/-- An MTK write applied under its register's access code (R8, R42); a marked token is discarded (R404). -/
def Core.applyMtk (k : Core) (num : Nat) (t : Tok) : Core :=
  let v : Word := BitVec.ofNat 64 (elem 64 t.bits 0)
  if t.ember then k
  else if num = 0x030 then { k with seq := { k.seq with fpx := k.seq.fpx &&& ~~~(v.setWidth 5) } }
  else if num = 0x034 then { k with dbg := { k.dbg with hit := k.dbg.hit &&& ~~~(v.setWidth 8) } }
  else if seqScope num then k.setCtl num v
  else k

/-! ### TRAP and EVWAIT -/

/-- TRAP (R203): a firing aborts, or is trapped with TRAP counted as executed when pinned; a sequencer block completes
first, its lowest TRAP kept. -/
def execTrap (d : DFields) (s : State) : Host.Outcome State Fault Refusal :=
  issueStep (.trap d) (fun x f =>
    let code := d.imm.toNat
    match x.who with
    | .actor c a =>
      if f.canFault x.who x.slot && (f.core c).isPinned a then x.fault 0x01 code 0 (x.noResult f)
      else x.fault 0x01 code 0 f
    | _ =>
      (x.noResult f).modCore x.who.core fun k => k.modExec x.who fun e =>
        { e with soft := match e.soft with
            | some p => if p.1 < x.slot then some p else some (x.slot, code)
            | none => some (x.slot, code) }) s

/-- The events of Table 7-5 that a mask selects and that are present. -/
def Fabric.events (f : Fabric) (c mask time : Nat) : Nat :=
  let k := f.core c
  (if bitOf mask 0 && k.eng.tierEv && k.misses.any Miss.delegated then 1 else 0) + (if bitOf mask 1 && k.eng.strm ≠ 0 then 2 else 0) +
    (if bitOf mask 2 && time ≤ f.units.ptp.toNat then 4 else 0)

/-- The token an EVWAIT returns: the events and the STRM bitmap (R207). -/
def Core.eventTok (k : Core) (ev : Nat) : Row := ofVals 32 [ev, k.eng.strm]

/-- Events cleared as they are returned (R207; log entry 9). -/
def Core.clearEvents (k : Core) (ev : Nat) : Core :=
  { k with eng := { k.eng with
      tierEv := k.eng.tierEv && !bitOf ev 0
      strm := if bitOf ev 1 then 0 else k.eng.strm } }

/-- EVWAIT (R207). -/
def execEvwait (d : DFields) (s : State) : Host.Outcome State Fault Refusal :=
  issueStep (.evwait d) (fun x f =>
    let c := x.who.core
    let mask := d.imm.toNat % 16
    let time := elem 64 x.a 0
    let ev := f.events c mask time
    if ev = 0 then x.wait (.event mask time) f
    else (x.result ((f.core c).eventTok ev) fNone f).modCore c fun k => k.clearEvents ev) s

end Sys2Proof.Machine
end

