-- ==== Sys2Proof/Machine/ConfigOps.lean ====
section
/-!
DEFINITION. The configuration instructions (R209 to R226): the items of the kindling plane, the refusals of Table 7-7,
CSWAP's checks and CQUI.
-/

namespace Sys2Proof.Machine

/-! ### Parties of a window (R31, R213, R217, R223) -/

/-- The identity of an actor's port (Table 6-5). -/
def portIdent (key : Nat) : Nat := 1 <<< 28 + (key / 64) <<< 12 + (key / 16 % 4) <<< 8 + key % 16

/-- The identity of a stream, circuit or network party. -/
def partyIdent (kind index : Nat) : Nat := kind <<< 28 + index

/-- Whether an identity keeps Table 6-5. -/
def identOk (x : Nat) : Bool :=
  let kind := field x 31 28
  let pe := field x 19 12; let act := field x 9 8; let ix := field x 7 0
  field x 27 20 = 0 && field x 11 10 = 0 &&
    (match kind with
     | 0 => pe = 0 && act = 0 && ix = 0
     | 1 => ix < 16
     | 2 => pe = 0 && act = 0 && ix < 16
     | 3 => pe = 0 && act = 0
     | 4 => pe = 0 && act = 0 && ix = 0
     | 5 => pe = 0 && act = 0 && ix = 0
     | _ => false)

/-- The port bound to a window as its filler (`out`) or reader. -/
def Plane.portOf (p : Plane) (w : Nat) (out : Bool) : Option Nat :=
  (p.ports.find? fun q => q.2.win = w && q.2.out = out).map Prod.fst

/-- The route attached to a landing window: an inbound end fills it, an outbound end reads it. -/
def Plane.routeOf (p : Plane) (w : Nat) (fills : Bool) : Option Nat :=
  (p.ends.find? fun q => q.2.kind = 0 && q.2.obj = w && (q.1 % 2 = 1) = fills).map fun q => q.1 / 2

/-- The filler identity (`out`) or reader identity of a window: its port, its circuit, or the identity CWIN gave. -/
def Plane.party (p : Plane) (w : Nat) (out : Bool) : Nat :=
  match p.portOf w out with
  | some k => portIdent k
  | none => match p.routeOf w out with
    | some r => partyIdent 3 r
    | none => match sfind p.wins w with
      | some c => if out then c.filler else c.reader
      | none => 0

/-- Whether a side of a window is held by a party other than identity `me`, the binding of port `key` left out. -/
def Plane.heldBy (p : Plane) (w : Nat) (out : Bool) (key me : Nat) : Bool :=
  (p.ports.any fun q => q.1 ≠ key && q.2.win = w && q.2.out = out) || (p.routeOf w out).isSome ||
    (match sfind p.wins w with
     | some c => (let g := if out then c.filler else c.reader; g ≠ 0 && g ≠ me) || c.landing = some (!out)
     | none => false) ||
    (out && p.patchLog = some w)

/-- Whether the identity that a CWIN gives a side of a window disagrees with the party that already holds it: its port, its
circuit, or the core as filler of the patch log (R31). -/
def Plane.clash (p : Plane) (w : Nat) (out : Bool) (ident : Nat) : Bool :=
  ident ≠ 0 &&
    (match p.portOf w out with
     | some q => portIdent q ≠ ident
     | none => match p.routeOf w out with
       | some r => partyIdent 3 r ≠ ident
       | none => out && p.patchLog = some w)

/-! ### Checks of items -/

/-- Rows of the stack carve-out of the group being configured (R305). -/
def Core.stackRows (k : Core) (who : Agent) : Nat := match k.groupOf who with | some g => g.stack | none => 0

/-- Whether a window's rows overlap another window of the plane, the carve-out, or the end of the store (WIN_OVERLAP). -/
def Plane.overlaps (p : Plane) (stack w base cap : Nat) : Bool :=
  49152 - stack < base + cap ||
    p.wins.any fun q => q.1 ≠ w && base < q.2.base + q.2.cap && q.2.base < base + cap

/-- Whether a PE lies in a matrix rectangle. -/
def inRect (r : Nat × Nat × Nat × Nat) (pe : Nat) : Bool :=
  let x := pe % 16; let y := pe / 16
  r.1 ≤ x && x < r.1 + r.2.2.1 && r.2.1 ≤ y && y < r.2.1 + r.2.2.2

/-- The binding checks of an actor with its ports (R117, R214), the codes that fail. -/
def Plane.bindFails (p : Plane) (g : Option Group) (a : Nat) : List Nat :=
  match sfind p.actors a with
  | none => []
  | some cfg =>
    match g.bind fun g => g.blocks[cfg.block]? with
    | none => []
    | some b =>
      let ports := (List.range 16).filterMap fun n => (sfind p.ports (portKey a n)).map fun q => (n, q)
      (if (List.range 4).any fun d => b.usesLink d && (cfg.links.isNone || (neighbour (a / 4) d).isNone) then [0x25] else []) ++
      (if ports.any fun q => !q.2.out && !b.wrdBelow q.1 q.2.need then [0x26] else []) ++
      (if ports.any fun q => !b.directionOk q.1 q.2.out then [0x27] else []) ++
      (if ports.any fun q => q.2.out && q.2.need < b.fillCount q.1 then [0x0E] else []) ++
      (if inRect p.rect (a / 4) then [0x2A] else [])

/-- Elements of a token from `n` on that are not zero (R210). -/
def beyond (n : Nat) (t : Row) : Bool := t.toNat >>> (32 * n) ≠ 0

/-- The codes of a list of conditions that hold. -/
def failing (l : List (Bool × Nat)) : List Nat := l.filterMap fun p => if p.1 then some p.2 else none

/-- What an item's entry finds: the codes that fail whatever the plane holds, those that fail in the plane, and the plane
with the item. -/
structure Item where
  static : List Nat
  inPlane : Plane → List Nat := fun _ => []
  enter : Plane → Plane

/-- The plane to which a configuration instruction applies (R209): the kindling plane, or a copy of the active one. -/
def Core.target (k : Core) (who : Agent) : Plane :=
  match who, k.kindling with
  | .seq _, .empty => k.plane
  | _, _ => k.kplane

/-- The core with its kindling plane holding a plane; the program's first item takes EMPTY to PROGRAM (R209). -/
def Core.setTarget (k : Core) (who : Agent) (p : Plane) : Core :=
  match who, k.kindling with
  | .seq _, .empty => { k with kindling := .program, kplane := p }
  | _, _ => { k with kplane := p }

/-- CONFIG_REFUSED with the lowest failing code (R210). -/
def Issue.refuse (x : Issue) (m : CFields) (codes : List Nat) (f : Fabric) : Fabric :=
  x.fault 0x0F ((leastOf codes).getD 0x21 + m.obj.toNat <<< 8 + m.arg.toNat <<< 16) 0 f

/-- A configuration instruction (R209, R210): refused in the program's hands while a BIND plane is there; the first item of
a program makes the plane PROGRAM even when it is refused (log entry 10). -/
def configure (x : Issue) (m : CFields) (t : Item) (f : Fabric) : Fabric :=
  let k := f.core x.who.core
  let busy : Bool := match x.who with | .seq _ => k.kindling = .bind | _ => false
  let p := k.target x.who
  let codes := t.static ++ (if busy then [0x32] else t.inPlane p)
  if codes ≠ [] then
    if f.canFault x.who x.slot then
      x.refuse m codes (if busy then f else f.modCore x.who.core fun k => k.setTarget x.who p)
    else f
  else x.noResult (f.modCore x.who.core fun k => k.setTarget x.who (t.enter p))

/-! ### Windows, ports and actors -/

/-- CWIN (R212); a capacity below the need or make of a port bound to the window is refused as FIELD (R36). -/
def execCwin (m : CFields) (s : State) : Host.Outcome State Fault Refusal :=
  issueStep (.cwin m) (fun x f =>
    let w := m.obj.toNat
    let base := elem 32 x.a 0; let cap := elem 32 x.a 1; let fil := elem 32 x.a 2; let rd := elem 32 x.a 3
    let stack := (f.core x.who.core).stackRows x.who
    configure x m
      { static := failing [(m.arg ≠ 0 || 49152 ≤ base || cap = 0 || 4096 < cap || !identOk fil || !identOk rd ||
            beyond 4 x.a || x.b ≠ 0, 0x21)]
        inPlane := fun p => failing
          [(p.overlaps stack w base cap, 0x22), (p.clash w true fil || p.clash w false rd, 0x24),
           (p.ports.any fun q => q.2.win = w && cap < q.2.need, 0x21)]
        enter := fun p => { p with wins := sset p.wins w ⟨base, cap, fil, rd, none⟩ } } f) s

/-- WGROW (R216). -/
def execWgrow (m : CFields) (s : State) : Host.Outcome State Fault Refusal :=
  issueStep (.wgrow m) (fun x f =>
    let w := m.obj.toNat
    let cap := elem 32 x.a 0; let nb := elem 32 x.a 1
    let stack := (f.core x.who.core).stackRows x.who
    let base (p : Plane) : Nat := if nb = 0xFFFFFFFF then (match sfind p.wins w with | some c => c.base | none => 0) else nb
    configure x m
      { static := failing [(m.arg ≠ 0 || 4096 < cap || (49152 ≤ nb && nb ≠ 0xFFFFFFFF) || beyond 2 x.a || x.b ≠ 0, 0x21)]
        inPlane := fun p => match sfind p.wins w with
          | none => [0x23]
          | some c => failing [(p.overlaps stack w (base p) cap, 0x22), (cap ≤ c.cap, 0x30)]
        enter := fun p => match sfind p.wins w with
          | none => p
          | some c => { p with wins := sset p.wins w { c with base := base p, cap := cap } } } f) s

/-- CPORT (R213). -/
def execCport (m : CFields) (s : State) : Host.Outcome State Fault Refusal :=
  issueStep (.cport m) (fun x f =>
    let w := m.obj.toNat
    let port := field m.arg.toNat 3 0; let out := bitOf m.arg.toNat 6; let circ := bitOf m.arg.toNat 7
    let pe := elem 32 x.a 0; let need := elem 32 x.a 1; let rows := elem 32 x.a 2; let base := elem 32 x.a 3
    let a := pe * 4 + field m.arg.toNat 5 4
    let key := portKey a port
    let stack := (f.core x.who.core).stackRows x.who
    let g := (f.core x.who.core).groupOf x.who
    let landed (p : Plane) : Plane :=
      if circ then { p with wins := sset p.wins w ⟨base, rows, 0, 0, some out⟩ } else p
    let bound (p : Plane) : Plane :=
      let p := landed p
      { p with ports := sset p.ports key ⟨w, out, need⟩ }
    configure x m
      { static := failing
          [(255 < pe, 0x20),
           (beyond 4 x.a || x.b ≠ 0 ||
              (if circ then rows = 0 || 16 < rows || 49152 ≤ base || rows < need else rows ≠ 0 || base ≠ 0), 0x21)]
        inPlane := fun p =>
          failing
            [(circ && p.overlaps stack w base rows, 0x22),
             (!circ && (sfind p.wins w).isNone, 0x23),
             (!circ && (match sfind p.wins w with | some c => c.cap < need | none => false), 0x21),
             ((landed p).heldBy w out key (portIdent key) ||
                (circ && ((p.ports.any fun q => q.1 ≠ key && q.2.win = w) || (!out && p.patchLog = some w))), 0x24)] ++
            (if pe ≤ 255 then (bound p).bindFails g a else [])
        enter := bound } f) s

/-- The PE store checks of a CACTOR's block (R114, R214): BLOCK_INVALID comes before every refusal (R210). -/
def Group.actorBlock (g : Option Group) (n : Nat) : Option Block :=
  (g.bind fun g => g.blocks[n]?).bind fun b => if b.kind = 1 then some b else none

/-- CACTOR (R214, R215): two actors of one PE in one link set are refused as FIELD (log entry 11). DEDUCED (log entry 61): a block
of another kind is BLOCK_KIND (Table 7-7), not BLOCK_INVALID with reason 0x02. -/
def execCactor (m : CFields) (s : State) : Host.Outcome State Fault Refusal :=
  issueStep (.cactor m) (fun x f =>
    let a := m.obj.toNat * 4 + field m.arg.toNat 1 0
    let blk := elem 32 x.a 0; let pos := elem 32 x.a 1; let ls := elem 32 x.a 2
    let g := (f.core x.who.core).groupOf x.who
    let links : Option Nat := if ls = 0xFFFFFFFF then none else some ls
    let cfg : ActorCfg := ⟨blk, pos, links, bitOf m.arg.toNat 2⟩
    let bound (p : Plane) : Plane := { p with actors := sset p.actors a cfg }
    match Group.actorBlock g blk with
    | none =>
      configure x m
        { static := failing [(field m.arg.toNat 7 4 ≠ 0 || 3 < pos || (ls ≠ 0xFFFFFFFF && 15 < ls) || beyond 3 x.a || x.b ≠ 0,
              0x21), (true, 0x28)]
          enter := id } f
    | some b =>
      match b.validate true with
      | some addr => x.fault 0x90 addr 0 f
      | none =>
        configure x m
          { static := failing
              [(field m.arg.toNat 7 4 ≠ 0 || 3 < pos || (ls ≠ 0xFFFFFFFF && 15 < ls) || beyond 3 x.a || x.b ≠ 0, 0x21)]
            inPlane := fun p =>
              failing
                [(links.isSome && p.actors.any fun q => q.1 ≠ a && q.1 / 4 = a / 4 && q.2.links = links, 0x21),
                 (p.actors.any fun q => q.1 ≠ a && q.1 / 4 = a / 4 && q.2.store = pos && q.2.block ≠ blk, 0x29)] ++
                (bound p).bindFails g a
            enter := bound } f) s

/-- CACTOR with UNBIND (R214): the actor is removed and its ports are unbound. -/
def execCactorUnbind (m : CFields) (s : State) : Host.Outcome State Fault Refusal :=
  issueStep (.cactorUnbind m) (fun x f =>
    let a := m.obj.toNat * 4 + field m.arg.toNat 1 0
    configure x m
      { static := failing [(field m.arg.toNat 7 4 ≠ 0, 0x21)]
        enter := fun p =>
          { p with actors := sdel p.actors a, ports := p.ports.filter fun q => q.1 / 16 ≠ a } } f) s

/-! ### Routes and operators -/

/-- Inputs and outputs of an operator, by the opcode that configures it (Table 7-8, R220 to R222). -/
def operPorts (op : Nat) : Nat × Nat :=
  match op with
  | 0x2C5 => (2, 3)
  | 0x2C6 => (3, 1)
  | 0x2C7 => (3, 1)
  | 0x2C8 => (2, 1)
  | 0x2C9 => (2, 1)
  | _ => (1, 1)

/-- CROUTE (R217). -/
def execCroute (m : CFields) (s : State) : Host.Outcome State Fault Refusal :=
  issueStep (.croute m) (fun x f =>
    let inb := bitOf m.arg.toNat 0
    let e0 := elem 32 x.a 0; let depth := elem 32 x.a 1
    let kind := field e0 31 30; let obj := field e0 7 0; let inp := field e0 11 8
    let key := m.obj.toNat * 2 + (if inb then 1 else 0)
    let cfg : EndCfg := ⟨kind, obj, inp, if inb then 0 else depth⟩
    let sideBad (p : Plane) : Bool :=
      if kind = 0 then
        match sfind p.wins obj with
        | some c => c.landing ≠ some (!inb) || (p.portOf obj (!inb)).isNone
        | none => false
      else (kind = 1) ≠ inb
    let noSuch (p : Plane) : Bool :=
      kind ≠ 0 && (63 < obj || 2 < inp ||
        (match sfind p.opers obj with
         | some o => (if kind = 1 then (operPorts o.op).1 else (operPorts o.op).2) ≤ inp
         | none => false))
    configure x m
      { static := failing
          [(field m.arg.toNat 7 1 ≠ 0 || kind = 3 || field e0 29 12 ≠ 0 || (kind = 0 && inp ≠ 0) || beyond 2 x.a || x.b ≠ 0 ||
              (if inb then depth ≠ 0 else depth = 0 || 64 < depth), 0x21)]
        inPlane := fun p => failing
          [(noSuch p, 0x20), (kind = 0 && (sfind p.wins obj).isNone, 0x23), (kind = 0 && inb && p.patchLog = some obj, 0x24),
           (sideBad p || (match sfind p.ends key with
              | some o => o.kind ≠ kind || o.obj ≠ obj || o.inp ≠ inp
              | none => false) ||
              p.ends.any (fun q => q.1 ≠ key && q.2.kind = kind && q.2.obj = obj && q.2.inp = inp), 0x2D)]
        enter := fun p => { p with ends := sset p.ends key cfg } } f) s

/-- The item of an operator, with the checks that its entry adds to those all share. -/
def operItem (m : CFields) (op : Nat) (x : Issue) (bad : Bool) (inPlane : Plane → List Nat := fun _ => []) : Item :=
  { static := failing [(63 < m.obj.toNat, 0x20), (bad, 0x21)]
    inPlane := inPlane
    enter := fun p => { p with opers := sset p.opers m.obj.toNat ⟨op, m.arg.toNat, x.a, x.b⟩ } }

/-- CSTEER (R219). -/
def execCsteer (m : CFields) (s : State) : Host.Outcome State Fault Refusal :=
  issueStep (.csteer m) (fun x f =>
    configure x m (operItem m 0x2C5 x (m.arg ≠ 0 || x.a ≠ 0 || x.b ≠ 0)) f) s

/-- CMERGE (R219): e0 the CSTEER it closes, e1 the capacity of the arms' interiors. -/
def execCmerge (m : CFields) (s : State) : Host.Outcome State Fault Refusal :=
  issueStep (.cmerge m) (fun x f =>
    let t := operItem m 0x2C6 x (m.arg ≠ 0 || beyond 2 x.a || x.b ≠ 0)
    configure x m { t with static := t.static ++ failing [(63 < elem 32 x.a 0, 0x20)] } f) s

/-- CCARRY (R219). -/
def execCcarry (m : CFields) (s : State) : Host.Outcome State Fault Refusal :=
  issueStep (.ccarry m) (fun x f =>
    configure x m (operItem m 0x2C7 x (m.arg ≠ 0 || x.a ≠ 0 || x.b ≠ 0)) f) s

/-- CINV (R219). -/
def execCinv (m : CFields) (s : State) : Host.Outcome State Fault Refusal :=
  issueStep (.cinv m) (fun x f =>
    configure x m (operItem m 0x2C8 x (m.arg ≠ 0 || x.a ≠ 0 || x.b ≠ 0)) f) s

/-- Whether an inbound end is attached to an operator's input in a plane. -/
def Plane.fed (p : Plane) (op inp : Nat) : Bool :=
  p.ends.any fun q => q.1 % 2 = 1 && q.2.kind = 1 && q.2.obj = op && q.2.inp = inp

/-- CCHAIN (R220): levels, interval, credit depth, and per level a start, end and non-zero step. -/
def execCchain (m : CFields) (s : State) : Host.Outcome State Fault Refusal :=
  issueStep (.cchain m) (fun x f =>
    let l := elem 32 x.a 0; let ii := elem 32 x.a 1; let d := elem 32 x.a 2
    let t := operItem m 0x2C9 x (m.arg ≠ 0 || l = 0 || 4 < l || ii = 0 || 255 < ii || beyond 3 x.a || beyond (3 * l) x.b ||
      (List.range l).any fun j => elem 32 x.b (3 * j + 2) = 0)
    configure x m { t with inPlane := fun p => failing [(p.fed m.obj.toNat 1 && (d = 0 || 64 < d), 0x21)] } f) s

/-- CLOOP (R221): ARG[2:0] the level of its end token, A.e0 the interval. -/
def execCloop (m : CFields) (s : State) : Host.Outcome State Fault Refusal :=
  issueStep (.cloop m) (fun x f =>
    let ii := elem 32 x.a 0
    configure x m (operItem m 0x2CA x (field m.arg.toNat 7 3 ≠ 0 || field m.arg.toNat 2 0 = 0 || ii = 0 || 255 < ii ||
      beyond 1 x.a || x.b ≠ 0)) f) s

/-- CTURN (R222). -/
def execCturn (m : CFields) (s : State) : Host.Outcome State Fault Refusal :=
  issueStep (.cturn m) (fun x f =>
    configure x m (operItem m 0x2CB x (m.arg ≠ 0 || x.a ≠ 0 || x.b ≠ 0)) f) s

/-! ### Modes and descriptors -/

/-- CMODE with selector 0, and with an unassigned one, which is refused as MODE (R223). -/
def execCmodeMatrixRectangle (m : CFields) (s : State) : Host.Outcome State Fault Refusal :=
  issueStep (.cmodeMatrixRectangle m) (fun x f =>
    let e (i : Nat) : Nat := elem 32 x.a i
    let rect : Nat × Nat × Nat × Nat := if e 2 = 0 || e 3 = 0 then (0, 0, 0, 0) else (e 0, e 1, e 2, e 3)
    configure x m
      { static :=
          if m.arg ≠ 0 then [0x31]
          else failing [(m.obj ≠ 0, 0x20),
            (beyond 4 x.a || x.b ≠ 0 || 16 < rect.1 + rect.2.2.1 || 16 < rect.2.1 + rect.2.2.2, 0x21)]
        inPlane := fun p => failing [(m.arg = 0 && p.actors.any fun q => inRect rect (q.1 / 4), 0x2A)]
        enter := fun p => { p with rect := rect } } f) s

/-- CMODE with selector 1 (R178, R223): the core becomes the window's filler. -/
def execCmodePatchLogWindow (m : CFields) (s : State) : Host.Outcome State Fault Refusal :=
  issueStep (.cmodePatchLogWindow m) (fun x f =>
    let w := elem 32 x.a 0
    configure x m
      { static := failing [(m.obj ≠ 0 || (255 < w && w ≠ 0xFFFFFFFF), 0x20), (beyond 1 x.a || x.b ≠ 0, 0x21)]
        inPlane := fun p =>
          if w = 0xFFFFFFFF then []
          else failing [((sfind p.wins w).isNone, 0x23), (({ p with patchLog := none } : Plane).heldBy w true (2 ^ 32) 0, 0x24)]
        enter := fun p => { p with patchLog := if w = 0xFFFFFFFF then none else some w } } f) s

/-- CMODE with selector 2 (R50, R223). -/
def execCmodeBarrierCount (m : CFields) (s : State) : Host.Outcome State Fault Refusal :=
  issueStep (.cmodeBarrierCount m) (fun x f =>
    let n := elem 32 x.a 0
    configure x m
      { static := failing [(31 < m.obj.toNat, 0x20), (n = 0 || 1024 < n || beyond 1 x.a || x.b ≠ 0, 0x21)]
        enter := fun p => { p with bars := sset p.bars m.obj.toNat n } } f) s

/-- Whether a descriptor breaks a check of R224 (refusal DESC). -/
def Desc.bad (d : Desc) : Bool :=
  let w := fmtBytes d.fmt
  let scaled := d.scale ≠ 0
  18 < d.fmt || d.base % w ≠ 0 ||
    (List.range 4).any (fun k => 2 ^ 48 ≤ (d.str k).natAbs || (1 < d.ext k && d.str k = 0)) ||
    (d.fmt = 18 && d.ext 0 % 4 ≠ 0) || (scaled && 4 ≤ w) ||
    (scaled && d.gran ≠ (if w = 2 then 1 else 0)) || (!scaled && (d.fmt = 16 || d.fmt = 17)) ||
    (d.layout = 1 && (d.ext 0 % 16 ≠ 0 || d.ext 1 % 16 ≠ 0))

/-- Whether a reserved field of a descriptor is not zero (Table 7-10). -/
def Desc.reserved (d : Desc) : Bool :=
  rowBits d.hi 511 256 ≠ 0 || rowBits d.lo 511 384 ≠ 0 || rowBits d.lo 319 266 ≠ 0 || rowBits d.lo 127 120 ≠ 0 ||
    rowBits d.lo 63 56 ≠ 0 || (d.fmt ≤ 18 && 2 ^ (8 * fmtBytes d.fmt) ≤ d.pad)

/-- CDESC (R224). -/
def execCdesc (m : CFields) (s : State) : Host.Outcome State Fault Refusal :=
  issueStep (.cdesc m) (fun x f =>
    let d : Desc := ⟨x.a, x.b⟩
    configure x m
      { static := failing [(63 < m.obj.toNat, 0x20), (m.arg ≠ 0 || d.reserved, 0x21), (d.bad, 0x2F)]
        enter := fun p => { p with descs := sset p.descs m.obj.toNat d } } f) s

/-! ### CSWAP's checks (R215, R219, R225) -/

/-- Members of a link set in a plane. -/
def Plane.members (p : Plane) (n : Nat) : List Nat := skeys (p.actors.filter fun q => q.2.links = some n)

/-- The block of an actor in a plane. -/
def Plane.blockFor (p : Plane) (g : Option Group) (a : Nat) : Option Block :=
  (sfind p.actors a).bind fun c => g.bind fun g => g.blocks[c.block]?

/-- The member of a link set at a PE. -/
def memberAt (ms : List Nat) (pe : Option Nat) : Option Nat :=
  pe.bind fun q => ms.find? fun m => m / 4 = q

/-- Whether sends and reads differ on some link of a link set (LINK_COUNT). -/
def Plane.linkCountBad (p : Plane) (g : Option Group) (ms : List Nat) : Bool :=
  ms.any fun a => (List.range 4).any fun d =>
    match p.blockFor g a with
    | none => false
    | some b =>
      let other := memberAt ms (neighbour (a / 4) d)
      let ob := other.bind (p.blockFor g)
      let reads := match ob with | some q => (q.linkReads ((d + 2) % 4)).length | none => 0
      let sends := match ob with | some q => (q.linkSends ((d + 2) % 4)).length | none => 0
      (b.linkSends d).length ≠ reads || (b.linkReads d).length ≠ sends

/-- The data paths of a link set's joint graph: slot to slot, a node being member · 128 + slot. -/
def Plane.linkEdges (p : Plane) (g : Option Group) (ms : List Nat) : List (Nat × Nat) :=
  ms.flatMap fun a =>
    match p.blockFor g a with
    | none => []
    | some b =>
      (b.instrs.flatMap fun s =>
        (targetsOf s.2).filterMap fun t =>
          if 1 ≤ t / 128 && t / 128 ≤ 4 then some (a * 128 + s.1, a * 128 + t % 128) else none) ++
      (List.range 4).flatMap fun d =>
        match memberAt ms (neighbour (a / 4) d) with
        | none => []
        | some o => match p.blockFor g o with
          | none => []
          | some q => ((b.linkSends d).zip (q.linkReads ((d + 2) % 4))).map fun e => (a * 128 + e.1 / 2, o * 128 + e.2 / 4)

/-- Edges left when those out of nodes without a way in are taken away, `n` times over; some are left just when the graph
has a cycle. -/
def peel : Nat → List (Nat × Nat) → List (Nat × Nat)
  | 0, es => es
  | n + 1, es => peel n (es.filter fun e => es.any fun d => d.2 = e.1)

/-- Depth of a route's buffer: its outbound end in this plane or on another core. -/
def Fabric.routeDepth (f : Fabric) (c : Nat) (p : Plane) (route : Nat) : Nat :=
  match sfind p.ends (route * 2) with
  | some e => e.depth
  | none =>
    let reg := (f.core c).regionId
    let other := f.cores.findSome? fun q =>
      if q.2.regionId = reg then sfind q.2.plane.ends (route * 2)
      else match q.2.incoming with
        | some g => if g.region = reg then sfind q.2.kplane.ends (route * 2) else none
        | none => none
    match other with | some e => e.depth | none => 0

/-- Depth of the route into an operator's input; 0 when none is attached. -/
def Fabric.inputDepth (f : Fabric) (c : Nat) (p : Plane) (op inp : Nat) : Nat :=
  match p.ends.find? fun q => q.1 % 2 = 1 && q.2.kind = 1 && q.2.obj = op && q.2.inp = inp with
  | some q => f.routeDepth c p (q.1 / 2)
  | none => 0

/-- Whether a bound actor's block names a port that has no binding (PORT_UNBOUND). -/
def Plane.unbound (p : Plane) (g : Option Group) : Bool :=
  p.actors.any fun q =>
    match p.blockFor g q.1 with
    | some b => (List.range 16).any fun n => b.namesPort n && (sfind p.ports (portKey q.1 n)).isNone
    | none => false

/-- The failing checks that are marked at CSWAP in Table 7-7. -/
def Fabric.swapFails (f : Fabric) (c : Nat) (p : Plane) (g : Option Group) : List Nat :=
  let sets := (List.range 16).map p.members
  failing
    [(sets.any (p.linkCountBad g), 0x2B),
     (sets.any (fun ms => let es := p.linkEdges g ms; peel es.length es ≠ []), 0x2C),
     (p.opers.any (fun q => q.2.op = 0x2C6 && (f.inputDepth c p q.1 2 <
        f.inputDepth c p q.1 0 + f.inputDepth c p q.1 1 + elem 32 q.2.a 1)), 0x2E),
     (p.unbound g, 0x33)]

/-- CSWAP (R225): at once with an EMPTY plane; else checked, and then it waits for the drain. -/
def execCswap (m : CFields) (s : State) : Host.Outcome State Fault Refusal :=
  issueStep (.cswap m) (fun x f =>
    let k := f.core x.who.core
    let bad := failing [(m.obj ≠ 0 || field m.arg.toNat 7 1 ≠ 0, 0x21), (k.kindling = .bind, 0x32)]
    if bad ≠ [] then x.refuse m bad f
    else if k.kindling = .empty then x.noResult f
    else match f.swapFails x.who.core k.kplane k.group with
      | [] => x.wait .drain f
      | codes => x.refuse m codes f) s

/-- CSWAP with DISCARD (R225). -/
def execCswapDiscard (m : CFields) (s : State) : Host.Outcome State Fault Refusal :=
  issueStep (.cswapDiscard m) (fun x f =>
    let k := f.core x.who.core
    let bad := failing [(m.obj ≠ 0 || field m.arg.toNat 7 1 ≠ 0, 0x21), (k.kindling = .bind, 0x32)]
    if bad ≠ [] then x.refuse m bad f
    else x.noResult (f.modCore x.who.core fun k => { k with kindling := .empty, kplane := {} })) s

/-! ### Quiescence (R225, R226) -/

/-- Whether a CSWAP of the core waits for the drain; from its issue PEs start no firing. -/
def Core.swapping (k : Core) : Bool :=
  match k.seq.exec with | some e => e.waits.any fun w => w.2 = .drain | none => false

/-- Whether no firing is in progress on a core; one that is trapped without a delivery of its own is not (R422, R453). -/
def Core.noFiring (k : Core) : Bool :=
  k.actors.all fun q => match q.2.firing with | none => true | some y => y.phase = .trapped && y.release ≠ .rft

/-- Whether no token stands in links, operator buffers or outbound ends. -/
def Core.linksEmpty (k : Core) : Bool :=
  k.ends.all fun q =>
    q.2.out = [] && (q.2.recv = [] || (match sfind k.plane.ends q.1 with | some e => e.kind = 0 | none => true))

/-- Whether a generator runs a stream that is paused at a row boundary: a STRM while no firing is in progress during a CSWAP
(R225). -/
def Core.pausedStream (k : Core) (g : Gen) : Bool :=
  k.swapping && k.noFiring && g.wrote = [] && (match g.cur with | some q => q.op = 0x348 | none => false)

/-- Whether every copy command other than a paused stream has completed, and MX is zero. -/
def Core.copiesDone (k : Core) : Bool :=
  k.counts.cp = (k.eng.gens.filter fun q => k.pausedStream q.2).length && k.counts.mx = 0

/-- Whether the active plane is drained (R225); a bank port queue holds nothing between two turns. -/
def Core.drained (k : Core) : Bool := k.noFiring && k.linksEmpty && k.copiesDone

/-- CQUI (R226). -/
def execCqui (m : CFields) (s : State) : Host.Outcome State Fault Refusal :=
  issueStep (.cqui m) (fun x f =>
    let k := f.core x.who.core
    if m.obj ≠ 0 || m.arg ≠ 0 then x.refuse m [0x21] f
    else
      let bit (b : Bool) (i : Nat) : Nat := if b then 2 ^ i else 0
      let st := match k.kindling with | .empty => 0 | .program => 1 | .bind => 2
      x.result (ofVals 32 [bit k.noFiring 0 + bit k.linksEmpty 1 + 4 + bit k.copiesDone 3 + bit k.drained 4, st]) fNone f) s

end Sys2Proof.Machine
end

