-- ==== Sys2Proof/Machine/Transc.lean ====
section
/-!
DEFINITION. FEXP2, FLOG2, FSIG and FTANH (R74, R152, R153, Table 2-9): the exact mathematical result
rounded once. A result that is not representable is irrational, so it is enclosed between two
fixed-point bounds of 640 fraction bits and rounded when both bounds round alike; where they do not,
the result is the free value `Config.undecided` (log entry 3).
-/

namespace Sys2Proof.Machine

/-- Fraction bits of the enclosures. -/
def prec : Nat := 640

/-- One in fixed point. -/
def fixOne : Nat := 2 ^ prec

/-- Bound on the error of an enclosure, in units of 2^-640. -/
def slack : Nat := 2 ^ 20

/-- Σ t^(2k+1)/(2k+1) for a fixed-point t below 1/2: atanh t. -/
def atanhFix (t : Nat) : Nat :=
  let t2 := (t * t) >>> prec
  ((List.range 330).foldl
    (fun (acc : Nat × Nat) k => (acc.1 + acc.2 / (2 * k + 1), (acc.2 * t2) >>> prec)) (0, t)).1

/-- ln 2 in fixed point: 2 · atanh(1/3). -/
def ln2Fix : Nat := 2 * atanhFix (fixOne / 3)

/-- e^r for a fixed-point r below 1. -/
def expFix (r : Nat) : Nat :=
  ((List.range 160).foldl
    (fun (acc : Nat × Nat) k => (acc.1 + acc.2, ((acc.2 * r) >>> prec) / (k + 1))) (0, fixOne)).1

/-- A fixed-point magnitude m·2^e · 2^640, cut to an integer. -/
def toFix (m : Nat) (e : Int) : Nat := (cutAt m e (-prec)).1

/-- e^y for a fixed-point y, possibly negative: (s, n) with e^y ≈ s·2^(n − 640), 1 ≤ s/2^640 < 2. -/
def expParts (y : Int) : Nat × Int :=
  let n := y / ln2Fix
  (expFix (y - n * ln2Fix).toNat, n)

/-- The rounding of an irrational value known to lie within `slack` of `x · 2^e`. -/
def roundNear (f : Fmt) (mode fn raw : Nat) (neg : Bool) (x : Nat) (e : Int) : Nat × Fpx :=
  let lo := roundFin f mode neg (2 * (x - slack) + 1) (e - 1)
  let hi := roundFin f mode neg (2 * (x + slack) + 1) (e - 1)
  if lo = hi then lo
  else (Config.undecided fn raw mode % 2 ^ fmtBits f, fNX)

/-- 2^a. -/
def fExp2V (f : Fmt) (mode raw : Nat) (a : FVal) : Nat × Fpx :=
  match a with
  | .nan s => (canonNaN f, flagIf s fNV)
  | .inf neg => if neg then (zeroBits f false, fNone) else (infBits f false, fNone)
  | .fin neg m e =>
    let (ip, fp, r) := cutAt m e 0
    let sgn : Int := if neg then -1 else 1
    if fp = 0 then roundFin f mode false 1 (sgn * min ip (2 ^ 20))
    else
      let x : Int := sgn * (toFix m e : Int)
      let k := x / (fixOne : Int)
      let s := expFix (((x - k * fixOne).toNat * ln2Fix) >>> prec)
      let _ := r
      roundNear f mode 0x103 raw false s (k - prec)

/-- log2 a. -/
def fLog2V (f : Fmt) (mode raw : Nat) (a : FVal) : Nat × Fpx :=
  match a with
  | .nan s => (canonNaN f, flagIf s fNV)
  | .inf neg => if neg then (canonNaN f, fNV) else (infBits f false, fNone)
  | .fin neg m e =>
    if m = 0 then (infBits f true, fDZ)
    else if neg then (canonNaN f, fNV)
    else
      let l := Nat.log2 m
      let k := e + l
      if m = 2 ^ l then
        if k = 0 then (zeroBits f false, fNone) else roundFin f mode (k < 0) k.natAbs 0
      else
        let t := ((m - 2 ^ l) <<< prec) / (m + 2 ^ l)
        let lz := ((2 * atanhFix t) <<< prec) / ln2Fix
        let x : Int := k * fixOne + lz
        roundNear f mode 0x104 raw (x < 0) x.natAbs (-prec)

/-- 1/(1 + e^−a). -/
def fSigV (f : Fmt) (mode raw : Nat) (a : FVal) : Nat × Fpx :=
  match a with
  | .nan s => (canonNaN f, flagIf s fNV)
  | .inf neg => if neg then (zeroBits f false, fNone) else roundFin f mode false 1 0
  | .fin neg m e =>
    if m = 0 then roundFin f mode false 1 (-1)
    else if 300 < (cutAt m e 0).1 then
      if neg then roundFin f mode false 1 (-430) else roundFin f mode false (2 ^ 430 - 1) (-430)
    else
      let x := toFix m e
      let (s, n) := expParts (if neg then (x : Int) else -(x : Int))
      let d := fixOne + (if 0 ≤ n then s <<< n.toNat else s >>> (-n).toNat)
      roundNear f mode 0x105 raw false ((fixOne * fixOne) / d) (-prec)

/-- tanh a. -/
def fTanhV (f : Fmt) (mode raw : Nat) (a : FVal) : Nat × Fpx :=
  match a with
  | .nan s => (canonNaN f, flagIf s fNV)
  | .inf neg => roundFin f mode neg 1 0
  | .fin neg m e =>
    if m = 0 then (zeroBits f neg, fNone)
    -- below 2^-60 the result lies between a·(1 − a²) and a: just under a in magnitude
    else if e + Nat.log2 m < -60 then roundFin f mode neg (m * 2 ^ 60 - 1) (e - 60)
    else if 100 < (cutAt m e 0).1 then roundFin f mode neg (2 ^ 430 - 1) (-430)
    else
      let (s, n) := expParts (2 * toFix m e : Nat)
      let big := s <<< n.toNat
      roundNear f mode 0x106 raw neg (((big - fixOne) <<< prec) / (big + fixOne)) (-prec)

end Sys2Proof.Machine
end

