-- ==== Sys2Proof/Machine/Convert.lean ====
section
/-!
DEFINITION. The tapered formats (R61 to R64), block scales (R66, R67) and the conversions of Table 2-6
and R65, element by element.
-/

namespace Sys2Proof.Machine

/-- A tapered format: magnitude bits, exponent bits, regime scale. -/
structure Taper where
  nb : Nat
  eb : Nat
  sc : Nat
  deriving DecidableEq, Repr

/-- t8 (code 10) or t6 (any other code). -/
def taperOf (ty : BitVec 4) : Taper := if ty = 10 then ⟨7, 2, 4⟩ else ⟨5, 1, 2⟩

/-- Length of the run of bits equal to the top bit, counted from bit `k - 1` down (R61). -/
def regimeRun (mag : Nat) (top : Bool) : Nat → Nat
  | 0 => 0
  | k + 1 => if bitOf mag k == top then 1 + regimeRun mag top k else 0

/-- Magnitude m·2^e of a non-zero tapered magnitude code (R61). -/
def taperMag (t : Taper) (mag : Nat) : Nat × Int :=
  let top := bitOf mag (t.nb - 1)
  let k := regimeRun mag top t.nb
  let r : Int := if top then (k : Int) - 1 else -(k : Int)
  let left := t.nb - k - 1
  let have' := min left t.eb
  let ex := ((mag >>> (left - have')) % 2 ^ have') <<< (t.eb - have')
  let b := left - have'
  (2 ^ b + mag % 2 ^ b, t.sc * r + ex - b)

/-- Decoding of a tapered code; a t6 reader ignores bits [7:6] (R62, R64). -/
def taperVal (t : Taper) (raw : Nat) : FVal :=
  let mag := raw % 2 ^ t.nb
  let neg := bitOf raw t.nb
  if mag = 0 then (if neg then .nan false else .fin false 0 0)
  else let (m, e) := taperMag t mag; .fin neg m e

/-- Order of two positive magnitudes m·2^e. -/
def magLe (m1 : Nat) (e1 : Int) (m2 : Nat) (e2 : Int) : Bool :=
  let e0 := min e1 e2
  m1 <<< (e1 - e0).toNat ≤ m2 <<< (e2 - e0).toNat

/-- The largest magnitude code of at most `k` whose value is at most m·2^e; 0 when there is none. -/
def taperFloor (t : Taper) (m : Nat) (e : Int) : Nat → Nat
  | 0 => 0
  | k + 1 =>
    let (mc, ec) := taperMag t (k + 1)
    if magLe mc ec m e then k + 1 else taperFloor t m e k

/-- Conversion into t8 or t6, in the steps of R63. -/
def taperRound (t : Taper) (v : FVal) : Nat × Fpx :=
  let top := 2 ^ t.nb - 1
  match v with
  | .nan _ => (2 ^ t.nb, fNone)
  | .inf neg => ((if neg then 2 ^ t.nb else 0) + top, fOF ||| fNX)
  | .fin neg m e =>
    let s := if neg then 2 ^ t.nb else 0
    let (m1, e1) := taperMag t 1
    let (mt, et) := taperMag t top
    if m = 0 then (0, fNone)
    else if !magLe m1 e1 (2 * m) e then (0, fNX ||| fUF)
    else if !magLe m1 e1 m e then (s + 1, fNX ||| fUF)
    else if !magLe m e mt et then (s + top, fOF ||| fNX)
    else
      let c := taperFloor t m e top
      let (mc, ec) := taperMag t c
      if magLe m e mc ec then (s + c, fNone)
      else
        let (md, ed) := taperMag t (c + 1)
        -- twice the value against the sum of the two neighbours
        let e0 := min e (min ec ed)
        let x2 := 2 * (m <<< (e - e0).toNat)
        let sum := mc <<< (ec - e0).toNat + md <<< (ed - e0).toNat
        let c' := if x2 < sum then c else if sum < x2 then c + 1 else if c % 2 = 0 then c else c + 1
        (s + c', fNX)

/-- The value of an element of types 0 to 14. -/
def valOf (ty : BitVec 4) (raw : Nat) : FVal :=
  if tyInt ty then
    let x := intOf ty raw
    .fin (x < 0) x.natAbs 0
  else if ty = 10 || ty = 11 then taperVal (taperOf ty) raw
  else unpack (fmtOf ty) raw

/-- A finite value rounded to an integer by the mode, with its inexactness. -/
def roundToInt (mode : Nat) (neg : Bool) (m : Nat) (e : Int) : Int × Bool :=
  -- a magnitude below 1/8 rounds as any other such magnitude does
  let (m, e) := if m ≠ 0 && e + Nat.log2 m < -3 then (1, -4) else (m, e)
  let (q, rem, r) := cutAt m e 0
  let q' : Int := if roundsUp mode neg q rem r then q + 1 else q
  (if neg then -q' else q', rem != 0)

/-- The integer column of Table 2-6. -/
def valToInt (signed : Bool) (w mode : Nat) (v : FVal) : Nat × Fpx :=
  match v with
  | .nan _ => (0, fNV)
  | .inf neg => (wrapTo w (if neg then intMin signed w else intMax signed w), fNV)
  | .fin neg m e =>
    if m ≠ 0 && 80 < e + Nat.log2 m then
      (wrapTo w (if neg then intMin signed w else intMax signed w), fNV)
    else
      let (x, ix) := roundToInt mode neg m e
      if x < intMin signed w then (wrapTo w (intMin signed w), fNV)
      else if intMax signed w < x then (wrapTo w (intMax signed w), fNV)
      else (wrapTo w x, flagIf ix fNX)

/-- A value converted to a type, by Table 2-6 and R63. -/
def valToType (ty : BitVec 4) (mode : Nat) (v : FVal) : Nat × Fpx :=
  if tyInt ty then valToInt (tySigned ty) (tyBits ty) mode v
  else if ty = 10 || ty = 11 then taperRound (taperOf ty) v
  else roundVal (fmtOf ty) mode v

/-- Whether a pair of types is an integer-to-integer narrowing (R65, R154). -/
def narrows (src dst : BitVec 4) : Bool := tyInt src && tyInt dst && tyBits dst < tyBits src

/-- An integer taken into an integer type: a narrowing that does not fit wraps, or saturates under mod[2], and raises no flag
(R65). DEDUCED (log entry 48): outside a narrowing a value that does not fit keeps its low bits. -/
def intToInt (src dst : BitVec 4) (sat : Bool) (x : Int) : Nat :=
  wrapTo (tyBits dst) (if sat && narrows src dst then clampInt (tySigned dst) (tyBits dst) x else x)

/-- One element converted (R65, R155): integer to integer raises no flag; every other pair is Table 2-6. -/
def convElem (src dst : BitVec 4) (mode : Nat) (sat : Bool) (raw : Nat) : Nat × Fpx :=
  if tyInt src && tyInt dst then (intToInt src dst sat (intOf src raw), fNone)
  else valToType dst mode (valOf src raw)

/-- A scaled value converted (R156): by Table 2-6, but a narrowing between integer types takes the value rounded by the mode and,
where that does not fit, wraps or saturates as R65 says, with no flag. DEDUCED (log entry 48): NX when it fits inexactly. -/
def convScaled (src dst : BitVec 4) (mode : Nat) (sat : Bool) (v : FVal) : Nat × Fpx :=
  match v with
  | .fin neg m e =>
    let (x, ix) := roundToInt mode neg m e
    let fits := intMin (tySigned dst) (tyBits dst) ≤ x && x ≤ intMax (tySigned dst) (tyBits dst)
    if narrows src dst then (intToInt src dst sat x, flagIf (ix && fits) fNX) else valToType dst mode v
  | v => valToType dst mode v

/-- A block scale applied exactly (R66, R67): the E8 code 0xFF is a NaN; `inv` divides (R156). -/
def scaleVal (code : Nat) (inv : Bool) (v : FVal) : FVal :=
  if code = 0xFF then .nan false
  else match v with
    | .fin neg m e => .fin neg m (if inv then e + 127 - code else e + code - 127)
    | v => v

end Sys2Proof.Machine
end

