-- ==== Sys2Proof/Machine/Plan.lean ====
section
/-!
DEFINITION. Which elements of a tensor stand in each window row that a copy command moves (R246 to R248, R252, R253,
R256), which 64-byte lines they touch, and how a row is formed from them (R334, R335).
-/

namespace Sys2Proof.Machine

/-- Element indices i0 to i3, which may lie outside the extents (R246). -/
abbrev Index := Int × Int × Int × Int

/-- Whether an element lies within the extents. -/
def Desc.inExt (d : Desc) (i : Index) : Bool :=
  0 ≤ i.1 && i.1 < d.ext 0 && 0 ≤ i.2.1 && i.2.1 < d.ext 1 && 0 ≤ i.2.2.1 && i.2.2.1 < d.ext 2 && 0 ≤ i.2.2.2 &&
    i.2.2.2 < d.ext 3

/-- Address and byte count of an in-extent element. -/
def Desc.at (d : Desc) (i : Index) : Nat × Nat := d.elemAddr i.1.toNat i.2.1.toNat i.2.2.1.toNat i.2.2.2.toNat

/-- Bit offset of an element within its first byte: packed t6 alone is not byte-aligned (R64). -/
def Desc.bitOff (d : Desc) (i : Index) : Nat := if d.fmt = 18 then 6 * (i.1.toNat % 4) % 8 else 0

/-- Width in bytes of an element in a window row (R246). -/
def Desc.rowWidth (d : Desc) : Nat := fmtBytes d.fmt

/-- Elements of a window row. -/
def Desc.perRow (d : Desc) : Nat := 64 / d.rowWidth

/-- Rows of a run of `n` elements. -/
def Desc.runRows (d : Desc) (n : Nat) : Nat := (n * d.rowWidth + 63) / 64

/-- Start `k` of a region token. -/
def regionStart (a : Row) (k : Nat) : Int := signedOf 32 (elem 32 a k)

/-- Count `k` of a region token. -/
def regionCount (a : Row) (k : Nat) : Nat := elem 32 a (4 + k)

/-- Runs of a region along dimension 0. -/
def regionRuns (a : Row) : Nat := regionCount a 1 * regionCount a 2 * regionCount a 3

/-- Indices of dimensions 1 to 3 of a run, by the run's number. -/
def runIndex (a : Row) (run : Nat) : Int × Int × Int :=
  (regionStart a 1 + (run % regionCount a 1 : Nat),
   regionStart a 2 + (run / regionCount a 1 % regionCount a 2 : Nat),
   regionStart a 3 + (run / regionCount a 1 / regionCount a 2 : Nat))

/-- Elements of data row `j` of a run. -/
def Desc.runElems (d : Desc) (a : Row) (run j : Nat) : List Index :=
  let q := runIndex a run
  let lo := j * d.perRow
  let hi := min (lo + d.perRow) (regionCount a 0)
  (List.range (hi - lo)).map fun e => (regionStart a 0 + (lo + e : Nat), q.1, q.2.1, q.2.2)

/-- Elements that one scale code covers: 64, or 32 of a 16-bit type (R248). -/
def Desc.scaleSpan (d : Desc) : Nat := if d.rowWidth = 2 then 32 else 64

/-- Address of the scale code of the descriptor row that holds an element. -/
def Desc.scaleAddr (d : Desc) (i : Index) : Nat :=
  let f := i.1.toNat + d.ext 0 * (i.2.1.toNat + d.ext 1 * (i.2.2.1.toNat + d.ext 2 * i.2.2.2.toNat))
  vaAdd d.scale ((f / d.scaleSpan : Nat) : Int)

/-- The elements whose rows' codes stand in a run's scale row: element j·E of the run at byte j. -/
def Desc.scaleElems (d : Desc) (a : Row) (run : Nat) : List Index :=
  let q := runIndex a run
  (List.range ((regionCount a 0 + d.scaleSpan - 1) / d.scaleSpan)).map fun j =>
    (regionStart a 0 + (j * d.scaleSpan : Nat), q.1, q.2.1, q.2.2)

/-! ### Convolution geometry (R252) -/

/-- Output height and width as the geometry gives them, none when no position exists. -/
def convOut (d : Desc) (a : Row) : Nat × Nat :=
  let e (k : Nat) : Nat := elem 32 a k
  let one (ext pad f st : Nat) : Nat := if ext + 2 * pad < f then 0 else (ext + 2 * pad - f) / st + 1
  (one (d.ext 2) (e 4) (e 0) (e 2), one (d.ext 1) (e 5) (e 1) (e 3))

/-- Number of output positions of a command. -/
def convCount (d : Desc) (a : Row) : Nat :=
  let o := convOut d a
  let all := o.1 * o.2
  let q0 := elem 32 a 7; let n := elem 32 a 8
  if n = 0 then all - q0 else min (q0 + n) all - q0

/-- Input index under filter position (fy, fx) and channel at an output position. -/
def convIndex (d : Desc) (a : Row) (pos fy fx ch : Nat) : Index :=
  let e (k : Nat) : Nat := elem 32 a k
  let q := e 7 + pos
  let ow := (convOut d a).2
  ((ch : Int), ((q % ow * e 3 + fx : Nat) : Int) - (e 5 : Nat), ((q / ow * e 2 + fy : Nat) : Int) - (e 4 : Nat), ((e 6 : Nat) : Int))

/-! ### Rows of a command -/

/-- Whether a command has scale rows: SROW of its flags (R248). -/
def GenCmd.srow (c : GenCmd) : Bool :=
  match c.op with
  | 0x340 | 0x341 => bitOf c.flags 0
  | 0x348 => bitOf c.flags 1
  | _ => false

/-- Whether a command writes memory. -/
def GenCmd.writes (c : GenCmd) : Bool := c.op = 0x341 || c.op = 0x345 || (c.op = 0x348 && bitOf c.flags 0)

/-- Whether a command fills its window. -/
def GenCmd.fills (c : GenCmd) : Bool := c.op = 0x340 || c.op = 0x343 || c.op = 0x344 || (c.op = 0x348 && !bitOf c.flags 0)

/-- Window rows of one run, its scale row included. -/
def GenCmd.rowsPerRun (c : GenCmd) : Nat := c.desc.runRows (regionCount c.a 0) + (if c.srow then 1 else 0)

/-- Window rows of one output position of CPYI or CPYP. -/
def GenCmd.rowsPerPos (c : GenCmd) : Nat :=
  if c.op = 0x343 then c.desc.runRows (elem 32 c.a 0 * elem 32 c.a 1 * c.desc.ext 0) else c.desc.runRows (c.desc.ext 0)

/-- Rows that a command moves in all; none when a stream repeats until it is stopped (R256). -/
def GenCmd.total (c : GenCmd) : Option Nat :=
  match c.op with
  | 0x342 => some (elem 32 c.a 3)
  | 0x343 | 0x344 => some (convCount c.desc c.a * c.rowsPerPos)
  | _ => if c.passes = 0 then none else some (c.passes * regionRuns c.a * c.rowsPerRun)

/-- Run and place within it of row `r`; place 0 is the scale row where there is one. -/
def GenCmd.place (c : GenCmd) (r : Nat) : Nat × Nat :=
  (r / c.rowsPerRun % regionRuns c.a, r % c.rowsPerRun)

/-- Whether row `r` is a scale row. -/
def GenCmd.isScale (c : GenCmd) (r : Nat) : Bool := c.srow && (c.place r).2 = 0

/-- For each element of row `r`, the tensor elements from which it is formed: one for a copy, fh·fw for a pool. -/
def GenCmd.sources (c : GenCmd) (r : Nat) : List (List Index) :=
  let d := c.desc
  match c.op with
  | 0x343 =>
    let pos := r / c.rowsPerPos; let lo := r % c.rowsPerPos * d.perRow
    let xc := d.ext 0; let fw := elem 32 c.a 1
    let hi := min (lo + d.perRow) (elem 32 c.a 0 * fw * xc)
    (List.range (hi - lo)).map fun e =>
      let t := lo + e
      [convIndex d c.a pos (t / xc / fw) (t / xc % fw) (t % xc)]
  | 0x344 =>
    let pos := r / c.rowsPerPos; let lo := r % c.rowsPerPos * d.perRow
    let fh := elem 32 c.a 0; let fw := elem 32 c.a 1
    let hi := min (lo + d.perRow) (d.ext 0)
    (List.range (hi - lo)).map fun e =>
      (List.range (fh * fw)).map fun t => convIndex d c.a pos (t / fw) (t % fw) (lo + e)
  | _ =>
    let q := c.place r
    if c.isScale r then (d.scaleElems c.a q.1).map fun i => [i]
    else (d.runElems c.a q.1 (if c.srow then q.2 - 1 else q.2)).map fun i => [i]

/-- Bytes of memory that row `r` touches: address and count, in order. -/
def GenCmd.touches (c : GenCmd) (r : Nat) : List (Nat × Nat) :=
  if c.op = 0x342 then []
  else
    ((c.sources r).flatten.filter c.desc.inExt).map fun i =>
      if c.isScale r then (c.desc.scaleAddr i, 1) else c.desc.at i

/-- Lines of a list of byte ranges, each once, in order of first touch. -/
def linesOf (l : List (Nat × Nat)) : List Nat :=
  ((l.flatMap fun p => fromTo (p.1 / 64) ((p.1 + p.2 - 1) / 64)).map (· * 64)).eraseDups

/-- Lines that row `r` touches (R334). -/
def GenCmd.lines (c : GenCmd) (r : Nat) : List Nat := linesOf (c.touches r)

/-! ### Forming rows -/

/-- A byte of memory as an engine has it in hand for a row. -/
def landedByte (l : List Landed) (row a : Nat) : Nat :=
  match l.find? fun x => x.row = row && x.va = a / 64 * 64 with
  | some x => elem 8 x.data.bits (a % 64)
  | none => 0

/-- Whether a line in hand for a row carries the ember bit. -/
def landedEmber (l : List Landed) (row : Nat) : Bool := l.any fun x => x.row = row && x.data.ember

/-- The raw value of an element, the padding constant outside the extents (R246, R247). DESIGN CHOICE (log entry 62): PAD of a packed
t6 descriptor is taken as a whole byte, bits [7:6] included. -/
def Desc.rawAt (d : Desc) (get : Nat → Nat) (i : Index) : Nat :=
  if !d.inExt i then d.pad
  else
    let p := d.at i
    let v := (List.range p.2).foldr (fun k acc => acc * 256 + get (p.1 + k)) 0
    if d.fmt = 18 then (v >>> d.bitOff i) % 64 else v

/-- The window row that a copy forms from a row's elements. -/
def GenCmd.copyRow (c : GenCmd) (get : Nat → Nat) (r : Nat) : Row :=
  if c.isScale r then
    ofVals 8 ((c.sources r).flatten.map fun i => if c.desc.inExt i then get (c.desc.scaleAddr i) else 127)
  else ofVals (8 * c.desc.rowWidth) ((c.sources r).flatten.map (c.desc.rawAt get))

/-- A byte to write: its address, the bits that change, and their values. -/
abbrev MaskedByte := Nat × Nat × Nat

/-- The bytes that writing an element writes; nothing outside the extents (R246, R247). -/
def Desc.writesOf (d : Desc) (i : Index) (v : Nat) : List MaskedByte :=
  if !d.inExt i then []
  else
    let p := d.at i
    let sh := d.bitOff i
    let mask := if d.fmt = 18 then 63 <<< sh else 2 ^ (8 * p.2) - 1
    (List.range p.2).map fun k => (p.1 + k, field mask (8 * k + 7) (8 * k), field (v <<< sh) (8 * k + 7) (8 * k))

/-- The bytes that a command writes for row `r` from its window row. -/
def GenCmd.writesOf (c : GenCmd) (r : Nat) (row : Row) : List MaskedByte :=
  let w := 8 * c.desc.rowWidth
  let els := (c.sources r).flatten
  els.zipIdx.flatMap fun p =>
    if c.isScale r then
      if c.desc.inExt p.1 then [(c.desc.scaleAddr p.1, 255, elem 8 row p.2)] else []
    else c.desc.writesOf p.1 (if c.op = 0x345 then elem w c.b 0 else elem w row p.2)

/-- The bytes of a list that fall in one line. -/
def inLine (va : Nat) (l : List MaskedByte) : List MaskedByte := l.filter fun p => p.1 / 64 * 64 = va

/-! ### Control tokens (R255) -/

/-- Levels of the end-of-dimension tokens that stand after row `r` of a command with EOD: 1 after a run or an output row, 2
after the last row. -/
def GenCmd.eodAfter (c : GenCmd) (r : Nat) : List Nat :=
  if !bitOf c.flags 1 || (c.op ≠ 0x340 && c.op ≠ 0x343) then []
  else
    let one :=
      if c.op = 0x340 then r % c.rowsPerRun + 1 = c.rowsPerRun
      else
        let pos := r / c.rowsPerPos
        r % c.rowsPerPos + 1 = c.rowsPerPos &&
          ((elem 32 c.a 7 + pos + 1) % (convOut c.desc c.a).2 = 0 || pos + 1 = convCount c.desc c.a)
    (if one then [1] else []) ++ (if c.total = some (r + 1) then [2] else [])

end Sys2Proof.Machine
end

