-- ==== Sys2Proof/Machine/Matrix.lean ====
section
/-!
DEFINITION. The arithmetic of the matrix region (R67 to R72): block scales, weight records (R70, Tables 8-3 to 8-5), group
results, and their entry into accumulator rows.
-/

namespace Sys2Proof.Machine

/-! ### Weight records -/

/-- Words of a record of a kind (Table 8-3): l4 sorted, l8 sorted, 8-bit dense, bf dense. -/
def recWords (kind : Nat) : Nat := match kind with | 0 => 9 | 1 => 16 | 2 => 9 | _ => 17

/-- An index placed among indices already sorted by level, after those of lower or equal level. -/
def placeLevel (level : Nat → Nat) (i : Nat) : List Nat → List Nat
  | [] => [i]
  | j :: r => if level j ≤ level i then j :: placeLevel level i r else i :: j :: r

/-- The stable ascending sort of the indices 0 to 63 by level, ties by index (R69). -/
def sortLevels (levels : List Nat) : List Nat :=
  (List.range 64).foldl (fun l i => placeLevel (fun j => levels.getD j 0) i l) []

/-- Width of a step and of BASE, and the places of BASE, SIGMA, Z and NSTEPS, in a sorted record (Tables 8-4, 8-5). -/
def recPlaces (kind : Nat) : Nat × Nat × Nat × Nat × Nat :=
  if kind = 0 then (4, 508, 512, 528, 536) else (8, 952, 960, 976, 984)

/-- The sum of the values of a list, each shifted to its place. -/
def packAt (base width : Nat) (l : List Nat) : Nat := (l.zipIdx.map fun p => p.1 <<< (base + width * p.2)).sum

/-- The sorted record of a group (R70): its permutation, the bitmap and list of non-zero steps, base level, σ and z. -/
def sortedRecord (kind : Nat) (levels : List Nat) (sigma z : Nat) : Nat :=
  let (w, pb, ps, pz, pn) := recPlaces kind
  let pi := sortLevels levels
  let lev := pi.map fun i => levels.getD i 0
  let steps := lev.tail.zipWith (fun a b => a - b) lev
  let bits := (steps.zipIdx.map fun p => if p.1 = 0 then 0 else 2 ^ (384 + 1 + p.2)).sum
  let nz := steps.filter (· ≠ 0)
  packAt 0 6 pi + bits + packAt 448 w nz + (lev.getD 0 0) <<< pb + sigma <<< ps + z <<< pz + nz.length <<< pn

/-- The dense record of 64 weights of a type code, with the E8 code or codes of their rows (Table 8-3). -/
def denseRecord (kind : Nat) (ty : Nat) (raws codes : List Nat) : Nat :=
  if kind = 2 then packAt 0 8 raws + ty <<< 512 + packAt 520 8 codes
  else packAt 0 16 raws + 12 <<< 1024 + packAt 1032 8 codes

/-- The step into sort position k (2 to 64) of a sorted record: the field that the set bits of BITMAP below it count off; a
field beyond the last reads zero. -/
def recStep (kind rec k : Nat) : Nat :=
  let (w, _) := recPlaces kind
  if !bitOf rec (384 + (k - 1)) then 0
  else
    let j := ((List.range (k - 2)).filter fun i => bitOf rec (385 + i)).length
    if (if kind = 0 then 15 else 63) ≤ j then 0 else field rec (448 + w * j + w - 1) (448 + w * j)

/-! ### Activation rows -/

/-- The block-scale overflow of R67: the value that replaces an element, and whether it was replaced. -/
def bsoClamp (v : FVal) : FVal × Bool :=
  match v with
  | .fin neg m e =>
    if m = 0 then (v, false)
    else if 127 < e + Nat.log2 m then (.fin neg 0xFFFFFF 104, true)
    else if e + Nat.log2 m < -149 then (.fin neg 1 (-149), true)
    else (v, false)
  | _ => (v, false)

/-- The elements of a row in a type after its block scale, and whether one was replaced (R67). -/
def scaledRow (ty : BitVec 4) (code : Nat) (raws : List Nat) : List FVal × Bool :=
  let l := raws.map fun r => bsoClamp (scaleVal code false (valOf ty r))
  (l.map Prod.fst, l.any Prod.snd)

/-- Whether a value is finite. -/
def isFin (v : FVal) : Bool := match v with | .fin _ _ _ => true | _ => false

/-- Er of R69: the largest exponent among the non-zero elements, 0 when there is none. -/
def rowExp (x : List FVal) : Int :=
  match x.filterMap fun v => match v with
    | .fin _ m e => if m = 0 then none else some (e + (Nat.log2 m : Int))
    | _ => none with
  | [] => 0
  | a :: r => r.foldl max a

/-- A_i of R69: an element in units of 2^(Er − 37), rounded to an integer to nearest even. -/
def alignElem (er : Int) (v : FVal) : Int :=
  match v with
  | .fin neg m e => (roundToInt 0 neg m (e - (er - 37))).1
  | _ => 0

/-! ### Group results -/

/-- A group result: the f32 pattern, whether it is NaN by R69 or R71, whether it saturated. -/
structure GroupOut where
  bits : Nat
  nan : Bool := false
  sat : Bool := false
  deriving DecidableEq, Repr

/-- The canonical NaN of a group. -/
def GroupOut.isNan : GroupOut := ⟨canonNaN fmtF32, true, false⟩

/-- The one rounding of a group to f32, an overflow giving the largest finite value. -/
def roundGroup (neg : Bool) (m : Nat) (e : Int) : GroupOut :=
  let r := roundFin fmtF32 0 neg m e
  if r.2 &&& fOF ≠ 0 then ⟨maxBits fmtF32 neg, false, true⟩ else ⟨r.1, false, false⟩

/-- Suffix sums of a list: entry k is the sum from k on. -/
def suffixSums : List Int → List Int
  | [] => []
  | a :: r => let s := suffixSums r; (a + s.headD 0) :: s

/-- G of R69 for a sorted record and aligned elements. -/
def sortedSum (kind rec : Nat) (a : List Int) : Int :=
  let (w, pb, _, pz, _) := recPlaces kind
  let t := suffixSums ((List.range 64).map fun k => a.getD (field rec (6 * k + 5) (6 * k)) 0)
  ((field rec (pb + w - 1) pb : Int) - field rec (pz + 7) pz) * t.headD 0 +
    ((List.range 63).map fun i => (recStep kind rec (i + 2) : Int) * t.getD (i + 1) 0).sum

/-- The group result of a sorted record and a scaled activation row (R69). DESIGN CHOICE (log entry 62): a zero sum takes the sign of
sigma. -/
def groupSorted (kind rec : Nat) (x : List FVal) : GroupOut :=
  let (_, _, ps, _, _) := recPlaces kind
  match unpack ⟨8, 7, 127, false⟩ (field rec (ps + 15) ps) with
  | .fin neg m e =>
    if x.all isFin then
      let er := rowExp x
      let g := sortedSum kind rec (x.map (alignElem er))
      roundGroup (neg != decide (g < 0)) (m * g.natAbs) (e + er - 37)
    else .isNan
  | _ => .isNan

/-- The exact sum of products of two rows of finite values, at its power of two; and whether every product has the
sign. -/
def exactDot (x w : List FVal) : Int × Int × Bool :=
  let ps := x.zipWith (fun a b => match a, b with
    | .fin n1 m1 e1, .fin n2 m2 e2 => (n1 != n2, m1 * m2, e1 + e2)
    | _, _ => (false, 0, 0)) w
  let e0 := (ps.filter fun p => p.2.1 ≠ 0).foldl (fun e p => min e p.2.2) (0 : Int)
  ((ps.map fun p => if p.2.1 = 0 then 0 else alignTo p.1 p.2.1 p.2.2 e0).sum, e0, ps.all fun p => p.1)

/-- The group result of a dense row pair (R71): an exact zero is +0, or −0 when every product is negative. -/
def groupDense (x w : List FVal) : GroupOut :=
  if x.all isFin && w.all isFin then
    let (s, e, neg) := exactDot x w
    if s = 0 then ⟨zeroBits fmtF32 neg, false, false⟩ else roundGroup (s < 0) s.natAbs e
  else .isNan

/-- The weights of a dense record after their block scales, and how many of its rows were replaced in an element (R67); none
when the type byte names no dense type. -/
def denseWeights (kind rec : Nat) : Option (List FVal × Nat) :=
  if kind = 2 then
    let ty := field rec 519 512
    if ty = 0 || ty = 1 || ty = 8 || ty = 9 then
      let r := scaledRow (BitVec.ofNat 4 ty) (field rec 527 520) ((List.range 64).map fun i => field rec (8 * i + 7) (8 * i))
      some (r.1, if r.2 then 1 else 0)
    else none
  else
    let half (h : Nat) := scaledRow 12 (field rec (1039 + 8 * h) (1032 + 8 * h))
      ((List.range 32).map fun i => field rec (512 * h + 16 * i + 15) (512 * h + 16 * i))
    let a := half 0; let b := half 1
    some (a.1 ++ b.1, (if a.2 then 1 else 0) + (if b.2 then 1 else 0))

/-- The group result of an activation group and a record in an MXRUN mode, with the record's rows that overflowed their
block scale. -/
def groupResult (mode rec : Nat) (x : List FVal) (rows : Nat) : GroupOut × Nat :=
  if mode < 2 then (groupSorted mode rec x, 0)
  else match denseWeights mode rec with
    | some w => (groupDense x w.1, w.2)
    | none => (⟨(Config.strayGroup rec rows).toNat, false, false⟩, 0)

/-! ### Accumulation (R72) -/

/-- acc + y rounded once under RNE; an overflow gives the largest finite value and counts. -/
def accAdd (acc y : Nat) : Nat × Bool :=
  let r := fAddV fmtF32 0 (unpack fmtF32 acc) (unpack fmtF32 y)
  if r.2 &&& fOF ≠ 0 then (maxBits fmtF32 (bitOf r.1 31), true) else (r.1, false)

/-- The group results of one column entered in stage order into an element, with the saturations counted; `add` is
accumulate mode. -/
def accColumn (add : Bool) (old : Nat) (ys : List GroupOut) : Nat × Nat :=
  let start : Nat × Nat × Bool := (old, 0, add)
  let r := ys.foldl (fun (s : Nat × Nat × Bool) y =>
    let n := s.2.1 + (if y.sat then 1 else 0)
    if s.2.2 then (let a := accAdd s.1 y.bits; (a.1, n + (if a.2 then 1 else 0), true)) else (y.bits, n, true)) start
  (r.1, r.2.1)

/-! ### What an MXRUN's rows hold (R238, R239) -/

/-- Window rows of a K group: 2 in d16, else 1. -/
def rowsPerGroup (mode : Nat) : Nat := if mode = 3 then 2 else 1

/-- Window rows of an activation row. -/
def MxCmd.rowsPer (m : MxCmd) : Nat := (if bitOf m.flags 0 then 1 else 0) + rowsPerGroup (m.mod % 4) * m.rect.2.2.2

/-- M. -/
def MxCmd.count (m : MxCmd) : Nat := elem 32 m.a 0

/-- The scaled elements of stage `s` of an activation row, and the rows of it that overflowed their block scale. -/
def MxCmd.stage (m : MxCmd) (rows : List Tok) (s : Nat) : List FVal × Nat :=
  let p := rowsPerGroup (m.mod % 4)
  let off := if bitOf m.flags 0 then 1 else 0
  let code (i : Nat) : Nat := if bitOf m.flags 0 then elem 8 (rows.getD 0 {}).bits i else 127
  let parts := (List.range p).map fun i =>
    scaledRow m.ty (code (p * s + i)) (vals m.ty (rows.getD (off + p * s + i) {}).bits)
  ((parts.map Prod.fst).flatten, (parts.filter Prod.snd).length)

/-- The record of stage `s`, column `c` as the set holds it. -/
def MxCmd.record (m : MxCmd) (ws : Sparse Word) (s c : Nat) : Nat :=
  let n := recWords (m.mod % 4)
  let at_ := m.set * 65536 + elem 32 m.a 2 + (s * m.rect.2.2.1 + c) * n
  ((List.range n).map fun i => (sget 0 ws (at_ + i)).toNat <<< (64 * i)).sum

/-- Whether a word of the records of a command carries the ember bit. -/
def MxCmd.recEmber (m : MxCmd) (marked : List Nat) : Bool :=
  let lo := m.set * 65536 + elem 32 m.a 2
  let n := recWords (m.mod % 4) * m.rect.2.2.1 * m.rect.2.2.2
  marked.any fun w => lo ≤ w && w < lo + n

/-- What one activation row gives: the new accumulator row, and the counts for MX_SAT, MX_NAN and MX_BSO (R240). DESIGN CHOICE (log
entry 62): a weight row with block-scale overflow counts once for every activation row that it meets. -/
def MxCmd.rowOut (m : MxCmd) (mx : Matrix) (rows : List Tok) (old : Tok) : Tok × Nat × Nat × Nat :=
  let w := m.rect.2.2.1; let h := m.rect.2.2.2
  let stages := (List.range h).map (m.stage rows)
  let raw (s : Nat) : Nat :=
    (rows.getD ((if bitOf m.flags 0 then 1 else 0) + rowsPerGroup (m.mod % 4) * s) {}).bits.toNat
  let cols := (List.range w).map fun c =>
    stages.zipIdx.map fun p => groupResult (m.mod % 4) (m.record mx.ws p.2 c) p.1.1 (raw p.2)
  let outs := cols.zipIdx.map fun p => accColumn (bitOf m.mod 2) (elem 32 old.bits p.2) (p.1.map Prod.fst)
  let row := ofVals 32 ((List.range 16).map fun e => if e < w then (outs.getD e (0, 0)).1 else elem 32 old.bits e)
  let keeps := bitOf m.mod 2 || w < 16
  (⟨row, rows.any (·.ember) || m.recEmber mx.wsEmber || (keeps && old.ember)⟩,
    (outs.map Prod.snd).sum,
    if cols.any (fun l => l.any fun g => g.1.nan) then 1 else 0,
    (stages.map Prod.snd).sum + (cols.map fun l => (l.map Prod.snd).sum).sum)

/-! ### What MXLDW reads (R236) -/

/-- Kind of record that a descriptor's format gives. -/
def Desc.recKind (d : Desc) : Nat := match d.fmt with | 16 => 0 | 17 => 1 | 12 => 3 | _ => 2

/-- Stage and column of record `j` of an MXLDW. -/
def MxCmd.recAt (m : MxCmd) (j : Nat) : Nat × Nat := (j / elem 32 m.a 3, j % elem 32 m.a 3)

/-- Records of an MXLDW in all. -/
def MxCmd.recCount (m : MxCmd) : Nat := elem 32 m.a 1 * elem 32 m.a 3

/-- The 64 tensor elements of record `j`. -/
def MxCmd.recElems (m : MxCmd) (j : Nat) : List Index :=
  let p := m.recAt j
  (List.range 64).map fun i => ((64 * (elem 32 m.a 2 + p.1) + i : Nat), (elem 32 m.a 4 + p.2 : Nat), 0, 0)

/-- Address of the metadata word of record `j`. -/
def MxCmd.metaAddr (m : MxCmd) (j : Nat) : Nat :=
  let p := m.recAt j
  vaAdd m.desc.scale (4 * ((elem 32 m.a 4 + p.2) * (m.desc.ext 0 / 64) + (elem 32 m.a 2 + p.1)) : Nat)

/-- The elements whose rows' E8 codes a dense record holds. -/
def MxCmd.codeElems (m : MxCmd) (j : Nat) : List Index :=
  (m.recElems j).zipIdx.filterMap fun p => if p.2 % m.desc.scaleSpan = 0 then some p.1 else none

/-- Bytes that record `j` is formed from. -/
def MxCmd.recTouches (m : MxCmd) (j : Nat) : List (Nat × Nat) :=
  (m.recElems j).map m.desc.at ++
    (if m.desc.recKind < 2 then [(m.metaAddr j, 4)]
     else if m.desc.scale = 0 then [] else (m.codeElems j).map fun i => (m.desc.scaleAddr i, 1))

/-- The record that MXLDW writes from the bytes in hand. -/
def MxCmd.formRecord (m : MxCmd) (get : Nat → Nat) (j : Nat) : Nat :=
  let d := m.desc
  if d.recKind < 2 then
    let levels := (m.recElems j).map fun i =>
      let v := get (d.at i).1
      if d.fmt = 16 then (v >>> (4 * (i.1.toNat % 2))) % 16 else v
    let word (k : Nat) : Nat := get (vaAdd (m.metaAddr j) (k : Nat))
    sortedRecord d.recKind levels (word 0 + 256 * word 1) (word 2)
  else
    denseRecord d.recKind d.fmt ((m.recElems j).map (d.rawAt get))
      (if d.scale = 0 then List.replicate (if d.recKind = 2 then 1 else 2) 127
       else (m.codeElems j).map fun i => get (d.scaleAddr i))

/-! ### Checks (R75, R76) -/

/-- The residue of the significand of an f32 group result, or of its sign and exponent when the bit in question lies there;
with EXP of Table 17-5. -/
def groupResidue (bit raw : Nat) : Nat × Bool :=
  if 23 ≤ bit then (res7 ((raw >>> 23 : Nat) : Int), true)
  else (res7 ((raw % 2 ^ 23 + (if field raw 30 23 = 0 then 0 else 2 ^ 23) : Nat) : Int), false)

end Sys2Proof.Machine
end

