-- ==== Sys2Proof/Machine/EngineCmds.lean ====
section
/-!
DEFINITION. The engine commands at execution (R228 to R268, R167 to R171): their operands, the checks of their entries, and
the queues they enter. The engines that run them stand in Machine/MatrixEngine.lean, Generators.lean and Network.lean.
-/

namespace Sys2Proof.Machine

/-! ### Checks and entry (R230, R231) -/

/-- ENGINE_ARG's TRAP_ADDR: `l` lists conditions with code and element. A descriptor that the command does not accept comes first,
then the lowest code, then the lowest element (log entry 37). -/
def argOf (l : List (Bool × Nat × Nat)) : Option Nat :=
  if l.any fun p => p.1 && p.2.1 = 0x43 then some 0xFF43
  else (leastOf (l.filterMap fun p => if p.1 then some (p.2.1 * 256 + p.2.2) else none)).map fun v => v / 256 + v % 256 * 256

/-- A descriptor of the active plane; zero when never written. -/
def Core.desc (k : Core) (n : Nat) : Desc := (sfind k.plane.descs n).getD ⟨0, 0⟩

/-- A command's checks: a descriptor never written is DESC_EMPTY; then ENGINE_ARG; then it goes on. -/
def Issue.checked (x : Issue) (desc : Option Nat) (l : List (Bool × Nat × Nat)) (go : Fabric → Fabric) (f : Fabric) :
    Fabric :=
  let empty := match desc with | some n => (sfind (f.core x.who.core).plane.descs n).isNone | none => false
  if empty then x.fault 0x33 (desc.getD 0) 0 f
  else match argOf l with
    | some a => x.fault 0x10 a 0 f
    | none => go f

/-- A command enters its queue with a number, its counts rising; it waits while there is no room (R52, R230). -/
def Issue.enter (x : Issue) (room : Core → Bool) (cp mx : Nat) (go : Nat → Fabric → Fabric) (f : Fabric) : Fabric :=
  let c := x.who.core
  let k := f.core c
  if room k && k.counts.cp + cp ≤ 65535 && k.counts.mx + mx ≤ 65535 then
    let (id, f) := f.fresh
    go id ((x.noResult f).modCore c fun k =>
      { k.modExec x.who (fun e => { e with acted := true }) with
        counts := { k.counts with cp := k.counts.cp + cp, mx := k.counts.mx + mx } })
  else x.wait .queue f

/-- Whether a window is not configured or its filler (`out`) or reader is not the party required. -/
def Core.notParty (k : Core) (w : Nat) (out : Bool) (who : Nat) : Bool :=
  (sfind k.plane.wins w).isNone || k.plane.party w out ≠ who

/-- A count failing at an element. -/
def countFail (c : Bool) (el : Nat) : Bool × Nat × Nat := (c, 0x40, el)
/-- A range failing at an element. -/
def rangeFail (c : Bool) (el : Nat) : Bool × Nat × Nat := (c, 0x41, el)
/-- A party failing. -/
def partyFail (c : Bool) : Bool × Nat × Nat := (c, 0x42, 0xFF)
/-- A format failing. -/
def formatFail (c : Bool) : Bool × Nat × Nat := (c, 0x43, 0xFF)
/-- A mode failing at an element. -/
def modeFail (c : Bool) (el : Nat) : Bool × Nat × Nat := (c, 0x44, el)

/-- The checks of a region (R246 to R248): no count is 0, no level-code format, and those of scale rows. -/
def regionFails (d : Desc) (a : Row) (srow : Bool) : List (Bool × Nat × Nat) :=
  ((List.range 4).map fun i => countFail (regionCount a i = 0) (4 + i)) ++
    [formatFail (d.fmt = 16 || d.fmt = 17),
     formatFail (srow && (d.scale = 0 || 4 ≤ d.rowWidth || regionStart a 0 % (d.scaleSpan : Nat) ≠ 0)),
     countFail (srow && 64 * d.scaleSpan < regionCount a 0) 4]

/-! ### The matrix queue -/

/-- Whether the matrix queue has room. -/
def Core.mxRoom (k : Core) : Bool := k.mx.queue.length < 16

/-- An MXRUN mode's activation types (Table 8-6). -/
def mxTypes (mode ty : Nat) : Bool :=
  match mode with
  | 2 => ty = 0 || ty = 1 || ty = 8 || ty = 9
  | 3 => ty = 12
  | _ => ty = 0 || ty = 1 || (8 ≤ ty && ty ≤ 11)

/-- The checks of an MXRUN or chained half (R238), its token elements counted from 0; `mode` is the element of its mode. The sorted
modes, sd4 and sd8, are not there in reduced service (R2, R448). -/
def mxFails (k : Core) (a : Row) (mod flags win : Nat) (reduced : Bool) (mode : Nat) : List (Bool × Nat × Nat) :=
  let e (i : Nat) : Nat := elem 32 a i
  let w := k.plane.rect.2.2.1; let h := k.plane.rect.2.2.2
  let rows := (if bitOf flags 0 then 1 else 0) + rowsPerGroup (mod % 4) * h
  let cap := (k.winCfg win).cap
  [(w = 0 || h = 0, 0x45, 0xFF), countFail (e 0 = 0 || 1024 < e 0) 0, rangeFail (1024 < e 1 + e 0) 1,
   rangeFail (65536 < e 2 + h * w * recWords (mod % 4)) 2, partyFail (k.notParty win false 0),
   rangeFail (if bitOf flags 1 then e 3 ≠ 0 || cap < rows else cap < e 3 + e 0 * rows) 3,
   modeFail (reduced && mod % 4 < 2) mode]

/-- Whether the module gives reduced service (R2). -/
def Fabric.reduced (f : Fabric) : Bool := f.units.service = .reduced

/-- The tile group of an accumulator row, and a tile group. -/
def Core.tile (k : Core) (g : Nat) : Tile := sget {} k.mx.tiles g

/-- The core with one tile group changed. -/
def Core.modTile (k : Core) (g : Nat) (h : Tile → Tile) : Core :=
  { k with mx := { k.mx with tiles := smod {} k.mx.tiles g h } }

/-- The core with an entry of the matrix queue taken away. -/
def Core.dropMx (k : Core) (id : Nat) : Core :=
  { k with mx := { k.mx with queue := k.mx.queue.filter fun m => m.id ≠ id } }

/-- Thresholds set: the crossed bit of each is cleared (R243). -/
def Tile.setThresholds (t : Tile) (a : Row) : Tile := { t with thr := (elem 32 a 0, elem 32 a 1, elem 32 a 2), crossed := 0, fired := 0 }

/-- The token of MXSTAT (R242). -/
def Tile.token (t : Tile) : Row := ofVals 32 [t.sat, t.nan, t.bso, t.thr.1, t.thr.2.1, t.thr.2.2, t.crossed]

/-- A value delivered to the slot that asked for it, when its block still runs. -/
def Core.deliver (k : Core) (m : MxCmd) (v1 v2 : Tok) : Core :=
  match k.exec (.seq 0) with
  | none => k
  | some e =>
    if e.id ≠ m.exec || e.done.contains m.slot then k
    else match (k.blockOf (.seq 0) e).bind fun b => b.instrAt m.slot with
      | some i => k.finish (.seq 0) m.slot i (.tok v1) (.tok v2) fNone
      | none => k

/-- The record that MXPEEK returns, as two tokens (R244). -/
def Core.peekToks (k : Core) (m : MxCmd) : Tok × Tok :=
  let n := recWords (m.flags % 4)
  let at_ := m.set * 65536 + elem 32 m.a 0
  let word (i : Nat) : Nat := if i < n then (sget 0 k.mx.ws (at_ + i)).toNat else 0
  let emb := k.mx.wsEmber.any fun w => at_ ≤ w && w < at_ + n
  (⟨ofVals 64 ((List.range 8).map word), emb⟩,
   ⟨ofVals 64 ((List.range 8).map fun i => word (8 + i)), emb⟩)

/-- An MXTHR, MXSTAT, MXPEEK or MXSEL that has come to its turn (R237, R241 to R244). -/
def Core.serveMx (k : Core) (m : MxCmd) : Core :=
  let k := k.dropMx m.id
  match m.kind with
  | 2 =>
    if bitOf m.mod 0 then (List.range 16).foldl (fun k g => k.modTile g fun t => t.setThresholds m.a) k
    else k.modTile m.flags fun t => t.setThresholds m.a
  | 3 =>
    let v : Tok := ⟨(k.tile m.flags).token, false⟩
    let k := k.deliver m v v
    if bitOf m.mod 0 then k.modTile m.flags fun t => { t with sat := 0, nan := 0, bso := 0, crossed := 0 } else k
  | 5 => k
  | _ => let p := k.peekToks m; k.deliver m p.1 p.2

/-- The first entry of the matrix queue that needs no engine and whose turn has come; `runs` and `loads` tell of entries
before it: whether an MXRUN is among them, and the sets that MXLDWs write. -/
def nextServed (runs : Bool) (loads : List Nat) : List MxCmd → Option MxCmd
  | [] => none
  | m :: r =>
    match m.kind with
    | 0 => nextServed true loads r
    | 1 => nextServed runs (m.set :: loads) r
    | 4 => if loads.contains m.set then nextServed runs loads r else some m
    | _ => if runs then nextServed runs loads r else some m

/-- Entries of the matrix queue served, up to `n` of them. -/
def Core.settleFor : Nat → Core → Core
  | 0, k => k
  | n + 1, k => match nextServed false [] k.mx.queue with
    | some m => Core.settleFor n (k.serveMx m)
    | none => k

/-- Every MXTHR, MXSTAT, MXPEEK and MXSEL whose turn has come is served. -/
def Core.settleMx (k : Core) : Core := k.settleFor 17

/-- An entry put at the end of the matrix queue. -/
def Core.pushMx (k : Core) (m : MxCmd) : Core := { k with mx := { k.mx with queue := k.mx.queue ++ [m] } }

/-- A matrix command as its entry reads it. -/
def mxCmd (x : Issue) (m : EFields) (k : Core) (id kind set : Nat) : MxCmd :=
  { id := id, kind := kind, op := (opcodeOf x.i).getD 0, a := x.a, mod := m.mod.toNat, flags := m.flags.toNat, ty := m.ty,
    win := m.win.toNat, desc := k.desc m.desc.toNat, set := set, rect := k.plane.rect, exec := x.exec.id, slot := x.slot,
    block := x.exec.id }

/-- MXLDW (R236). -/
def goMxldw (m : EFields) (x : Issue) (f : Fabric) : Fabric :=
  let c := x.who.core
  let k := f.core c
  let d := k.desc m.desc.toNat
  let e (i : Nat) : Nat := elem 32 x.a i
  let n := recWords d.recKind
  let okFmt := d.fmt = 0 || d.fmt = 1 || d.fmt = 8 || d.fmt = 9 || d.fmt = 12 || d.fmt = 16 || d.fmt = 17
  x.checked (some m.desc.toNat)
    [formatFail (!okFmt || d.str 0 ≠ (if d.fmt = 12 then 2 else 1) || d.ext 0 % 64 ≠ 0 || d.ext 2 ≠ 1 || d.ext 3 ≠ 1),
     countFail (e 1 = 0 || 16 < e 1) 1, countFail (e 3 = 0 || 16 < e 3) 3, rangeFail (d.ext 0 / 64 < e 2 + e 1) 2,
     rangeFail (d.ext 1 < e 4 + e 3) 4, rangeFail (65536 < e 0 + e 1 * e 3 * n) 0]
    (x.enter Core.mxRoom 0 1 fun id f => f.modCore c fun k =>
      (k.pushMx (mxCmd x m k id 1 (m.mod.toNat % 2))).settleMx) f

/-- MXSEL (R237): an entry of the matrix queue; what enters behind it keeps the selection that it makes. -/
def goMxsel (m : EFields) (x : Issue) (f : Fabric) : Fabric :=
  x.enter Core.mxRoom 0 0 (fun id f => f.modCore x.who.core fun k =>
    (({ k with mx := { k.mx with sel := m.mod.toNat % 2 } } : Core).pushMx (mxCmd x m k id 5 (m.mod.toNat % 2))).settleMx) f

/-- MXRUN (R238). -/
def goMxrun (m : EFields) (x : Issue) (f : Fabric) : Fabric :=
  let c := x.who.core
  x.checked none (mxFails (f.core c) x.a m.mod.toNat m.flags.toNat m.win.toNat f.reduced 0xFF)
    (x.enter Core.mxRoom 0 1 fun id f => f.modCore c fun k =>
      (k.pushMx (mxCmd x m k id 0 k.mx.sel)).settleMx) f

/-- MXTHR (R243). -/
def goMxthr (m : EFields) (x : Issue) (f : Fabric) : Fabric :=
  x.enter Core.mxRoom 0 0 (fun id f => f.modCore x.who.core fun k =>
    (k.pushMx (mxCmd x m k id 2 0)).settleMx) f

/-- A command of the matrix queue that returns a value: its slot counts as executed when the value is delivered. -/
def Issue.ask (x : Issue) (cmd : Nat → Core → MxCmd) (f : Fabric) : Fabric :=
  let c := x.who.core
  if (f.core c).mxRoom then
    let (id, f) := f.fresh
    f.modCore c fun k =>
      ((k.pushMx (cmd id k)).modExec x.who fun e => { e with queued := x.slot :: e.queued, acted := true }).settleMx
  else x.wait .queue f

/-- MXSTAT (R242). -/
def goMxstat (m : EFields) (x : Issue) (f : Fabric) : Fabric := x.ask (fun id k => mxCmd x m k id 3 0) f

/-- MXPEEK (R244). -/
def goMxpeek (m : EFields) (x : Issue) (f : Fabric) : Fabric :=
  x.checked none [rangeFail (65536 < elem 32 x.a 0 + recWords (m.flags.toNat % 4)) 0]
    (x.ask fun id k => mxCmd x m k id 4 (m.mod.toNat % 2)) f

/-! ### Generators -/

/-- A generator of a core. -/
def Core.gen (k : Core) (i : Nat) : Gen := sget {} k.eng.gens i

/-- The core with one generator changed. -/
def Core.modGen (k : Core) (i : Nat) (g : Gen → Gen) : Core :=
  { k with eng := { k.eng with gens := smod {} k.eng.gens i g } }

/-- Whether a generator's queue has room. -/
def genRoom (i : Nat) (k : Core) : Bool := (k.gen i).queue.length < 4

/-- A command of the CPY family or STRM as its entry reads it. -/
def genCmd (x : Issue) (m : EFields) (k : Core) (id passes : Nat) (chain : Option Nat) : GenCmd :=
  { op := (opcodeOf x.i).getD 0, desc := k.desc m.desc.toNat, win := m.win.toNat, flags := m.flags.toNat, a := x.a, b := x.b,
    order := id, passes := passes, chain := chain, block := x.exec.id }

/-- A command put in a generator's queue. -/
def Core.pushGen (k : Core) (g : Nat) (q : GenCmd) : Core := k.modGen g fun y => { y with queue := y.queue ++ [q] }

/-- A command of the CPY family or STRM enters its generator's queue. -/
def Issue.enterGen (x : Issue) (m : EFields) (passes : Nat) (f : Fabric) : Fabric :=
  let c := x.who.core
  let g := m.mod.toNat
  x.enter (genRoom g) 1 0 (fun id f => f.modCore c fun k => k.pushGen g (genCmd x m k id passes none)) f

/-- Whether EOD is set for a window whose reader is not a circuit (R255). -/
def Core.eodBad (k : Core) (m : EFields) : Bool :=
  bitOf m.flags.toNat 1 && field (k.plane.party m.win.toNat false) 31 28 ≠ 3

/-- The checks of a CPY (R245 to R249, R255). -/
def cpyFails (k : Core) (m : EFields) (x : Issue) : List (Bool × Nat × Nat) :=
  regionFails (k.desc m.desc.toNat) x.a (bitOf m.flags.toNat 0) ++
    [partyFail (k.notParty m.win.toNat true (partyIdent 2 m.mod.toNat)), modeFail (k.eodBad m) 0xFF]

/-- CPY (R249). -/
def goCpy (m : EFields) (x : Issue) (f : Fabric) : Fabric :=
  x.checked (some m.desc.toNat) (cpyFails (f.core x.who.core) m x) (x.enterGen m 1) f

/-- CPY with a chained half (R249): both enter at one time, or wait for both queues. -/
def goCpyChained (m : EFields) (x : Issue) (f : Fabric) : Fabric :=
  let c := x.who.core
  let k := f.core c
  let g := m.mod.toNat; let w := m.win.toNat
  let mode := elem 32 x.b 4; let fl := elem 32 x.b 5; let ty := elem 32 x.b 6
  x.checked (some m.desc.toNat)
    (cpyFails k m x ++
      [modeFail (7 < mode) 4, modeFail (3 < fl) 5, modeFail (15 < ty || !mxTypes (mode % 4) ty) 6] ++
        mxFails k x.b mode fl w f.reduced 4)
    (x.enter (fun k => genRoom g k && k.mxRoom) 1 1 fun id f => f.modCore c fun k =>
      (k.pushGen g (genCmd x m k id 1 (some id))).pushMx
        { mxCmd x m k id 0 k.mx.sel with
          op := 0x340, a := x.b, mod := mode, flags := fl, ty := BitVec.ofNat 4 ty, chain := some g, ready := false }) f

/-- CPYW (R250). -/
def goCpyw (m : EFields) (x : Issue) (f : Fabric) : Fabric :=
  let k := f.core x.who.core
  x.checked (some m.desc.toNat)
    (regionFails (k.desc m.desc.toNat) x.a (bitOf m.flags.toNat 0) ++
      [partyFail (k.notParty m.win.toNat false (partyIdent 2 m.mod.toNat))])
    (x.enterGen m 1) f

/-- CPYR (R251). -/
def goCpyr (m : EFields) (x : Issue) (f : Fabric) : Fabric :=
  let k := f.core x.who.core
  let e (i : Nat) : Nat := elem 32 x.a i
  let cores := (f.region k.regionId).cores
  x.checked none
    [rangeFail (7 < e 0 || cores.all fun p => dieOf p.1 ≠ e 0) 0, rangeFail (127 < e 1 || cores.all fun p => p.1 ≠ e 0 * 128 + e 1) 1,
     rangeFail (255 < e 2) 2, countFail (e 3 = 0) 3, partyFail (k.notParty m.win.toNat false (partyIdent 2 m.mod.toNat))]
    (x.enterGen m 1) f

/-- The limits of the convolution geometry (R252). -/
def geomFails (a : Row) : List (Bool × Nat × Nat) :=
  (List.range 6).map fun i => (255 < elem 32 a i || (i < 4 && elem 32 a i = 0), 0x49, i)

/-- CPYI (R252). -/
def goCpyi (m : EFields) (x : Issue) (f : Fabric) : Fabric :=
  let k := f.core x.who.core
  let d := k.desc m.desc.toNat
  x.checked (some m.desc.toNat)
    (geomFails x.a ++
      [formatFail (d.fmt = 16 || d.fmt = 17), partyFail (k.notParty m.win.toNat true (partyIdent 2 m.mod.toNat)),
       modeFail (k.eodBad m) 0xFF])
    (x.enterGen m 1) f

/-- CPYP (R253). -/
def goCpyp (m : EFields) (x : Issue) (f : Fabric) : Fabric :=
  let k := f.core x.who.core
  let d := k.desc m.desc.toNat
  x.checked (some m.desc.toNat)
    (geomFails x.a ++
      [formatFail !(d.fmt ≤ 5 || (12 ≤ d.fmt && d.fmt ≤ 14)),
       partyFail (k.notParty m.win.toNat true (partyIdent 2 m.mod.toNat))])
    (x.enterGen m 1) f

/-- CPYF (R254). -/
def goCpyf (m : EFields) (x : Issue) (f : Fabric) : Fabric :=
  let k := f.core x.who.core
  x.checked (some m.desc.toNat) (regionFails (k.desc m.desc.toNat) x.a false) (x.enterGen m 1) f

/-- STRM (R256): it fills its window (`out`) or reads it; B.e0 passes. -/
def goStrm (m : EFields) (out : Bool) (x : Issue) (f : Fabric) : Fabric :=
  let k := f.core x.who.core
  x.checked (some m.desc.toNat)
    (regionFails (k.desc m.desc.toNat) x.a (bitOf m.flags.toNat 1) ++
      [partyFail (k.notParty m.win.toNat out (partyIdent 2 m.mod.toNat))])
    (x.enterGen m (elem 32 x.b 0)) f

/-- STRW (R257): a place in the order of entry. -/
def goStrw (x : Issue) (f : Fabric) : Fabric :=
  x.enter (fun _ => true) 0 0 (fun id f => f.modCore x.who.core fun k =>
    { k with eng := { k.eng with strws := k.eng.strws ++ [(id, elem 32 x.a 0 % 65536)] } }) f

/-- A command of a generator counted as completed; a chained half that has not started goes with it when `cut` (R52,
R258). -/
def Core.endGenCmd (k : Core) (cut : Bool) (q : GenCmd) : Core :=
  let k := { k with counts := { k.counts with cp := k.counts.cp - 1 } }
  match q.chain with
  | some id =>
    if cut && k.mx.queue.any (fun m => m.id = id && !m.ready) then
      { k.dropMx id with counts := { k.counts with mx := k.counts.mx - 1 } }
    else k
  | none => k

/-- The bit of a generator set in the STRM event's bitmap (R259). -/
def Core.strmEvent (k : Core) (g : Nat) : Core := { k with eng := { k.eng with strm := k.eng.strm ||| 2 ^ g } }

/-- A generator's running command ended at a row boundary. -/
def Core.endGen (k : Core) (g : Nat) (cut : Bool) : Core :=
  match (k.gen g).cur with
  | none => k
  | some q =>
    ((k.endGenCmd cut q).strmEvent g).modGen g fun y =>
      { y with cur := none, row := 0, landed := [], wrote := [], park := none, strike := none,
               unreported := 0, stopped := false }

/-- STRX stop on one generator (R258): its queue is discarded, and its command ends at its next row boundary; a strike
not yet raised is raised first (R430). -/
def Core.stopGen (k : Core) (g : Nat) : Core :=
  let y := k.gen g
  let k := y.queue.foldl (fun k q => k.endGenCmd true q) (k.modGen g fun y => { y with queue := [] })
  if (y.wrote ≠ [] && y.park.isNone) ||
      y.strike.any (fun s => !s.raised) then k.modGen g fun y => { y with stopped := true } else k.endGen g true

/-- Generators that a mask names. -/
def maskGens (mask : Nat) : List Nat := (List.range 16).filter (bitOf mask)

/-- STRX stop (R258). -/
def goStrxStop (x : Issue) (f : Fabric) : Fabric :=
  x.enter (fun _ => true) 0 0 (fun _ f => f.modCore x.who.core fun k =>
    ((maskGens (elem 32 x.a 0)).foldl Core.stopGen k).settleMx) f

/-- STRX resume (R258): each parked masked generator retries its access. -/
def goStrxResume (x : Issue) (f : Fabric) : Fabric :=
  x.enter (fun _ => true) 0 0 (fun _ f => f.modCore x.who.core fun k =>
    (maskGens (elem 32 x.a 0)).foldl (fun k g => k.modGen g fun y => { y with park := none }) k) f

/-! ### Tier -/

/-- What TQRY, TIN and TOUT find for an address (R260): the state, and the translation of a mapped page. -/
def Fabric.pageState (f : Fabric) (mem : Memory) (ctx va : Nat) : Nat × Option Trans :=
  if 2 ^ 56 ≤ va then (3, none)
  else match translate mem (f.context ctx) ctx va with
    | .error _ => (3, none)
    | .ok t => (if f.inTransit ctx va then 2 else if bitOf t.attr 4 then 1 else 0, some t)

/-- The token of TQRY; the size and base of an unmapped page are free values `free1` and `free2` (log entry 13). -/
def Fabric.tqryToken (f : Fabric) (mem : Memory) (c va : Nat) (free1 free2 : Row) : Row :=
  let k := f.core c
  let p := f.pageState mem k.contextId va
  let size := match p.2 with | some t => t.size | none => elem 64 free1 0
  let base := match p.2 with | some t => t.va | none => elem 64 free2 0
  let mine := k.misses.filter (·.delegated)
  let lo := match p.2 with | some t => t.va | none => va / 65536 * 65536
  let n := match p.2 with | some t => t.size | none => 65536
  let parked := ((List.range 16).filter fun g => match (k.gen g).park with
    | some q => lo ≤ q.va && q.va < lo + n
    | none => false).map (2 ^ ·)
  ofVals 64 [p.1, size, base, mine.length, (match mine with | m :: _ => m.page | [] => 0), parked.sum]

/-- Whether the network queue has room. -/
def Core.netRoom (k : Core) : Bool := k.eng.net.length < 8

/-- A command put in the tier and network queue. -/
def Core.pushNet (k : Core) (n : NetCmd) : Core := { k with eng := { k.eng with net := k.eng.net ++ [n] } }

/-- A command of the tier and network queue as its entry reads it. -/
def netCmd (x : Issue) (m : EFields) (k : Core) (id total : Nat) : NetCmd :=
  { id := id, op := (opcodeOf x.i).getD 0, total := total, ty := m.ty, flags := m.flags.toNat, win := m.win.toNat,
    desc := k.desc m.desc.toNat, a := x.a, b := x.b, block := x.exec.id }

/-- A command enters the tier and network queue, with what else its entry does. -/
def Issue.enterNet (x : Issue) (m : EFields) (total : Nat) (also : Fabric → Fabric) (f : Fabric) : Fabric :=
  x.enter Core.netRoom 1 0 (fun id f => also (f.modCore x.who.core fun k => k.pushNet (netCmd x m k id total))) f

/-- The lowest run of `n` frames of the pool, aligned to its size (R261). -/
def poolRun (pool : List Nat) (n : Nat) : Option Nat :=
  leastOf (pool.filter fun g => g % n = 0 && (List.range n).all fun i => pool.contains (g + i))

/-- The lowest free run of `n` granules of the peat tier, aligned to its size (log entry 14). -/
def peatRun (used : List (Nat × Nat)) (cap n : Nat) : Option Nat :=
  let cands := 0 :: used.map fun p => (p.1 + p.2 + n - 1) / n * n
  leastOf (cands.filter fun o => o + n ≤ cap && used.all fun p => p.1 + p.2 ≤ o || o + n ≤ p.1)

/-- Granules that the expanders present hold in all. -/
def Units.peatCap (u : Units) : Nat := u.expanders.sum

/-- TIN (R261). -/
def goTin (mem : Memory) (m : EFields) (x : Issue) (f : Fabric) : Fabric :=
  let c := x.who.core
  let ctx := (f.core c).contextId
  let reg := (f.core c).regionId
  let va := elem 64 x.a 0
  match f.pageState mem ctx va with
  | (st, some t) =>
    if va % t.size ≠ 0 then x.checked none [rangeFail true 0] id f
    else if st = 0 then x.noResult f
    else if f.units.transits.any fun q => q.inward && q.ctx = ctx && q.page = va then x.enterNet m 0 id f
    else match poolRun (f.region reg).pool (t.size / 65536) with
      | none => x.checked none [(true, 0x47, 0xFF)] id f
      | some g =>
        x.enterNet m 0 (fun f =>
          (f.modRegion reg fun r => { r with pool := r.pool.filter fun y => !(g ≤ y && y < g + t.size / 65536) }).modUnits
            fun u => { u with transits := u.transits ++ [⟨true, ctx, va, t.size, t.leaf, g * 65536, reg⟩] }) f
  | (_, none) => x.checked none [rangeFail true 0] id f

/-- TOUT (R262): a page already leaving is left to that TOUT; one on its way in leaves after it has come. -/
def goTout (mem : Memory) (m : EFields) (x : Issue) (f : Fabric) : Fabric :=
  let c := x.who.core
  let ctx := (f.core c).contextId
  let reg := (f.core c).regionId
  let va := elem 64 x.a 0
  match f.pageState mem ctx va with
  | (st, some t) =>
    if va % t.size ≠ 0 || 2097152 < t.size then x.checked none [rangeFail true 0] id f
    else if st = 1 then x.noResult f
    else if f.units.transits.any fun q => !q.inward && q.ctx = ctx && q.page = va then x.enterNet m 0 id f
    else match peatRun f.units.peat f.units.peatCap (t.size / 65536) with
      | none => x.checked none [(true, 0x47, 0xFF)] id f
      | some o =>
        x.enterNet m 0 (fun f => f.modUnits fun u =>
          { u with
            peat := u.peat ++ [(o, t.size / 65536)]
            transits := u.transits ++ [⟨false, ctx, va, t.size, t.leaf, 0x8000000000000 + o * 65536, reg⟩] }) f
  | (_, none) => x.checked none [rangeFail true 0] id f

/-! ### Network and translation -/

/-- Whether a connection of the core's context is not open (R263). -/
def Fabric.connBad (f : Fabric) (c : Nat) (a : Row) : Bool :=
  255 < elem 32 a 0 || (sfind (f.context (f.core c).contextId).conns (elem 32 a 0)).isNone

/-- Rows that a region of a descriptor moves. -/
def regionRows (d : Desc) (b : Row) : Nat := regionRuns b * d.runRows (regionCount b 0)

/-- NSEND (R264). -/
def goNsend (m : EFields) (x : Issue) (f : Fabric) : Fabric :=
  let d := (f.core x.who.core).desc m.desc.toNat
  x.checked (some m.desc.toNat)
    (regionFails d x.b false ++ [(f.connBad x.who.core x.a, 0x46, 0), rangeFail (elem 64 x.a 1 % 64 ≠ 0) 1])
    (x.enterNet m (regionRows d x.b) id) f

/-- NGET (R265). -/
def goNget (m : EFields) (x : Issue) (f : Fabric) : Fabric :=
  let n := elem 64 x.a 2
  x.checked none
    [(f.connBad x.who.core x.a, 0x46, 0), rangeFail (elem 64 x.a 1 % 64 ≠ 0) 1, countFail (n = 0 || 2 ^ 32 ≤ n) 2,
     partyFail ((f.core x.who.core).notParty m.win.toNat true (partyIdent 5 0))]
    (x.enterNet m n id) f

/-- NRED (R266). -/
def goNred (m : EFields) (x : Issue) (f : Fabric) : Fabric :=
  let d := (f.core x.who.core).desc m.desc.toNat
  x.checked (some m.desc.toNat)
    (regionFails d x.b false ++
      [(f.connBad x.who.core x.a, 0x46, 0), rangeFail (elem 64 x.a 1 % 64 ≠ 0) 1, formatFail (d.fmt ≠ m.ty.toNat)])
    (x.enterNet m (regionRows d x.b) id) f

/-- XINV (R267). -/
def goXinv (m : EFields) (x : Issue) (f : Fabric) : Fabric :=
  let n := elem 64 x.a 1
  x.checked none [countFail (n = 0 || 2 ^ 32 < n) 1] (x.enterNet m 0 id) f

/-! ### Window images (R167 to R171) -/

/-- The header row of a window's image (Table 6-4). -/
def Core.imageHeader (k : Core) (c w : Nat) (rows : List Tok) : Row :=
  let n := k.win w
  BitVec.ofNat 512
    (0x575900B7 + (k.winCfg w).cap <<< 48 + n.f <<< 64 + n.head <<< 80 + w <<< 104 + (c % 128) <<< 112 +
      (k.plane.party w true) <<< 128 + (k.plane.party w false) <<< 160 +
      crc32c (rows.flatMap fun t => toBytes 64 t.bits) <<< 192)

/-- The rows of a window's image: header and data rows, oldest first. -/
def Core.imageRows (k : Core) (c w : Nat) : List Tok :=
  let n := k.win w
  let rows := (List.range n.f).map fun o => k.row (rowAt (k.winCfg w) n.head o)
  ⟨k.imageHeader c w rows, false⟩ :: rows

/-- A window image command: IMAGE_BAD for a window not configured, ADDR_ALIGN for a misaligned image; else its transfer begins,
a save from the state of this instant. -/
def goImage (m : EFields) (save : Bool) (x : Issue) (f : Fabric) : Fabric :=
  let c := x.who.core
  let k := f.core c
  let w := m.win.toNat
  let va := elem 64 x.a 0 % 2 ^ 56
  if elem 64 x.a 0 % 64 ≠ 0 then x.fault 0x0A (elem 64 x.a 0) 0 f
  else if (sfind k.plane.wins w).isNone then x.fault 0x22 (elem 64 x.a 0) 0 f
  else
    x.enter (fun _ => true) 1 0 (fun id f => f.modCore c fun k =>
      let rows := if save then k.imageRows c w else []
      let img : Image :=
        { id := id, save := save, win := w, va := va, rows := rows, total := if save then rows.length else 1, block := x.exec.id }
      { k with eng := { k.eng with images := k.eng.images ++ [img] } }) f

/-! ### Watchpoints -/

/-- Whether a trap is a WATCH of watchpoint `n`. -/
def Trap.watches (t : Trap) (n : Nat) : Bool :=
  t.code = 0x60 && (match t.info with | some i => i.toNat % 8 = n | none => false)

/-- A watchpoint set (R268): the step-over of a strike of it not yet returned from is cancelled (R430). -/
def Core.setWatch (k : Core) (n : Nat) (w : Watch) : Core :=
  let mark (t : Trap) : Trap := if t.watches n then { t with noStep := true } else t
  { k with
    dbg := { k.dbg with wps := sset k.dbg.wps n w }
    seq := { k.seq with pending := k.seq.pending.map mark, serving := k.seq.serving.map mark } }

/-- The masks that WPSET reads in both kinds. -/
def watchMasks (a : Row) : List (Bool × Nat × Nat) :=
  [countFail (elem 32 a 8 % 8 = 0) 8, countFail (elem 32 a 9 % 8 = 0) 9]

/-- WPSET over a descriptor (R268). -/
def goWpsetDescriptor (m : EFields) (x : Issue) (f : Fabric) : Fabric :=
  x.checked (some m.desc.toNat)
    (((List.range 4).map fun i => countFail (elem 32 x.a (4 + i) < elem 32 x.a i) i) ++ watchMasks x.a)
    (x.enter (fun _ => true) 0 0 fun _ f => f.modCore x.who.core fun k =>
      k.setWatch (m.mod.toNat % 8) ⟨false, k.desc m.desc.toNat, x.a, x.b⟩) f

/-- WPSET over a virtual range (R268). -/
def goWpsetRange (m : EFields) (x : Issue) (f : Fabric) : Fabric :=
  x.checked none (countFail (elem 32 x.a 2 = 0 || 4096 < elem 32 x.a 2) 2 :: watchMasks x.a)
    (x.enter (fun _ => true) 0 0 fun _ f => f.modCore x.who.core fun k =>
      k.setWatch (m.mod.toNat % 8) ⟨true, ⟨0, 0⟩, x.a, x.b⟩) f

/-! ### The command of an instruction -/

/-- What an engine command does at execution and, when it had to wait for room, at its entry (ENGINE_QUEUE_ENTRY). -/
def engineGo (mem : Memory) (i : Instr) : Issue → Fabric → Fabric :=
  match i with
  | .mxldw m => goMxldw m
  | .mxsel m => goMxsel m
  | .mxrun m => goMxrun m
  | .mxstat m => goMxstat m
  | .mxthr m => goMxthr m
  | .mxpeek m => goMxpeek m
  | .cpy m => goCpy m
  | .cpyChained m => goCpyChained m
  | .cpyw m => goCpyw m
  | .cpyr m => goCpyr m
  | .cpyi m => goCpyi m
  | .cpypMax m => goCpyp m
  | .cpypAvg m => goCpyp m
  | .cpyf m => goCpyf m
  | .strmRead m => goStrm m true
  | .strmWrite m => goStrm m false
  | .strw _ => goStrw
  | .strxStop _ => goStrxStop
  | .strxResume _ => goStrxResume
  | .tin m => goTin mem m
  | .tout m => goTout mem m
  | .nsend m => goNsend m
  | .nget m => goNget m
  | .nredAdd m => goNred m
  | .nredMax m => goNred m
  | .nredMin m => goNred m
  | .xinv m => goXinv m
  | .wpsetDescriptor m => goWpsetDescriptor m
  | .wpsetRange m => goWpsetRange m
  | .wsave m => goImage m true
  | .wrest m => goImage m false
  | _ => fun _ f => f

/-- MXLDW. -/
def execMxldw (m : EFields) (s : State) : Host.Outcome State Fault Refusal := issueStep (.mxldw m) (goMxldw m) s
/-- MXSEL. -/
def execMxsel (m : EFields) (s : State) : Host.Outcome State Fault Refusal := issueStep (.mxsel m) (goMxsel m) s
/-- MXRUN. -/
def execMxrun (m : EFields) (s : State) : Host.Outcome State Fault Refusal := issueStep (.mxrun m) (goMxrun m) s
/-- MXSTAT. -/
def execMxstat (m : EFields) (s : State) : Host.Outcome State Fault Refusal := issueStep (.mxstat m) (goMxstat m) s
/-- MXTHR. -/
def execMxthr (m : EFields) (s : State) : Host.Outcome State Fault Refusal := issueStep (.mxthr m) (goMxthr m) s
/-- MXPEEK. -/
def execMxpeek (m : EFields) (s : State) : Host.Outcome State Fault Refusal := issueStep (.mxpeek m) (goMxpeek m) s
/-- CPY. -/
def execCpy (m : EFields) (s : State) : Host.Outcome State Fault Refusal := issueStep (.cpy m) (goCpy m) s
/-- CPY with CHAIN. -/
def execCpyChained (m : EFields) (s : State) : Host.Outcome State Fault Refusal :=
  issueStep (.cpyChained m) (goCpyChained m) s
/-- CPYW. -/
def execCpyw (m : EFields) (s : State) : Host.Outcome State Fault Refusal := issueStep (.cpyw m) (goCpyw m) s
/-- CPYR. -/
def execCpyr (m : EFields) (s : State) : Host.Outcome State Fault Refusal := issueStep (.cpyr m) (goCpyr m) s
/-- CPYI. -/
def execCpyi (m : EFields) (s : State) : Host.Outcome State Fault Refusal := issueStep (.cpyi m) (goCpyi m) s
/-- CPYP, maximum. -/
def execCpypMax (m : EFields) (s : State) : Host.Outcome State Fault Refusal := issueStep (.cpypMax m) (goCpyp m) s
/-- CPYP, average. -/
def execCpypAvg (m : EFields) (s : State) : Host.Outcome State Fault Refusal := issueStep (.cpypAvg m) (goCpyp m) s
/-- CPYF. -/
def execCpyf (m : EFields) (s : State) : Host.Outcome State Fault Refusal := issueStep (.cpyf m) (goCpyf m) s
/-- STRM reading memory. -/
def execStrmRead (m : EFields) (s : State) : Host.Outcome State Fault Refusal :=
  issueStep (.strmRead m) (goStrm m true) s
/-- STRM writing memory. -/
def execStrmWrite (m : EFields) (s : State) : Host.Outcome State Fault Refusal :=
  issueStep (.strmWrite m) (goStrm m false) s
/-- STRW. -/
def execStrw (m : EFields) (s : State) : Host.Outcome State Fault Refusal := issueStep (.strw m) goStrw s
/-- STRX stop. -/
def execStrxStop (m : EFields) (s : State) : Host.Outcome State Fault Refusal := issueStep (.strxStop m) goStrxStop s
/-- STRX resume. -/
def execStrxResume (m : EFields) (s : State) : Host.Outcome State Fault Refusal :=
  issueStep (.strxResume m) goStrxResume s
/-- TQRY (R260): two free values are drawn each time. -/
def execTqry (m : EFields) (s : State) : Host.Outcome State Fault Refusal :=
  .next { s.onFabric (fun f => f.issue s.run.acting (.tqry m) fun x f =>
      x.result (f.tqryToken s.mem x.who.core (elem 64 x.a 0) (Config.freeValue s.run.free)
        (Config.freeValue (s.run.free + 1))) fNone f) with
    run := { s.run with free := s.run.free + 2 } }
/-- TIN. -/
def execTin (m : EFields) (s : State) : Host.Outcome State Fault Refusal := issueStep (.tin m) (goTin s.mem m) s
/-- TOUT. -/
def execTout (m : EFields) (s : State) : Host.Outcome State Fault Refusal := issueStep (.tout m) (goTout s.mem m) s
/-- NSEND. -/
def execNsend (m : EFields) (s : State) : Host.Outcome State Fault Refusal := issueStep (.nsend m) (goNsend m) s
/-- NGET. -/
def execNget (m : EFields) (s : State) : Host.Outcome State Fault Refusal := issueStep (.nget m) (goNget m) s
/-- NRED, add. -/
def execNredAdd (m : EFields) (s : State) : Host.Outcome State Fault Refusal := issueStep (.nredAdd m) (goNred m) s
/-- NRED, maximum. -/
def execNredMax (m : EFields) (s : State) : Host.Outcome State Fault Refusal := issueStep (.nredMax m) (goNred m) s
/-- NRED, minimum. -/
def execNredMin (m : EFields) (s : State) : Host.Outcome State Fault Refusal := issueStep (.nredMin m) (goNred m) s
/-- XINV. -/
def execXinv (m : EFields) (s : State) : Host.Outcome State Fault Refusal := issueStep (.xinv m) (goXinv m) s
/-- WPSET over a descriptor. -/
def execWpsetDescriptor (m : EFields) (s : State) : Host.Outcome State Fault Refusal :=
  issueStep (.wpsetDescriptor m) (goWpsetDescriptor m) s
/-- WPSET over a virtual range. -/
def execWpsetRange (m : EFields) (s : State) : Host.Outcome State Fault Refusal :=
  issueStep (.wpsetRange m) (goWpsetRange m) s
/-- WSAVE (R169). -/
def execWsave (m : EFields) (s : State) : Host.Outcome State Fault Refusal := issueStep (.wsave m) (goImage m true) s
/-- WREST (R170). -/
def execWrest (m : EFields) (s : State) : Host.Outcome State Fault Refusal := issueStep (.wrest m) (goImage m false) s

end Sys2Proof.Machine
end

