-- ==== Sys2Proof/Machine/Ready.lean ====
section
/-!
DEFINITION. Which actors are ready (R21), and which of them are candidates of their PE (R316, R317).
-/

namespace Sys2Proof.Machine

/-- The ports of an actor with their bindings in the active plane. -/
def Core.portsOf (k : Core) (a : Nat) : List (Nat × PortCfg) :=
  (List.range 16).filterMap fun n => (k.port a n).map fun p => (n, p)

/-- Whether a port keeps R21: an input holds `need` rows, an output has `make` free rows. -/
def Core.portReady (k : Core) (p : PortCfg) : Bool :=
  if p.out then p.need ≤ k.freeRows p.win else p.need ≤ k.readable p.win

/-- Whether an actor is ready (R21). -/
def Core.ready (k : Core) (a : Nat) : Bool :=
  k.group.isSome && (sfind k.plane.actors a).isSome && (k.portsOf a).all fun p => k.portReady p.2

/-- Whether an actor is held back from firing: by an unreturned trap, a pending tier miss, a deadlock report, or the
accumulator row that it was aborted for (R204, R45, R422, Table 9-8). -/
def Core.held (k : Core) (a : Nat) : Bool :=
  let x := k.actor a
  x.trapHeld || x.deadHeld || x.missPage.isSome || (match x.accWait with | some r => k.accHeld r | none => false)

/-- Whether a core starts firings: lit, not frozen, no drain or save in progress (R28, R225, R431). -/
def Core.starts (k : Core) : Bool := !k.dbg.frozen && !k.swapping && !k.saving

/-- Whether the units of an actor's earlier firings are performed as far as its fence asks (R191). -/
def Fabric.fenceOk (f : Fabric) (c a : Nat) : Bool :=
  match ((f.core c).actor a).fence with | some s => f.unitsDone (.actor c a) s | none => true

/-- Whether an actor taken alone may start a firing. -/
def Fabric.eligible (f : Fabric) (c a : Nat) : Bool :=
  let k := f.core c
  k.ready a && (k.actor a).firing.isNone && !k.held a && f.fenceOk c a

/-- Whether an actor is a candidate: it, and with it every member of its link set (R316, R317). -/
def Fabric.candidate (f : Fabric) (c a : Nat) : Bool :=
  let k := f.core c
  k.starts && (k.mates a).all (f.eligible c)

end Sys2Proof.Machine
end

