-- ==== Sys2Proof/Machine/Firing.lean ====
section
/-!
DEFINITION. The life of a firing (R21 to R29, R161, R163, R215, R316, R317): its start, the end of its waits, its completion
and commit, the release of the rows it filled (R371), and the delivery of what it asked of memory (R26, R49, R184, R187,
R357, R358).
-/

namespace Sys2Proof.Machine

/-! ### Start (R316, R317) -/

/-- Actors of a PE that are candidates, by index. -/
def Fabric.candidates (f : Fabric) (c pe : Nat) : List Nat := (List.range 4).filter fun i => f.candidate c (pe * 4 + i)

/-- The first member of a list at or after `p`, in actor-index order modulo 4. -/
def firstFrom (p : Nat) (l : List Nat) : Option Nat := ((List.range 4).map fun j => (p + j) % 4).find? l.contains

/-- Whether an actor is bound urgent (R214). -/
def Core.urgent (k : Core) (a : Nat) : Bool := match sfind k.plane.actors a with | some g => g.urgent | none => false

/-- The decision of a PE: the index picked, and whether from the urgent list. -/
def Fabric.pick (f : Fabric) (c pe : Nat) : Option (Nat × Bool) :=
  let k := f.core c
  let l := f.candidates c pe
  let aged := l.filter fun i => !k.urgent (pe * 4 + i) && (k.actor (pe * 4 + i)).age = 16
  let urgent := l.filter fun i => k.urgent (pe * 4 + i)
  let normal := l.filter fun i => !k.urgent (pe * 4 + i)
  let pn := sget 0 k.ptrN pe
  match firstFrom pn aged, firstFrom (sget 0 k.ptrU pe) urgent with
  | some i, _ => some (i, false)
  | none, some i => some (i, true)
  | none, none => (firstFrom pn normal).map fun i => (i, false)

/-- Ages and pointers after a decision. -/
def Core.decided (k : Core) (pe : Nat) (cands : List Nat) (p : Nat × Bool) : Core :=
  let older (k : Core) (i : Nat) : Core :=
    if i ≠ p.1 && !k.urgent (pe * 4 + i) then k.modActor (pe * 4 + i) fun x => { x with age := min (x.age + 1) 16 } else k
  let k := if p.2 then cands.foldl older k else k
  let k := k.modActor (pe * 4 + p.1) fun x => { x with age := 0 }
  let next := (p.1 + 1) % 4
  if p.2 then { k with ptrU := sset k.ptrU pe next } else { k with ptrN := sset k.ptrN pe next }

/-- What a firing reads as it stands at its start. -/
def Fabric.snapOf (f : Fabric) (c a : Nat) : Snap :=
  let k := f.core c
  let ws := (k.portsOf a).map fun p => p.2.win
  { f0 := ws.map fun w => (w, k.readable w)
    head0 := ws.map fun w => (w, (k.win w).head)
    acc := k.mx.acc
    g := k.seq.g
    ctl := f.ctlSnap c a }

/-- A firing of an actor started (R19, R22). -/
def Fabric.startFiring (f : Fabric) (c a : Nat) : Fabric :=
  let (id, f) := f.fresh
  let snap := f.snapOf c a
  let block := match sfind (f.core c).plane.actors a with | some g => g.block | none => 0
  f.modCore c fun k => k.modActor a fun x =>
    { x with firing := some { exec := { id := id, block := block, snap := snap, stepOver := x.stepOver } },
             stepOver := none, fence := none }

/-- FIRING_START (R316, R317): one decision of a PE. A member of a link set is held as the PE's pick until every member's PE
has picked its member; then the set starts as one. -/
def Fabric.firingStart (f : Fabric) (c pe : Nat) : Fabric :=
  if shas (f.core c).picks pe then f
  else match f.pick c pe with
    | none => f
    | some p =>
      let a := pe * 4 + p.1
      let f := f.modCore c fun k => (k.decided pe (f.candidates c pe) p).modActor a fun x => x
      let f := f.modCore c fun k => { k with picks := sset k.picks pe a }
      let k := f.core c
      let ms := k.mates a
      if ms.all fun m => sfind k.picks (m / 4) = some m then
        let f := f.modCore c fun k => { k with picks := ms.foldl (fun p m => sdel p (m / 4)) k.picks }
        ms.foldl (fun f m => f.startFiring c m) f
      else f

/-- FIRING_START. -/
def execFiringStart (core pe : Nat) (s : State) : Host.Outcome State Fault Refusal :=
  fabricStep (fun f => f.firingStart core pe) s

/-! ### Waits -/

/-- A trapped pinned firing back to pinned (R27, R453). -/
def Core.resumePinned (k : Core) (a : Nat) (how : Release) (over_ : Option Nat) : Core :=
  k.modActor a fun x =>
    { x with firing := x.firing.map fun y =>
        if y.phase = .trapped && y.release = how then
          { y with phase := .running, exec := { y.exec with stepOver := over_ } }
        else y }

/-- WAITING_FIRING_RESUME (R22, R32): the row that a WRDX waits for is there; the instruction is offered again. A pinned firing
that a WREST has trapped goes on (R453). -/
def Fabric.resumeRow (f : Fabric) (who : Agent) (slot : Nat) : Fabric :=
  let k := f.core who.core
  match k.exec who with
  | none =>
    match who with
    | .actor c a => if k.dbg.frozen then f else f.modCore c fun k => k.resumePinned a .wrest none
    | _ => f
  | some e =>
    match e.waits.find? (fun w => w.1 = slot), (k.blockOf who e).bind fun b => b.instrAt slot with
    | some (_, .row o), some (.wrdx w) =>
      match k.winOf who w.port.toNat with
      | some n => if o < k.readable n && !k.dbg.frozen then f.modCore who.core fun k => k.endWait who slot else f
      | none => f
    | _, _ => f

/-- WAITING_FIRING_RESUME. -/
def execWaitingFiringResume (who : Agent) (slot : Nat) (s : State) : Host.Outcome State Fault Refusal :=
  fabricStep (fun f => f.resumeRow who slot) s

/-- LOAD_SLOT_GRANT (R357, R358): the first asker of a channel, in a cycle after that of its asking, takes the slot that is free and
sends its request. -/
def Fabric.grantSlot (f : Fabric) (c chan : Nat) : Fabric :=
  let f := f.modCore c fun k => { k with askers := k.askers.filter k.stillAsks }
  let k := f.core c
  match k.askers.find? fun q => q.chan = chan with
  | none => f
  | some q =>
    if !f.slotReady c chan || f.units.cycle ≤ q.cycle || k.dbg.frozen then f
    else
      let f := f.modCore c fun k =>
        { k.endWait q.who q.slot with askers := k.askers.filter (· ≠ q) }
      let k := f.core c
      match k.exec q.who with
      | none => f
      | some e =>
        match (k.blockOf q.who e).bind fun b => b.instrAt q.slot with
        | some i => f.loadIssue (gather q.who q.slot i e) true
        | none => f

/-- LOAD_SLOT_GRANT. -/
def execLoadSlotGrant (core chan : Nat) (s : State) : Host.Outcome State Fault Refusal :=
  fabricStep (fun f => f.grantSlot core chan) s

/-! ### Responses (R26, R49, R184, R187, R357) -/

/-- The block in progress of an agent whatever the state of its firing. -/
def Core.execAny (k : Core) (who : Agent) : Option Exec :=
  match who with
  | .actor _ a => (k.actor a).firing.map Firing.exec
  | .seq _ => k.seq.exec
  | .bind _ => k.bindExec

/-- The block that issued a request, while it is in progress. -/
def Fabric.issuer (f : Fabric) (r : Req) : Option Exec :=
  match (f.core r.who.core).execAny r.who with
  | some e => if e.id = r.exec then some e else none
  | none => none

/-- One half of an LD2 delivered to its target: the instruction completes with the second (R181, R357). -/
def Core.half (k : Core) (who : Agent) (slot : Nat) (i : Instr) (lane : Nat) (t : Tok) : Core :=
  k.sendTarget who slot lane (if lane = 0 then (commonFields i).t1 else (commonFields i).t2) (.tok t)

/-- A response that answers an aborted block discarded: the slot of its channel returns then, of an LD2 with the later of its
halves (R26, R357). -/
def Fabric.discard (f : Fabric) (r : Req) (lane : Nat) : Fabric :=
  let rest := r.lanes.filter fun l => l.idx ≠ lane
  if r.kind = .load2 && rest ≠ [] then (f.sink (.reply r.id lane)).putReq { r with lanes := rest } else f.closeReq r

/-- A response delivered: the result to the targets, the slot of the channel returned (R49). -/
def Fabric.respond (f : Fabric) (r : Req) (lane : Nat) : Fabric :=
  let c := r.who.core
  match f.issuer r with
  | none => f.discard r lane
  | some e =>
    match ((f.core c).blockOf r.who e).bind fun b => b.instrAt r.slot, r.kind with
    | none, _ => f.discard r lane
    | some i, .load2 =>
      match r.lanes.find? fun l => l.idx = lane with
      | none => f
      | some l =>
        let t := laneValue e r l
        let f := f.modCore c fun k => k.half r.who r.slot i lane ⟨t.bits, t.ember || r.val⟩
        let r' := { r with lanes := r.lanes.filter fun l => l.idx ≠ lane }
        if r'.lanes = [] then
          (f.closeReq r').modCore c fun k => k.modExec r.who fun e => e.mark r.slot fNone
        else (f.sink (.reply r.id lane)).putReq r'
    | some i, _ =>
      let v := resultTok e r
      (f.closeReq r).modCore c fun k => k.finish r.who r.slot i (.tok v) (.tok v) fNone

/-- Whether the response of a lane has come back from its slice. -/
def Fabric.laneBack (f : Fabric) (r : Req) (l : ReqLane) : Bool := l.got.isSome && f.units.here (.reply r.id l.idx)

/-- Whether a response has come back from the slices: of an LD2 the half that is named, else every lane. -/
def Fabric.answered (f : Fabric) (r : Req) (lane : Nat) : Bool :=
  if r.kind = .load2 then r.lanes.any fun l => l.idx = lane && f.laneBack r l else r.lanes.all (f.laneBack r)

/-- LOAD_RESPONSE (R357): delivered at once, or kept in the skid buffer of a frozen core, which holds 64 (R431). -/
def Fabric.loadResponse (f : Fabric) (id lane : Nat) : Fabric :=
  match f.req id with
  | none => f
  | some r =>
    let c := r.who.core
    let k := f.core c
    if !r.kind.isLoad || !f.answered r lane then f
    else if k.dbg.frozen then
      if k.dbg.skid.contains (id, lane) || 64 ≤ k.dbg.skid.length then f
      else f.modCore c fun k => { k with dbg := { k.dbg with skid := k.dbg.skid ++ [(id, lane)] } }
    else f.respond r lane

/-- LOAD_RESPONSE. -/
def execLoadResponse (id lane : Nat) (s : State) : Host.Outcome State Fault Refusal :=
  fabricStep (fun f => f.loadResponse id lane) s

/-- EAGER_ATOMIC_RETURN (R187, R188): the token of old values when every lane is done. -/
def Fabric.eagerReturn (f : Fabric) (id : Nat) : Fabric :=
  match f.req id with
  | none => f
  | some r =>
    let k := f.core r.who.core
    if r.kind ≠ .eager || !f.answered r 0 then f
    else if k.dbg.frozen then
      if k.dbg.skid.contains (id, 0) || 64 ≤ k.dbg.skid.length then f
      else f.modCore r.who.core fun k => { k with dbg := { k.dbg with skid := k.dbg.skid ++ [(id, 0)] } }
    else f.respond r 0

/-- EAGER_ATOMIC_RETURN. -/
def execEagerAtomicReturn (id : Nat) (s : State) : Host.Outcome State Fault Refusal :=
  fabricStep (fun f => f.eagerReturn id) s

/-! ### Completion (R120, R22) -/

/-- Whether every output of a block has executed or been squashed. -/
def outputsDone (b : Block) (e : Exec) : Bool := b.instrs.all fun s => !isOutput s.2 || e.done.contains s.1

/-- FIRING_COMPLETE: a running firing whose outputs are done passes to commit. -/
def Fabric.firingComplete (f : Fabric) (c a : Nat) : Fabric :=
  let k := f.core c
  match (k.actor a).firing with
  | none => f
  | some g =>
    match k.blockOf (.actor c a) g.exec with
    | none => f
    | some b =>
      if g.phase = .running && g.exec.waits = [] && outputsDone b g.exec && !k.dbg.frozen then
        f.modCore c fun k => k.modActor a fun x => { x with firing := some { g with phase := .committing } }
      else f

/-- FIRING_COMPLETE. -/
def execFiringComplete (core at_ : Nat) (s : State) : Host.Outcome State Fault Refusal :=
  fabricStep (fun f => f.firingComplete core at_) s

end Sys2Proof.Machine
end

