-- ==== Sys2Proof/Machine/Commit.lean ====
section
/-!
DEFINITION. Commit (R24, R25, R45, R163, R176, R178, R192, R380): its conditions and checks, the effects in order, the unit
handed to the store path (R364, R365), and the release of rows (R371).
-/

namespace Sys2Proof.Machine

/-! ### Conditions -/

/-- The stores and deferred atomics of a block in slot order; one that carries the ember bit is not stored (R404). -/
def storeLanes (e : Exec) : List MemLane :=
  e.effects.flatMap fun x => match x.2 with | .store lanes false => lanes | _ => []

/-- Packets of a block's stores: one for each line that an instruction writes (R350, R352; log entry 66). -/
def storePackets (e : Exec) : Nat :=
  (e.effects.map fun x => match x.2 with | .store lanes false => ((lanes.map fun l => lineOf l.pa).eraseDups).length | _ => 0).sum

/-- Store instructions of a block, as ST counts them (R52). -/
def storeOps (e : Exec) : Nat := (e.effects.filter fun x => match x.2 with | .store _ _ => true | _ => false).length

/-- The lines that lanes write. -/
def laneLines (l : List MemLane) : List Nat := (l.map fun x => lineOf x.pa).eraseDups

/-- The key of a firing (R377): timestamp, die and core, PE and actor index. -/
def keyOf (c a : Nat) (e : Exec) : Option (Nat × Nat × Nat) :=
  match e.tstamp with
  | some t => if t = BitVec.allOnes 64 then none else some (t.toNat, c, a)
  | none => none

/-- Keys compared from the left. -/
def keyLt (x y : Nat × Nat × Nat) : Bool :=
  x.1 < y.1 || (x.1 = y.1 && (x.2.1 < y.2.1 || (x.2.1 = y.2.1 && x.2.2 < y.2.2)))

/-- The ordered-update lines that a firing has touched: those it read, and those its stores write (R380). -/
def touchedLines (e : Exec) : List Nat := e.lines ++ laneLines ((storeLanes e).filter fun l => l.cls = 2)

/-- Whether a firing has touched an ordered-update page. -/
def touchedOrdered (e : Exec) : Bool := e.serial || touchedLines e ≠ []

/-- Whether a firing in progress goes before key `q` in ascending key though HORIZON does not tell: one of the same timestamp with a
lower key; a trapped one only when it has touched one of the lines that `sel` chooses (R380; log entry 67). -/
def keyedBefore (c a : Nat) (q : Nat × Nat × Nat) (sel : Nat → Bool) (g : Firing) : Bool :=
  match keyOf c a g.exec with
  | some z => z.1 = q.1 && keyLt z q && (g.phase ≠ .trapped || g.exec.serial || (touchedLines g.exec).any sel)
  | none => false

/-- Whether something of a lower key than `q` has still to take effect: a unit not yet performed that writes one of the
ordered-update lines that `sel` chooses, or a firing in progress other than the actors `mates` of the core (R380). -/
def Fabric.lowerKey (f : Fabric) (c : Nat) (mates : List Nat) (q : Nat × Nat × Nat) (sel : Nat → Bool) : Bool :=
  let reg := (f.core c).regionId
  (f.units.stores.any fun u =>
    !u.performed && u.region = reg && (match u.key with | some z => keyLt z q | none => false) &&
      (laneLines (u.lanes.filter fun l => l.cls = 2)).any sel) ||
    f.cores.any fun p =>
      p.2.regionId = reg && p.2.actors.any fun y =>
        !(p.1 = c && mates.contains y.1) &&
          (match y.2.firing with | some g => keyedBefore p.1 y.1 q sel g | none => false)

/-- Whether a timestamped firing that touched an ordered-update page may commit: HORIZON has reached it, and nothing of a lower key
that its lines concern has still to take effect (R192, R380). -/
def Fabric.timely (f : Fabric) (c : Nat) (mates : List Nat) (a : Nat) (e : Exec) : Bool :=
  match keyOf c a e with
  | none => true
  | some q =>
    !touchedOrdered e ||
      (q.1 ≤ (f.region (f.core c).regionId).horizon.toNat &&
        !f.lowerKey c mates q fun l => e.serial || (touchedLines e).contains l)

/-- The commit log's next entry for a core during a replay (R434). -/
def Region.nextCommit (r : Region) (c : Nat) : Option Nat := (r.replay.find? fun p => p.1 = c).map Prod.snd

/-- Whether a core may count another commit: it is not frozen, and an armed stop lies ahead (R272, R432). -/
def Core.mayRetire (k : Core) : Bool :=
  !k.dbg.frozen && (match k.dbg.stop with | some n => k.dbg.retired < n | none => true)

/-- Whether the replay, where one is in progress, names this committer next. -/
def Fabric.replayNames (f : Fabric) (c code : Nat) : Bool :=
  match (f.region (f.core c).regionId).nextCommit c with | some x => x = code | none => true

/-- Whether commits of places `lo` and above may still count in this cycle: they count in ascending PE_ID, a sequencer's, place 256,
last (R432). -/
def Fabric.inTurn (f : Fabric) (c lo : Nat) : Bool :=
  (f.core c).commitAt.1 ≠ f.units.cycle || (f.core c).commitAt.2 ≤ lo

/-- The place of the latest commit of a core noted. -/
def Fabric.noteCommit (f : Fabric) (c place : Nat) : Fabric :=
  f.modCore c fun k => { k with commitAt := (f.units.cycle, place) }

/-- Whether every window that a block changes is free of a WREST in progress (R170). -/
def Core.windowsFree (k : Core) (a : Nat) (e : Exec) : Bool :=
  (!(e.effects.any fun x => match x.2 with | .acc _ o _ => o.isPatch | _ => false) || !k.logRestoring) && e.effects.all fun x =>
    let port := match x.2 with
      | .upd p _ _ => some p
      | .fill p _ => some p
      | .shrink p _ => some p
      | _ => none
    match port.bind (k.port a) with | some q => !k.restoring q.win | none => true

/-- Whether a unit may be handed over: no cut holds it, and the store credits suffice (R352, R411). -/
def Fabric.mayHandOver (f : Fabric) (c packets : Nat) : Bool :=
  let k := f.core c
  packets = 0 || (!k.cutDone && packets ≤ k.credits)

/-- The executions of the members of an actor's link set, by ascending PE (R215); none unless all are committing. -/
def Core.committers (k : Core) (a : Nat) : List (Nat × Exec) :=
  let ms := k.mates a
  let l := ms.filterMap fun m => match (k.actor m).firing with
    | some g => if g.phase = .committing then some (m, g.exec) else none
    | none => none
  if l.length = ms.length then l else []

/-- Whether a commit may happen now; a firing that carries the ember bit never commits (R27, R404). -/
def Fabric.mayCommit (f : Fabric) (c : Nat) (l : List (Nat × Exec)) : Bool :=
  let k := f.core c
  l ≠ [] && k.mayRetire &&
    (l.all fun p =>
      p.2.inflight = [] && !p.2.spoiled && k.windowsFree p.1 p.2 && f.timely c (l.map Prod.fst) p.1 p.2 && f.inTurn c (p.1 / 4)) &&
    (match l with | p :: _ => f.replayNames c p.1 | [] => true) &&
    f.mayHandOver c (l.map fun p => storePackets p.2).sum

/-! ### Checks at commit -/

/-- The WSHR at which the shrinks of a window first exceed its rows, with their total (R25). -/
def Core.underflow (k : Core) (a : Nat) (e : Exec) : Option (Nat × Nat) :=
  let shr := e.effects.filterMap fun x => match x.2 with | .shrink p n => some (x.1, p, n) | _ => none
  let bad := shr.zipIdx.filter fun q =>
    let sum := (((shr.take (q.2 + 1)).filter fun y => y.2.1 = q.1.2.1).map fun y => y.2.2).sum
    match k.port a q.1.2.1 with | some w => k.readable w.win < sum | none => false
  match bad with
  | q :: _ => some (q.1.1, ((shr.filter fun y => y.2.1 = q.1.2.1).map fun y => y.2.2).sum)
  | [] => none

/-- The accumulator write whose row a matrix operation holds now (R45). -/
def Core.accBusy (k : Core) (e : Exec) : Option (Nat × Nat) :=
  e.effects.findSome? fun x =>
    match x.2 with
    | .acc row o _ => ((o.rows row).find? k.accHeld).map fun r => (x.1, r)
    | _ => none

/-- The slots of the APATCH instructions of a firing. -/
def patchSlots (e : Exec) : List Nat :=
  e.effects.filterMap fun x => match x.2 with | .acc _ (.patch _ _ _) _ => some x.1 | _ => none

/-- The APATCH for whose two rows the patch-log window has no room, `prior` patches of the same commit going before (R178). -/
def Core.logFull (k : Core) (prior : Nat) (e : Exec) : Option (Nat × Nat) :=
  match k.plane.patchLog with
  | none => none
  | some w => if k.freeRows w < 2 * (prior + (patchSlots e).length) then
      ((patchSlots e)[k.freeRows w / 2 - prior]?).map fun s => (s, w)
    else none

/-- The failing check of a firing at commit, at the lowest slot: slot, cause, TRAP_ADDR. -/
def Core.commitFail (k : Core) (prior a : Nat) (e : Exec) : Option (Nat × Nat × Nat) :=
  let tag (code : Nat) (o : Option (Nat × Nat)) : List (Nat × Nat × Nat) :=
    match o with | some p => [(p.1, code, p.2)] | none => []
  let l := tag 0x21 (k.underflow a e) ++ tag 0x08 (k.accBusy e) ++ tag 0x09 (k.logFull prior e)
  l.foldl (fun m x => match m with | some y => if x.1 < y.1 then some x else m | none => some x) none

/-! ### Effects (R24) -/

/-- Step 1: row updates, at offsets counted from the head at firing start, then shrinks. -/
def Core.commitRows (k : Core) (a : Nat) (e : Exec) : Core :=
  let k := e.effects.foldl
    (fun k x => match x.2 with
      | .upd p o t =>
        (match k.port a p with
         | some q => if t.ember then k else k.setRow (rowAt (k.winCfg q.win) (sget 0 e.snap.head0 q.win) o) t
         | none => k)
      | _ => k) k
  e.effects.foldl
    (fun k x => match x.2 with
      | .shrink p n => (match k.port a p with | some q => k.shrinkWin q.win n | none => k)
      | _ => k) k

/-- Step 2: fills, in slot order. -/
def Core.commitFills (k : Core) (a : Nat) (e : Exec) (rel : Option (Nat × Nat)) : Core :=
  e.effects.foldl
    (fun k x => match x.2 with
      | .fill p t =>
        (match k.port a p with | some q => if t.ember then k else k.fillHeld q.win t rel | none => k)
      | _ => k) k

/-- Step 3: held registers and accumulator rows in slot order, then FPX. -/
def Core.commitRegs (k : Core) (who : Agent) (a : Nat) (e : Exec) (rel : Option (Nat × Nat)) : Core :=
  let q := e.effects.foldl
    (fun q x => match x.2 with
      | .held n t =>
        if t.ember then q else ((q.1.modActor a fun y => { y with held := sput 0 y.held (n % 8) t.bits }), q.2)
      | .acc row o t =>
        if t.ember then q
        else
          let r := q.1.accApply who row o t rel
          (r.1, q.2 ||| r.2)
      | _ => q) (k, fNone)
  q.1.modActor a fun y => { y with fpx := y.fpx ||| e.flags ||| q.2 }

/-- The barriers at which a firing arrives. -/
def arrivals (e : Exec) : List Nat := e.effects.filterMap fun x => match x.2 with | .arrive b => some b | _ => none

/-- The end of a committed firing: FIRING_CNT and RETIRED rise, its timestamp becomes its actor's contribution (R377). -/
def Core.retire (k : Core) (a : Nat) (e : Exec) : Core :=
  let k := k.modActor a fun y =>
    { y with firing := none, count := y.count + 1, joined := match e.tstamp with | some t => some t | none => y.joined }
  { k with dbg := { k.dbg with retired := k.dbg.retired + 1 } }

/-- A commit in the region's commit log, and out of the replay's list where it stands there (R433, R434). -/
def Fabric.logCommit (f : Fabric) (c code : Nat) : Fabric :=
  f.modRegion (f.core c).regionId fun r =>
    { r with commits := r.commits ++ [(c, code)], replay := r.replay.eraseP fun p => p.1 = c, idle := 0 }

/-- Arrivals at barriers, made now, or held until the unit named has left the port (R193). -/
def Core.arriveAll (k : Core) (bars : List Nat) (unit : Option Nat) : Core :=
  match unit with
  | none => bars.foldl Core.arrive k
  | some u => { k with barWait := k.barWait ++ bars.map fun b => (u, b) }

/-- A unit handed to the store path: its stamp is the cycle, then the die, core and PE of its agent; ST rises for a sequencer
(R185, R364, R365). -/
def Fabric.handOver (f : Fabric) (id c pe ops packets block : Nat) (whos : List Agent) (key : Option (Nat × Nat × Nat))
    (lanes : List MemLane) : Fabric :=
  if lanes = [] then f
  else
    let u : StoreUnit :=
      { id := id, cycle := f.units.cycle, core := c, pe := pe, whos := whos, region := (f.core c).regionId, lanes := lanes,
        ops := ops, key := key, block := block, packets := packets }
    (f.modUnits fun v => { v with stores := v.stores ++ [u] }).modCore c fun k =>
      { k with credits := k.credits - packets, counts := { k.counts with st := k.counts.st + ops } }

/-- The least key of a list. -/
def leastKey (l : List (Option (Nat × Nat × Nat))) : Option (Nat × Nat × Nat) :=
  l.foldl (fun m x => match m, x with
    | none, y => y
    | m, none => m
    | some y, some z => if keyLt z y then some z else some y) none

/-- One member's effects applied; `unit` is the commit's unit when it stores. -/
def Fabric.commitOne (f : Fabric) (c a : Nat) (e : Exec) (unit : Option Nat) : Fabric :=
  let who : Agent := .actor c a
  let rel := match unit with | some u => some (agentCode who, u) | none => f.heldUnit who
  (f.modCore c fun k =>
    (((((k.commitRows a e).commitFills a e rel).commitRegs who a e rel).arriveAll (arrivals e) unit).retire a e)).logCommit c a

/-- The commit of a firing, or of the firings of a link set as one unit. -/
def Fabric.commitAll (f : Fabric) (c : Nat) (l : List (Nat × Exec)) : Fabric :=
  let lanes := l.flatMap fun p => storeLanes p.2
  let (id, f) := f.fresh
  let unit := if lanes = [] then none else some id
  let f := l.foldl (fun f p => f.commitOne c p.1 p.2 unit) f
  let f := f.noteCommit c (l.foldl (fun m p => max m (p.1 / 4)) 0)
  f.handOver id c (match l with | p :: _ => p.1 / 4 | [] => 0) 0 (l.map fun p => storePackets p.2).sum 0 (l.map fun p => .actor c p.1)
    (leastKey (l.map fun p => keyOf c p.1 p.2)) lanes

/-- The first failing check of a commit: the member, its execution, the slot, the cause and TRAP_ADDR. -/
def Core.firstFail (k : Core) : Nat → List (Nat × Exec) → Option ((Nat × Exec) × Nat × Nat × Nat)
  | _, [] => none
  | prior, p :: r =>
    match k.commitFail prior p.1 p.2 with
    | some x => some (p, x)
    | none => k.firstFail (prior + (patchSlots p.2).length) r

/-- COMMIT (R24, R25): a failing check aborts the firing, or traps it when pinned (R27). -/
def Fabric.commit (f : Fabric) (c a : Nat) : Fabric :=
  let k := f.core c
  let l := k.committers a
  if !f.mayCommit c l then f
  else match k.firstFail 0 l with
    | some (p, slot, code, addr) =>
      match (k.blockOf (.actor c p.1) p.2).bind fun b => b.instrAt slot with
      | some i => f.firingFault c p.1 (slotTrap (.actor c p.1) slot i false code addr 0)
      | none => f
    | none => f.commitAll c l

/-- COMMIT. -/
def execCommit (core at_ : Nat) (s : State) : Host.Outcome State Fault Refusal :=
  fabricStep (fun f => f.commit core at_) s

/-! ### Units leave the port (R366, R367, R371) -/

/-- Whether a release note still holds: a unit of its agent, numbered up to it, is not yet performed as far as the window's
reader asks, which is at module scope for a circuit (R371, R376). -/
def Fabric.stillHeld (f : Fabric) (c w : Nat) (n : Nat × Nat) : Bool :=
  let circuit := field ((f.core c).plane.party w false) 31 28 = 3
  f.units.stores.any fun u =>
    u.core = c && u.id ≤ n.2 && (u.whos.any fun q => agentCode q = n.1) && !(if circuit then u.performed else u.sent)

/-- Rows whose filler's units have gone, released to their readers. -/
def Fabric.releaseRows (f : Fabric) (c : Nat) : Fabric :=
  f.modCore c fun k => { k with wins := k.wins.map fun p => (p.1, { p.2 with unrel := p.2.unrel.filter (f.stillHeld c p.1) }) }

/-- Whether a unit still has a part to send. -/
def Fabric.unsentUnit (f : Fabric) (id : Nat) : Bool := f.units.stores.any fun u => u.id = id && !u.sent

/-- The arrivals made and the rows released that waited only for units that have gone; a frozen core makes none (R193, R371, R431). -/
def Fabric.settleSent (f : Fabric) (c : Nat) : Fabric :=
  if (f.core c).dbg.frozen then f
  else
    (f.modCore c fun k =>
      let gone := k.barWait.filter fun p => !f.unsentUnit p.1
      (gone.map Prod.snd).foldl Core.arrive { k with barWait := k.barWait.filter fun p => f.unsentUnit p.1 }).releaseRows c

/-- A unit whose last part has left the port: arrivals that waited for it are made, rows released (R193, R371). -/
def Fabric.unitSent (f : Fabric) (u : StoreUnit) : Fabric :=
  (f.modUnits fun v =>
    { v with stores := v.stores.map fun x => if x.id = u.id then { x with sent := true } else x }).settleSent u.core

/-- Whether an earlier unit of the port still has to send one of these lines (R367). -/
def Fabric.behindUnit (f : Fabric) (c id : Nat) (lines : List Nat) : Bool :=
  f.units.stores.any fun v =>
    v.core = c && v.id < id && !v.sent && (laneLines v.lanes).any fun l => lines.contains l && !v.arrived.contains l

/-- Whether a part of an earlier unit of the port for one of these lines has still to reach its slice (R364, R367). -/
def Fabric.behindPart (f : Fabric) (c id : Nat) (lines : List Nat) : Bool :=
  f.units.stores.any fun v =>
    v.core = c && v.id < id && !v.performed && (laneLines v.lanes).any fun l => lines.contains l && !v.arrived.contains l

/-- Whether every part of a unit has left the local port. -/
def Fabric.allLeft (f : Fabric) (u : StoreUnit) : Bool :=
  (laneLines u.lanes).all fun l => u.arrived.contains l || f.units.carries (.part u.id l)

/-- ROW_RELEASE: the last part of a unit has left the local port; rows that waited for it are released. -/
def execRowRelease (core unit : Nat) (s : State) : Host.Outcome State Fault Refusal :=
  fabricStep (fun f =>
    match f.units.stores.find? fun u => u.id = unit && u.core = core with
    | some u =>
      if u.sent || (f.core core).dbg.frozen || f.behindUnit core unit (laneLines u.lanes) || !f.allLeft u then f else f.unitSent u
    | none => f) s

/-- STORE_ACKNOWLEDGEMENT (R185, R352): the acknowledgement of a performed unit returns its credits and lowers ST; that of an
engine's row write returns one credit. A core that another region has taken has none of it; that of a frozen core waits (R431). -/
def Fabric.storeAck (f : Fabric) (c : Nat) (unit : Option Nat) : Fabric :=
  if (f.core c).dbg.frozen then f
  else match unit with
  | some id =>
    match f.units.stores.find? fun u => u.id = id && u.core = c && u.performed && f.units.here (.ack id) with
    | none => f
    | some u =>
      ((f.sink (.ack id)).modUnits fun v => { v with stores := v.stores.filter fun x => x.id ≠ id }).modCore c fun k =>
        if k.regionId ≠ u.region then k
        else { k with credits := k.credits + u.packets, counts := { k.counts with st := k.counts.st - u.ops } }
  | none =>
    let held := (f.units.stores.map fun u => if u.core = c then u.packets else 0).sum
    if (f.core c).credits + held < 256 then f.modCore c fun k => { k with credits := k.credits + 1 } else f

/-- STORE_ACKNOWLEDGEMENT. -/
def execStoreAcknowledgement (core : Nat) (unit : Option Nat) (s : State) : Host.Outcome State Fault Refusal :=
  fabricStep (fun f => f.storeAck core unit) s

end Sys2Proof.Machine
end

