-- ==== Sys2Proof/Machine/Slices.lean ====
section
/-!
DEFINITION. The home slices (R362 to R368): loads and eager atomics performed at their line, store units performed at one
instant, ordered-update tracking and its conflicts (R380 to R382), the undo log (R411), the applying of logged arrivals in a
replay (R434), and HORIZON (R378).
-/

namespace Sys2Proof.Machine

/-! ### Writing -/

/-- Bytes written; a whole line written clears its poison (R404). -/
def Memory.store (m : Memory) (a : Nat) (l : List Byte) : Memory :=
  let m := m.write a l
  if l.length = 64 && a % 64 = 0 then { m with poison := m.poison.filter (· ≠ lineOf a) } else m

/-- Whether bytes at an address lie in a poisoned line (R404). -/
def Memory.marked (m : Memory) (pa n : Nat) : Bool := (m.token pa n).ember

/-- A store lane or an atomic applied at an address (R182, R187, Table 6-10); the new value of an atomic on a poisoned line carries
the ember bit and is discarded (R404). -/
def Memory.lane (m : Memory) (pa n op : Nat) (ty : BitVec 4) (data cmp : Nat) : Memory :=
  if op ≠ 0 && m.marked pa n then m
  else m.store pa (natBytes n (if op = 0 then data else atomicNew op ty (m.readNat pa n) data cmp))

/-- A line's value kept among those it has held, by every region of the context that runs, since its start token (R375). -/
def Fabric.pastNote (f : Fabric) (mem : Memory) (reg va pa : Nat) : Fabric :=
  let ctx := (f.region reg).context
  let note (r : Region) : Region :=
    { r with past := sset r.past (va / 64) (mem.token (pa / 64 * 64) 64 :: sget [] r.past (va / 64)) }
  f.modUnits fun u =>
    { u with regions := u.regions.map fun q => if q.1 = reg || (q.2.context = ctx && q.2.running) then (q.1, note q.2) else q }

/-- The old value of a line kept before a write: in the region's undo log at the first write of the interval (R411), which when
full keeps nothing more (R413), and among the values it has held. -/
def Fabric.undoNote (f : Fabric) (mem : Memory) (reg va pa : Nat) : Fabric :=
  (f.pastNote mem reg va pa).modRegion reg fun r =>
    if r.full || shas r.undo (va / 64) then r
    else { r with undo := sset r.undo (va / 64) (mem.token (pa / 64 * 64) 64) }

/-- The value of a line that a read of a region returns: on a page of the streaming class one of those held since the start
token, chosen by a free value (R375). -/
def Fabric.lineSeen (f : Fabric) (mem : Memory) (reg va pa cls : Nat) (free : Row) : Tok :=
  let now := mem.token (pa / 64 * 64) 64
  if cls = 0 then
    let l := now :: sget [] (f.region reg).past (va / 64)
    l.getD (free.toNat % l.length) now
  else now

/-- `n` bytes of a line from offset `o`. -/
def Tok.part (t : Tok) (o n : Nat) : Tok := ⟨BitVec.ofNat 512 (t.bits.toNat >>> (8 * o) % 2 ^ (8 * n)), t.ember⟩

/-- One more access of the region to a line, as its input log counts them (R433). -/
def Fabric.countAccess (f : Fabric) (reg va : Nat) : Fabric :=
  f.modRegion reg fun r => { r with lines := sset r.lines (va / 64) (sget 0 r.lines (va / 64) + 1) }

/-! ### Ordered-update tracking (R284, R380 to R382) -/

/-- The firing that a tracking entry names (actor code, block number), while it is in progress. -/
def Fabric.reader (f : Fabric) (q : Nat × Nat) : Option Firing :=
  match ((f.core (q.1 / 1024)).actor (q.1 % 1024)).firing with
  | some g => if g.exec.id = q.2 then some g else none
  | none => none

/-- The readers that a slice still tracks for a line. -/
def Fabric.readersOf (f : Fabric) (line : Nat) : List (Nat × Nat) :=
  (sget [] f.units.tracked line).filter fun q => (f.reader q).isSome

/-- The slice of a line: its die and slice number (R281). -/
def sliceOf (line : Nat) : Nat :=
  let pa := line * 64
  pa / 206158430208 * 16 + pa % 206158430208 / 4096 % 16

/-- Whether a slice already tracks 8,192 lines. -/
def Fabric.trackingFull (f : Fabric) (line : Nat) : Bool :=
  8192 ≤ (f.units.tracked.filter fun p => p.1 ≠ line && sliceOf p.1 = sliceOf line && f.readersOf p.1 ≠ []).length

/-- A write of key `key` (none: keyless) to a line: every uncommitted firing of the region that read it with a greater key is
upset, by a keyless write of any region's; one in serial order never is (R380 to R382). -/
def Fabric.conflict (f : Fabric) (reg line : Nat) (key : Option (Nat × Nat × Nat)) : Fabric :=
  (f.readersOf line).foldl
    (fun f q =>
      let c := q.1 / 1024; let a := q.1 % 1024
      match f.reader q with
      | none => f
      | some g =>
        let later := match key, keyOf c a g.exec with
          | none, _ => true
          | some k, some z => keyLt k z
          | some _, none => false
        if later && !g.exec.serial && (key.isNone || (f.core c).regionId = reg) then f.upset c a else f) f

/-- What a timestamped firing's load finds at an ordered-update line: whether it is performed now, and the fabric with the
line tracked, or the firing gone to serial order (R380, R381). -/
def Fabric.track (f : Fabric) (c a line : Nat) (e : Exec) : Bool × Fabric :=
  let late := match keyOf c a e with
    | some q =>
      q.1 ≤ (f.region (f.core c).regionId).horizon.toNat && !f.lowerKey c ((f.core c).mates a) q (· = line)
    | none => true
  let set (g : Exec → Exec) : Fabric := f.modCore c fun k => k.modActor a fun x =>
    { x with firing := x.firing.map fun y => { y with exec := g y.exec } }
  if e.serial then (late, f)
  else if e.lines.contains line then (true, f)
  else if 32 ≤ e.lines.length || f.trackingFull line then (late, set fun e => { e with serial := true })
  else
    (true, (set fun e => { e with lines := e.lines ++ [line] }).modUnits fun u =>
      { u with tracked := sset u.tracked line (f.readersOf line ++ [(c * 1024 + a, e.id)]) })

/-! ### Accesses without a key (R382), and the replay of logged ones (R434) -/

/-- The bytes of a lane that others write are hidden from no command (R390). -/
def Fabric.unhide (f : Fabric) (block pa n : Nat) : Fabric :=
  { f with cores := f.cores.map fun q =>
      (q.1, { q.2 with eng := { q.2.eng with hidden := q.2.eng.hidden.filter fun h =>
        h.block = block || h.pa < pa || pa + n ≤ h.pa } }) }

/-- A write or atomic that carries no key, performed at its slice. -/
def Fabric.keyless (f : Fabric) (mem : Memory) (reg pa n op : Nat) (ty : BitVec 4) (data cmp : Nat) : Memory × Fabric :=
  (mem.lane pa n op ty data cmp, (f.conflict reg (lineOf pa) none).unhide 0 pa n)

/-- The watchpoints of a region that bytes of an access strike, from a source: core, watchpoint, first matching byte. -/
def Fabric.strikes (f : Fabric) (reg kind src : Nat) (bytes : List Nat) : List (Nat × Nat × Nat) :=
  f.cores.flatMap fun p =>
    if p.2.regionId ≠ reg then []
    else p.2.dbg.wps.filterMap fun w =>
      if w.2.selects kind src then (bytes.find? w.2.matchesByte).map fun b => (p.1, w.1, b) else none

/-- WP_HIT of every core with the bits of its struck watchpoints set. -/
def Fabric.hitAll (f : Fabric) (l : List (Nat × Nat × Nat)) : Fabric :=
  l.foldl (fun f x => f.modCore x.1 fun k => k.hit [(x.2.1, x.2.2)]) f

/-- The fabric with one open connection changed. -/
def Fabric.modConn (f : Fabric) (ctx n : Nat) (g : Conn → Conn) : Fabric :=
  f.modContext ctx fun x => { x with conns := x.conns.map fun p => if p.1 = n then (n, g p.2) else p }

/-- The regions of a context that run. -/
def Fabric.regionsOf (f : Fabric) (ctx : Nat) : List Nat :=
  f.units.regions.filterMap fun q => if q.2.context = ctx && q.2.running then some q.1 else none

/-- Whether a remote strike still lets arrivals through as skid: 3 at most, in the 3 cycles after it (R437). -/
def RemoteStrike.isOpen (x : RemoteStrike) (now : Nat) : Bool := x.strike.skid < 3 && now ≤ x.cycle + 3

/-- Whether an access is one of the NRED row whose earlier element made a strike (R437, R438). -/
def RemoteStrike.ofRow (x : RemoteStrike) (ctx conn req : Nat) : Bool := x.ctx = ctx && x.conn = conn && x.req = req

/-- Whether a remote strike lets an access of its slice through as skid: one that arrives while it is open, or one of the next 3
elements of the row that made it, since a row's elements enter behind the matching one in consecutive cycles (R437, Table 20-4;
DEDUCED, log entry 30). -/
def RemoteStrike.lets (x : RemoteStrike) (now ctx conn req : Nat) : Bool :=
  x.isOpen now || (x.strike.skid < 3 && x.ofRow ctx conn req)

/-- Whether elements of the row that made a strike have still to be applied. -/
def Fabric.rowBehind (f : Fabric) (x : RemoteStrike) : Bool :=
  (match sfind (f.context x.ctx).conns x.conn with | some y => y.rowsIn.any fun r => r.seq = x.req | none => false) ||
    (f.regionsOf x.ctx).any fun r => (f.region r).redo.any fun l => x.ofRow x.ctx l.conn l.seq

/-- Whether the skid of a remote strike is final, so that its WATCH may be raised (R437). -/
def Fabric.strikeClosed (f : Fabric) (x : RemoteStrike) : Bool :=
  3 ≤ x.strike.skid || (x.cycle + 3 < f.units.cycle && !f.rowBehind x)

/-- Whether a slice holds the arrivals of a connection: once the skid of its strike is closed (R437). -/
def Fabric.connHeld (f : Fabric) (ctx conn slice : Nat) : Bool :=
  (match sfind (f.context ctx).conns conn with | some x => x.held.contains slice | none => false) &&
    !(f.cores.any fun q => q.2.dbg.remote.any fun x =>
      x.slice = slice && x.ctx = ctx && x.conn = conn && x.isOpen f.units.cycle)

/-- Whether a slice holds an access of a row or a log whose number its connection has: all but the skid of its own strike. -/
def Fabric.seqHeld (f : Fabric) (ctx conn slice req : Nat) : Bool :=
  f.connHeld ctx conn slice &&
    !(f.cores.any fun q => q.2.dbg.remote.any fun x => x.slice = slice && x.strike.skid < 3 && x.ofRow ctx conn req)

/-- The remote strikes of an arrival (R428, R437): skid of one that lets it through at its slice, or the watchpoints it matches, for
each of which the slice is to hold its connection. -/
def Fabric.remoteMatch (f : Fabric) (ctx conn kind pa : Nat) (bytes : List Nat) (req : Nat) : Fabric :=
  let slice := sliceOf (lineOf pa)
  let mine (x : RemoteStrike) : Bool := x.slice = slice && x.lets f.units.cycle ctx conn req
  if f.cores.any fun q => q.2.dbg.remote.any mine then
    let up (x : RemoteStrike) : RemoteStrike :=
      if mine x then { x with strike := { x.strike with skid := x.strike.skid + 1 } } else x
    { f with cores := f.cores.map fun q => (q.1, { q.2 with dbg := { q.2.dbg with remote := q.2.dbg.remote.map up } }) }
  else
    let hits := (f.regionsOf ctx).flatMap fun r => f.strikes r kind 2 bytes
    let add (f : Fabric) (h : Nat × Nat × Nat) : Fabric :=
      let s : Strike := { wp := h.2.1, kind := kind, addr := h.2.2, skid := 0, wcore := h.1 }
      (f.modCore h.1 fun k =>
        { k with dbg := { k.dbg with remote := k.dbg.remote ++ [⟨s, ctx, conn, req, slice, f.units.cycle⟩] } }).modConn ctx conn
        fun x => { x with held := x.held ++ [slice] }
    ((hits.map fun h => h.1).eraseDups.filterMap fun c => hits.find? fun h => h.1 = c).foldl add (f.hitAll hits)

/-- The next logged arrival of a replay that is due at a line: its count of the region's own accesses has been reached, and its
slice does not hold its connection (R434, R437). -/
def Fabric.redoNext (f : Fabric) (mem : Memory) (reg line : Nat) : Option Logged :=
  let r := f.region reg
  r.redo.find? fun x => x.va / 64 = line && x.before ≤ sget 0 r.lines line &&
    (match translate mem (f.context r.context) r.context x.va with
     | .ok t => !f.seqHeld r.context x.conn (sliceOf (lineOf (t.phys x.va))) x.seq
     | .error _ => true)

/-- A logged arrival applied in a replay: matched as it was when it came, performed, and logged again. -/
def Fabric.redoOne (f : Fabric) (mem : Memory) (reg : Nat) (x : Logged) : Memory × Fabric :=
  let ctx := (f.region reg).context
  let f := f.modRegion reg fun r =>
    { r with redo := r.redo.erase x, inputs := r.inputs ++ [{ x with kept := shas r.undo (x.va / 64) }] }
  match translate mem (f.context ctx) ctx x.va with
  | .ok t =>
    (f.remoteMatch ctx x.conn (if x.op = 0 then 1 else 2) (t.phys x.va) ((List.range x.n).map (x.va + ·)) x.seq).keyless mem reg
      (t.phys x.va) x.n x.op x.ty x.data x.cmp
  | .error _ => (mem, f)

/-- Up to `n` logged arrivals of a replay that are due at a line applied. -/
def Fabric.redoFor : Nat → Fabric → Memory → Nat → Nat → Memory × Fabric
  | 0, f, mem, _, _ => (mem, f)
  | n + 1, f, mem, reg, line =>
    match f.redoNext mem reg line with
    | some x => let q := f.redoOne mem reg x; q.2.redoFor n q.1 reg line
    | none => (mem, f)

/-- Logged arrivals of a replay that are due at a line applied. -/
def Fabric.redoLine (f : Fabric) (mem : Memory) (reg line : Nat) : Memory × Fabric :=
  f.redoFor (f.region reg).redo.length mem reg line

/-- Logged arrivals of a replay that are due at any line applied. -/
def Fabric.redoDue (f : Fabric) (mem : Memory) (reg : Nat) : Memory × Fabric :=
  ((f.region reg).redo.map fun x => x.va / 64).eraseDups.foldl (fun q l => q.2.redoLine q.1 reg l) (mem, f)

/-! ### Requests -/

/-- Whether a line is held for a unit that is not yet performed (R364). -/
def Fabric.lineHeld (f : Fabric) (line : Nat) : Bool := f.units.stores.any fun u => !u.performed && u.arrived.contains line

/-- Lanes of a request that its port has still to see performed; those of an eager atomic behind a faulting page have not
been sent (R188). -/
def Req.unsent (r : Req) : List ReqLane :=
  (if r.kind = .eager then r.lanes.takeWhile fun l => !l.bad else r.lanes).filter fun l => l.got.isNone && !l.bad

/-- Whether an earlier request or unit of the port to the same line is not yet performed (R367, R368). -/
def Fabric.portBusy (f : Fabric) (r : Req) (line va : Nat) : Bool :=
  (f.units.reqs.any fun q =>
    q.who.core = r.who.core && q.id < r.id && q.unsent.any fun l =>
      match l.pa with | some p => lineOf p.1 = line | none => l.va / 64 = va / 64) ||
    f.units.stores.any fun u => u.core = r.who.core && u.id < r.id && !u.performed && (laneLines u.lanes).contains line

/-- A lane with its value read. -/
def Req.answer (r : Req) (lane : Nat) (t : Tok) : Req :=
  { r with lanes := r.lanes.map fun l => if l.idx = lane then { l with got := some t } else l }

/-- A lane of a load performed (R362, R363, R375, R380). -/
def Fabric.loadLane (f : Fabric) (mem : Memory) (r : Req) (l : ReqLane) (pa cls : Nat) (free : Row) : Memory × Fabric :=
  let c := r.who.core
  let reg := (f.core c).regionId
  let go := match r.who, f.issuer r with
    | .actor _ a, some e => if cls = 2 then f.track c a (lineOf pa) e else (true, f)
    | _, _ => (true, f)
  if go.1 then
    (((go.2.sink (.ask r.id l.idx)).putReq (r.answer l.idx ((f.lineSeen mem reg l.va pa cls free).part (pa % 64) l.n))).countAccess reg
      l.va).redoLine mem reg (l.va / 64)
  else (mem, go.2)

/-- A lane of an eager atomic performed: the old value is kept, the new one written (R187); an operand with the ember bit
stores nothing (R404). -/
def Fabric.eagerDone (f : Fabric) (mem : Memory) (r : Req) (l : ReqLane) (pa : Nat) : Memory × Fabric :=
  let reg := (f.core r.who.core).regionId
  let f := ((f.undoNote mem reg l.va pa).sink (.ask r.id l.idx)).putReq (r.answer l.idx (mem.token pa l.n))
  let q := if r.val then (mem, f) else f.keyless mem reg pa l.n r.op r.ty l.data l.cmp
  (q.2.countAccess reg l.va).redoLine q.1 reg (l.va / 64)

/-- SLICE_ACCESS of a lane of a core's request. -/
def Fabric.sliceReq (f : Fabric) (mem : Memory) (id lane : Nat) (free : Row) : Memory × Fabric :=
  match f.req id with
  | none => (mem, f)
  | some r =>
    match r.unsent.find? fun l => l.idx = lane with
    | none => (mem, f)
    | some l =>
      match l.pa with
      | none => (mem, f)
      | some (pa, cls) =>
        let first := match r.unsent with | x :: _ => x.idx = lane | [] => false
        if f.lineHeld (lineOf pa) || f.portBusy r (lineOf pa) l.va || !f.units.here (.ask id lane) then (mem, f)
        else if r.kind = .eager then
          if first && r.lanes.all (fun x => x.pa.isSome || x.bad) then f.eagerDone mem r l pa else (mem, f)
        else f.loadLane mem r l pa cls free

/-! ### Units (R364, R365) -/

/-- SLICE_ACCESS of a unit's part: it arrives at the slice of one of its lines and is held there, in port order (R367). -/
def Fabric.partArrives (f : Fabric) (id line : Nat) : Fabric :=
  match f.units.stores.find? fun u => u.id = id with
  | none => f
  | some u =>
    let early := f.units.reqs.any fun r =>
      r.who.core = u.core && r.id < id && r.unsent.any fun l =>
        match l.pa with
        | some p => lineOf p.1 = line
        | none => u.lanes.any fun m => lineOf m.pa = line && m.va / 64 = l.va / 64
    if !(laneLines u.lanes).contains line || u.arrived.contains line || f.behindPart u.core id [line] || early ||
        !f.units.here (.part id line) then f
    else
      let u' := { u with arrived := u.arrived ++ [line] }
      let f := (f.sink (.part id line)).modUnits fun v => { v with stores := v.stores.map fun x => if x.id = id then u' else x }
      if !u.sent && (laneLines u.lanes).all u'.arrived.contains then f.unitSent u' else f

/-- Whether unit `u` has a lower stamp than `v` (R365); units of one agent and cycle go in hand-over order. -/
def stampLt (u v : StoreUnit) : Bool :=
  let a := [u.cycle, u.core, u.pe, u.id]; let b := [v.cycle, v.core, v.pe, v.id]
  ((a.zip b).find? fun p => p.1 ≠ p.2).any fun p => p.1 < p.2

/-- Whether a unit holds all of its lines and no unit of lower stamp has a part at one of them. -/
def Fabric.holdsAll (f : Fabric) (u : StoreUnit) : Bool :=
  let lines := laneLines u.lanes
  lines.all u.arrived.contains &&
    f.units.stores.all fun v => v.performed || !stampLt v u || !v.arrived.any lines.contains

/-- Whether an unfinished command of a core was issued by a block (R390). -/
def Core.commandOf (k : Core) (block : Nat) : Bool :=
  (k.eng.gens.any fun q => q.2.queue.any (·.block = block) || q.2.cur.any (·.block = block)) ||
    k.eng.images.any (·.block = block) || k.eng.net.any (·.block = block) || k.mx.queue.any (·.block = block)

/-- The bytes of a unit's lane as they stand before it, kept from the commands of the block that stores them (R233, R390). -/
def Fabric.hide (f : Fabric) (mem : Memory) (u : StoreUnit) (l : MemLane) : Fabric :=
  f.modCore u.core fun k =>
    if u.block = 0 || !k.commandOf u.block then k
    else
      let live := k.eng.hidden.filter fun h => k.commandOf h.block
      let new := (List.range l.n).filterMap fun i =>
        if live.any fun h => h.block = u.block && h.pa = l.pa + i then none else some ⟨u.block, l.pa + i, mem.byte (l.pa + i)⟩
      { k with eng := { k.eng with hidden := live ++ new } }

/-- A line as a command sees it: with the bytes that its own block has stored as they stood before (R390). -/
def Core.unseen (k : Core) (block pa : Nat) (t : Tok) : Tok :=
  let base := pa / 64 * 64
  k.eng.hidden.foldl
    (fun t h =>
      if block ≠ 0 && h.block = block && base ≤ h.pa && h.pa < base + 64 then
        { t with bits := ofBytes ((toBytes 64 t.bits).set (h.pa - base) h.old) }
      else t) t

/-- The lanes of a unit applied in slot order, ascending lane within a slot. -/
def Fabric.performLanes (mem : Memory) (f : Fabric) (u : StoreUnit) : Memory × Fabric :=
  let q := u.lanes.foldl
    (fun q l =>
      (q.1.lane l.pa l.n l.op l.ty l.data l.cmp,
       ((q.2.undoNote q.1 u.region l.va l.pa).hide q.1 u l).unhide u.block l.pa l.n)) (mem, f)
  (q.1, (laneLines u.lanes).foldl (fun f line => f.conflict u.region line u.key) q.2)

/-- STORE_UNIT_PERFORM (R364). -/
def Fabric.unitPerform (f : Fabric) (mem : Memory) (id : Nat) : Memory × Fabric :=
  match f.units.stores.find? fun u => u.id = id with
  | none => (mem, f)
  | some u =>
    if u.performed || !f.holdsAll u then (mem, f)
    else
      let q := Fabric.performLanes mem f u
      let f := q.2.modUnits fun v =>
        { v with stores := v.stores.map fun x => if x.id = id then { x with performed := true, sent := true } else x }
      let f := f.unitSent { u with performed := true }
      let vas := (u.lanes.map fun l => l.va / 64).eraseDups
      vas.foldl (fun q v => (q.2.countAccess u.region (v * 64)).redoLine q.1 u.region v) (q.1, f)

/-- The next state of a step that changes memory and fabric. -/
def memStep (g : Memory → Fabric → Memory × Fabric) (s : State) : Host.Outcome State Fault Refusal :=
  let q := g s.mem s.fab
  .next { s with mem := q.1, fab := q.2 }

/-- STORE_UNIT_PERFORM. -/
def execStoreUnitPerform (id : Nat) (s : State) : Host.Outcome State Fault Refusal :=
  memStep (fun m f => f.unitPerform m id) s

/-! ### HORIZON (R377, R378) -/

/-- What an actor of a region adds to the set of R378: the timestamp of its firing in progress, or once joined, while ready with
none, that of its last commit. -/
def Core.horizonOf (k : Core) (a : Nat) (x : Actor) : Option Nat :=
  match x.firing with
  | some g => if g.phase = .trapped then none else (keyOf 0 a g.exec).map Prod.fst
  | none => if k.ready a then x.joined.bind fun t => if t = BitVec.allOnes 64 then none else some t.toNat else none

/-- HORIZON_BROADCAST (R378): every 64 cycles. -/
def Fabric.horizonBroadcast (f : Fabric) (reg : Nat) : Fabric :=
  let r := f.region reg
  let set := f.cores.flatMap fun p =>
    if p.2.group.isSome && p.2.regionId = reg then p.2.actors.filterMap fun q => p.2.horizonOf q.1 q.2 else []
  if f.units.cycle < r.horizonAt + 64 then f
  else f.modRegion reg fun r =>
    { r with horizonAt := f.units.cycle
             horizon := match leastOf set with | some n => if r.horizon.toNat < n then BitVec.ofNat 64 n else r.horizon | none => r.horizon }

/-- HORIZON_BROADCAST. -/
def execHorizonBroadcast (region : Nat) (s : State) : Host.Outcome State Fault Refusal :=
  fabricStep (fun f => f.horizonBroadcast region) s

end Sys2Proof.Machine
end

