-- ==== Sys2Proof/Machine/Mesh.lean ====
section
/-!
DEFINITION. The island fabric and the packet network: sites and die edges (R281, R285, R341, R342), the paths of routes on tracks and
lanes (R343), and routers with their default paths, buffers and arbitration (R349 to R352). Links, their retry and the traffic that
crosses them are in Machine/Links.lean.
-/

namespace Sys2Proof.Machine

/-! ### Homes (R281) -/

/-- The slice offset of an HBM address. -/
def sliceOffset (pa : Nat) : Nat :=
  let at_ := pa % 206158430208
  at_ / 65536 * 4096 + at_ % 4096

/-- The channel, 0 to 5, of an HBM address in its slice. -/
def sliceChannel (pa : Nat) : Nat := sliceOffset pa / 256 % 6

/-- The HBM channel of an address in its die. -/
def hbmChannel (pa : Nat) : Nat := 6 * (sliceOf (lineOf pa) % 16) + sliceChannel pa

/-- The HBM stack of an address. -/
def hbmStack (pa : Nat) : Nat := 3 * (sliceOf (lineOf pa) / 16) + hbmChannel pa / 32

/-! ### Sites (R285, R341, R342) -/

/-- The number of site (d, x, y): die · 162 + 18 · row + column. IO dies 0 and 1 stand as dies 8 and 9 with one site each. -/
def siteAt (die x y : Nat) : Nat := die * 162 + y * 18 + x

/-- Column and row of a site. -/
def siteX (s : Nat) : Nat := s % 18
/-- Row of a site. -/
def siteY (s : Nat) : Nat := s % 162 / 18

/-- The site of a core of the module. -/
def Fabric.coreAt (f : Fabric) (c : Nat) : Nat := dieOf c * 162 + f.site c

/-- The place of a slice on its die, as 18 · row + column: slices 0 to 7 stand in column 8 and 8 to 15 in column 17, of rows 0 to 7.
-/
def sliceSite (s : Nat) : Nat := 18 * (s % 8) + (if s < 8 then 8 else 17)

/-- The site of a line's home slice. -/
def homeAt (line : Nat) : Nat := let s := sliceOf line; s / 16 * 162 + sliceSite (s % 16)

/-- The site of a die dispatcher. -/
def dispatcherAt (die : Nat) : Nat := siteAt die 8 8

/-- The site of a die's edge engine, the only gateway to other dies; the one site of an IO die. -/
def gateway (die : Nat) : Nat := if die < 8 then siteAt die 17 8 else siteAt die 0 0

/-- The site a number of sites away in a direction (0 N, 1 E, 2 S, 3 W) on a compute die; none beyond its grid. -/
def siteStep (s dir n : Nat) : Option Nat :=
  if 8 ≤ s / 162 then none
  else match dir with
    | 0 => if n ≤ siteY s then some (s - 18 * n) else none
    | 1 => if siteX s + n < 18 then some (s + n) else none
    | 2 => if siteY s + n < 9 then some (s + 18 * n) else none
    | _ => if n ≤ siteX s then some (s - n) else none

/-- The die across an edge: N, E, S, W of a compute die, on which W of dies 0 and 4 is IO die 0 and E of dies 3 and 7 is IO die 1;
of an IO die, edge 0 joins the die of row 0 and edge 1 that of row 1. -/
def edgeStep (die dir : Nat) : Option Nat :=
  if die = 8 then (if dir < 2 then some (4 * dir) else none)
  else if die = 9 then (if dir < 2 then some (4 * dir + 3) else none)
  else match dir with
    | 0 => if die < 4 then none else some (die - 4)
    | 1 => some (if die % 4 = 3 then 9 else die + 1)
    | 2 => if die < 4 then some (die + 4) else none
    | _ => some (if die % 4 = 0 then 8 else die - 1)

/-! ### Links and outputs -/

/-- The number of the link behind an output of a site: outputs 0 to 3 are the router's N, E, S, W, 4 its local port, and 16 + edge ·
66 + lane a lane of a die edge at the edge engine. -/
def linkOf (s out : Nat) : Nat := if out < 16 then s * 16 + out else 65536 + s / 162 * 264 + (out - 16)

/-- The site and the output of a link's number. -/
def linkEnds (n : Nat) : Nat × Nat :=
  if n < 65536 then (n / 16, n % 16) else (gateway ((n - 65536) / 264), 16 + (n - 65536) % 264)

/-- The site at the far end of an output, and the input port there: N, E, S, W as 0 to 3, the edges of the die as 8 to 11. -/
def farEnd (s out : Nat) : Option (Nat × Nat) :=
  if out < 4 then (siteStep s out 1).map fun t => (t, (out + 2) % 4)
  else if out < 16 then none
  else
    let die := s / 162
    let dir := (out - 16) / 66
    (edgeStep die dir).map fun d =>
      (gateway d, 8 + (if 8 ≤ d then die / 4 else if die = 8 then 3 else if die = 9 then 1 else (dir + 2) % 4))

/-! ### Paths of routes (R343) -/

/-- The site where a hop from a site ends; none for a hop that does not lie there: one whose track or lane the box or edge does not
offer, or that leaves the grid. -/
def Hop.next (h : Hop) (s : Nat) : Option Nat :=
  match h with
  | .seg die x y dir len track =>
    let tracks := if len = 1 then 8 else if len = 4 then 4 else if len = 16 then 2 else 0
    if siteAt die x y = s && x < 18 && y < 9 && dir < 4 && track < tracks then siteStep s dir len else none
  | .edge die dir lane =>
    if die < 8 && gateway die = s && lane < 66 then
      (edgeStep die dir).bind fun d => if d < 8 then some (gateway d) else none
    else none

/-- The site where a path from a site ends. -/
def pathEnd (s : Nat) (l : List Hop) : Option Nat := l.foldl (fun o h => o.bind (Hop.next h)) (some s)

/-- The lanes on which a path crosses die edges, in order. -/
def RoutePath.lanes (p : RoutePath) : List Nat :=
  p.hops.filterMap fun h => match h with
    | .edge die dir lane => some (linkOf (gateway die) (16 + dir * 66 + lane))
    | .seg _ _ _ _ _ _ => none

/-- Whether the paths of a region may stand: no track or lane is used twice by them or by those of another live region, and no lane is
dead. -/
def Units.mayLay (u : Units) (reg : Nat) (paths : List RoutePath) : Bool :=
  let others := u.regions.flatMap fun q => if q.1 = reg then [] else q.2.paths
  decide ((others ++ paths).flatMap RoutePath.hops).Nodup &&
    (paths.map RoutePath.route).Nodup && (paths.flatMap RoutePath.lanes).all fun n => !u.deadLinks.contains n

/-! ### Routers (R349, R350) -/

/-- The output on the default path of a site to a destination: within a die first along x, then along y; between dies to the edge
engine, and first along the columns of dies, then along their rows (log entry 70). `lane` is that of the edge. -/
def defaultOut (s dst lane : Nat) : Nat :=
  let die := s / 162
  let to_ := dst / 162
  let along (t : Nat) : Nat :=
    if siteX s < siteX t then 1 else if siteX t < siteX s then 3 else if siteY s < siteY t then 2 else if siteY t < siteY s then 0 else 4
  if die = to_ then (if 8 ≤ die then 4 else along dst)
  else if 8 ≤ die then 16 + (if to_ < 8 then to_ / 4 else 0) * 66 + lane
  else if s ≠ gateway die then along (gateway die)
  else
    let dir := if to_ = 8 then 3 else if to_ = 9 then 1 else if die % 4 < to_ % 4 then 1 else if to_ % 4 < die % 4 then 3
      else if die < to_ then 2 else 0
    16 + dir * 66 + lane

/-- The output that a router gives a flit: its routing table's, which holds the default path until the Kiln rewrites it (R349). -/
def Mesh.out (m : Mesh) (s : Nat) (g : Flit) : Nat :=
  match sfind m.tables (s * 2048 + g.dst) with
  | some o => o
  | none => defaultOut s g.dst (Config.laneOf g.src g.dst g.vc % 66)

/-- Key of a router's input buffer. -/
def bufKey (s port vc : Nat) : Nat := (s * 16 + port) * 4 + vc

/-- Flits that an input buffer holds: REQ 4, RSP 4, CFG 2. -/
def bufCap (vc : Nat) : Nat := if vc = 2 then 2 else 4

/-- An input buffer of a router. -/
def Mesh.buf (m : Mesh) (key : Nat) : List Flit := sget [] m.bufs key

/-- The input buffers of a router whose head goes to an output, with that head. -/
def Mesh.heads (m : Mesh) (s out : Nat) : List (Nat × Flit) :=
  (List.range 64).filterMap fun i =>
    match m.buf (s * 64 + i) with
    | g :: _ => if m.out s g = out then some (s * 64 + i, g) else none
    | [] => none

/-- Whether an output may take a flit of a virtual channel now (R349, R352): one flit a cycle, RSP before CFG before REQ, but REQ
once it has lost 7 cycles. `room` tells the channels that have room beyond it. -/
def Mesh.mayTake (m : Mesh) (s out now vc : Nat) (room : Nat → Bool) : Bool :=
  let o := sfind m.outs (linkOf s out)
  let waits (v : Nat) : Bool := room v && (m.heads s out).any fun h => h.2.vc = v
  let starved := waits 0 && o.any fun p => 7 ≤ p.2
  room vc && !(o.any fun p => p.1 = now) &&
    match vc with
    | 0 => starved || !(waits 1 || waits 2)
    | 1 => !starved
    | _ => !starved && !waits 1

/-- The network with the head of a buffer taken by an output of its router. -/
def Mesh.takeFrom (m : Mesh) (s out now key vc : Nat) (room : Nat → Bool) : Mesh :=
  let lost := match sfind m.outs (linkOf s out) with | some p => p.2 | none => 0
  let waits := room 0 && (m.heads s out).any fun h => h.2.vc = 0
  { m with
    bufs := sput [] m.bufs key ((m.buf key).drop 1)
    outs := sset m.outs (linkOf s out) (now, if vc = 0 || !waits then 0 else lost + 1) }

/-- The network with a flit in a buffer. -/
def Mesh.push (m : Mesh) (key : Nat) (g : Flit) : Mesh := { m with bufs := sput [] m.bufs key (m.buf key ++ [g]) }

end Sys2Proof.Machine
end

