-- ==== Sys2Proof/Machine/Generators.lean ====
section
/-!
DEFINITION. The address generators at work (R245 to R259, R294, R296, R334, R335): the lines of a row, reads and writes of a
line at its slice, parking, strikes of copy-engine accesses (R428, R436, R437), and rows filled and shrunk.
-/

namespace Sys2Proof.Machine

/-! ### Lines of a row (R334, R335) -/

/-- The run that source `tap` of element `e` of row `r` belongs to: each run fetches each of its lines once. -/
def GenCmd.runOf (c : GenCmd) (r e tap : Nat) : Nat :=
  let n := elem 32 c.a 0 * elem 32 c.a 1
  match c.op with
  | 0x343 => r / c.rowsPerPos * n + (r % c.rowsPerPos * c.desc.perRow + e) / c.desc.ext 0
  | 0x344 => r / c.rowsPerPos * n + tap
  | _ => r / c.rowsPerRun

/-- The in-extent tensor elements of row `r` with their runs. -/
def GenCmd.tagged (c : GenCmd) (r : Nat) : List (Nat × Index) :=
  if c.op = 0x342 then []
  else
    ((c.sources r).zipIdx.flatMap fun p => p.1.zipIdx.map fun q => (c.runOf r p.2 q.2, q.1)).filter fun x => c.desc.inExt x.2

/-- The lines of row `r`, each with the run that fetches it. -/
def GenCmd.needs (c : GenCmd) (r : Nat) : List (Nat × Nat) :=
  ((c.tagged r).flatMap fun x =>
    let p := if c.isScale r then (c.desc.scaleAddr x.2, 1) else c.desc.at x.2
    (fromTo (p.1 / 64) ((p.1 + p.2 - 1) / 64)).map fun l => (x.1, l * 64)).eraseDups

/-- Whether a line of a run is in hand. -/
def Gen.holds (y : Gen) (n : Nat × Nat) : Bool := y.landed.any fun x => x.row = n.1 && x.va = n.2

/-- Whether every line of a row is in hand. -/
def Gen.rowLanded (y : Gen) (q : GenCmd) (r : Nat) : Bool := (q.needs r).all y.holds

/-- The lines of a row that no row before it, from the next one on, has read for it: with them its access is performed (R334,
R436). -/
def Gen.owns (y : Gen) (q : GenCmd) (r : Nat) : List (Nat × Nat) :=
  (q.needs r).filter fun n => (List.range (r - y.row)).all fun j => !(q.needs (y.row + j)).contains n

/-- Whether every line of a row is written. -/
def Gen.rowWritten (y : Gen) (q : GenCmd) (r : Nat) : Bool := (q.needs r).all fun n => y.wrote.contains (r, n.2)

/-- The row accesses of a command that have begun and are not performed. -/
def Gen.openRows (y : Gen) (q : GenCmd) : List Nat :=
  if q.writes then (y.wrote.map Prod.fst).eraseDups.filter fun r => !y.rowWritten q r
  else (y.landed.map Landed.own).eraseDups.filter fun r => y.row ≤ r && !(y.owns q r).all y.holds

/-- The rows that a generator may have in hand: those its window has free rows for, and 32 more on streaming pages (R296);
for a write those its window holds, or 64 of a CPYF. -/
def Core.rowsAhead (k : Core) (y : Gen) (q : GenCmd) : List Nat :=
  let n := if q.fills then k.freeRows q.win + (if y.entry.any fun t => t.cls = 0 then 32 else 0)
           else if q.op = 0x345 then 64 else k.readable q.win
  let n := match q.total with | some t => min n (t - y.row) | none => n
  (List.range n).map (y.row + ·)

/-- The first row that still has a line to read or to write, with that line's run. -/
def Core.wants (k : Core) (y : Gen) (q : GenCmd) (va : Nat) : Option (Nat × Nat) :=
  (k.rowsAhead y q).findSome? fun r =>
    ((q.needs r).find? fun n => n.2 = va && !(if q.writes then y.wrote.contains (r, va) else y.holds n)).map fun n => (r, n.1)

/-- The first line that is still to be read or written, in row order. -/
def Core.nextLine (k : Core) (y : Gen) (q : GenCmd) : Option Nat :=
  (k.rowsAhead y q).findSome? fun r =>
    ((q.needs r).find? fun n => !(if q.writes then y.wrote.contains (r, n.2) else y.holds n)).map Prod.snd

/-! ### Strikes of the copy engine (R427, R428, R436) -/

/-- Whether a watchpoint of the region selects a kind of access of the copy engine. -/
def Fabric.watched (f : Fabric) (reg kind : Nat) : Bool :=
  f.cores.any fun p => p.2.regionId = reg && p.2.dbg.wps.any fun w => w.2.selects kind 1

/-- Whether another row access of a command may be sent: no report has stopped it, and while watched fewer than 9 of its
accesses are unreported, `open_` more being begun. -/
def Fabric.mayTouch (f : Fabric) (reg kind unrep open_ : Nat) (st : Option Strike) : Bool :=
  !(st.any (·.stopped)) && (!f.watched reg kind || unrep + open_ < 9)

/-- A row access of a command performed: while watched it awaits its report; the first that strikes is noted, a later one is
skid and is not matched again (R437): as at most 9 are unreported, at most 8. -/
def Fabric.rowDone (f : Fabric) (reg kind unrep : Nat) (st : Option Strike) (bytes : List Nat) :
    Nat × Option Strike × Fabric :=
  match st with
  | some s => (unrep + 1, some { s with skid := s.skid + 1 }, f)
  | none =>
    if !f.watched reg kind then (unrep, none, f)
    else match f.strikes reg kind 1 bytes with
      | [] => (unrep + 1, none, f)
      | h :: t =>
        let s : Strike :=
          { wp := h.2.1, kind := kind, addr := h.2.2, skid := 0, wcore := h.1, ahead := unrep,
            others := (t.filter fun x => x.1 ≠ h.1) }
        (unrep + 1, some s, f.hitAll (h :: t))

/-- A report that reaches its command's engine: that of the striking access stops the command. -/
def reported (unrep : Nat) (st : Option Strike) : Nat × Option Strike :=
  (unrep - 1, st.map fun s => if s.ahead = 0 then { s with stopped := true } else { s with ahead := s.ahead - 1 })

/-- The bytes of a line. -/
def lineBytes (va : Nat) : List Nat := (List.range 64).map (va + ·)

/-! ### Parking (R48, R259, R292, R298) -/

/-- The trap of a running command of an engine (R232): opcode, TRAP_SLOT's low byte, TRAP_PE. -/
def engineTrap (code op low pe addr : Nat) : Trap :=
  { code := code, async := true, slot := 0xFE00 + low, op := op, addr := addr, pe := pe, src := .engine }

/-- A row or line that an engine has read or written under a translation of its own, counted in the side table (R297). -/
def Fabric.countRow (f : Fabric) (mem : Memory) (ctx : Nat) (t : Trans) (write : Bool) : Memory :=
  mem.addCounts (f.context ctx)
    { t with reads := if write then 0 else 1, writes := if write then 1 else 0, remote := 0 }

/-- The line that a command of an engine reads: what the region sees, but for the stores of the block that issued it (R233, R375,
R390). -/
def Fabric.engineSees (f : Fabric) (mem : Memory) (c block : Nat) (t : Trans) (va : Nat) (free : Row) : Tok :=
  (f.core c).unseen block (t.phys va) (f.lineSeen mem (f.core c).regionId va (t.phys va) t.cls free)

/-- A row moved by an engine, a fill or a shrink: the region's detector starts again (R416). -/
def Fabric.progress (f : Fabric) (reg : Nat) : Fabric := f.modRegion reg fun r => { r with idle := 0 }

/-- The finding of an engine's access under a translation: layout first, then permission and tier. -/
def Fabric.engineFault (f : Fabric) (t : Trans) (layout : Nat) (write : Bool) (va : Nat) : Option Nat :=
  if field t.attr 8 8 ≠ layout then some 0x31 else f.accessFault t write va

/-- A generator parked on a fault of its access: a tier miss is pending or goes to the Kiln, another fault is reported to the
Kiln (R259, R299). -/
def Fabric.parkGen (f : Fabric) (c i : Nat) (q : GenCmd) (code va base : Nat) : Fabric :=
  let del := bitOf q.flags 3
  let f := f.modCore c fun k =>
    (k.modGen i fun y => { y with park := some ⟨code = 0x40, va, del⟩ }).strmEvent i
  if code = 0x40 then f.modCore c fun k => k.tierMiss base del (.gen i)
  else f.modCore c fun k =>
    { k with faults := k.faults ++ [{ trap := engineTrap code q.op i 0xFFFE va, gen := some i }] }

/-! ### A line performed -/

/-- Bytes written under masks at a translation. -/
def Memory.masked (m : Memory) (t : Trans) (l : List MaskedByte) : Memory :=
  let m := l.foldl
    (fun m b =>
      let pa := t.phys b.1
      m.setByte pa (BitVec.ofNat 8 (((m.byte pa).toNat &&& (255 - b.2.1)) ||| b.2.2))) m
  match l with
  | b :: _ =>
    let line := lineOf (t.phys b.1)
    if (lineBytes (b.1 / 64 * 64)).all fun a => l.any fun x => x.1 = a && x.2.1 = 255 then
      { m with poison := m.poison.filter (· ≠ line) }
    else m
  | [] => m

/-- An engine's write of bytes of one line, without a key (R382), by a command of a region. -/
def Fabric.engineWrite (f : Fabric) (mem : Memory) (reg : Nat) (t : Trans) (va : Nat) (l : List MaskedByte) :
    Memory × Fabric :=
  let f := f.undoNote mem reg va (t.phys va)
  let f := (f.conflict reg (lineOf (t.phys va)) none).countAccess reg va
  f.redoLine (mem.masked t l) reg (va / 64)

/-- A row access of a generator performed with its last line. -/
def Fabric.genRow (f : Fabric) (c i : Nat) (q : GenCmd) (r : Nat) : Fabric :=
  let k := f.core c
  let y := k.gen i
  let bytes := if q.writes then (q.needs r).flatMap fun n =>
      (inLine n.2 (q.writesOf r (k.row (rowAt (k.winCfg q.win) (k.win q.win).head (r - y.row))).bits)).map Prod.fst
    else (y.owns q r).flatMap fun n => lineBytes n.2
  let d := f.rowDone k.regionId (if q.writes then 1 else 0) y.unreported y.strike bytes
  d.2.2.modCore c fun k => k.modGen i fun y => { y with unreported := d.1, strike := d.2.1 }

/-- A line read for row `r` into a generator's landing buffer. -/
def Fabric.genRead (f : Fabric) (mem : Memory) (c i : Nat) (q : GenCmd) (t : Trans) (va r run : Nat) (free : Row) :
    Memory × Fabric :=
  let k := f.core c
  let tok := f.engineSees mem c q.block t va free
  let f := f.modCore c fun k => (k.modGen i fun y =>
    { y with landed := y.landed ++ [⟨run, va, tok, r⟩], entry := y.entry.map fun t => { t with reads := t.reads + 1 } }).crossed
      (768 + i)
  let y := (f.core c).gen i
  let f := if (y.owns q r).all y.holds then f.genRow c i q r else f
  (f.countAccess k.regionId va).redoLine mem k.regionId (va / 64)

/-- A line of row `r` written from its window row; a row with the ember bit is discarded (R404). -/
def Fabric.genWrite (f : Fabric) (mem : Memory) (c i : Nat) (q : GenCmd) (t : Trans) (va r : Nat) : Memory × Fabric :=
  let k := f.core c
  let y := k.gen i
  let row := k.row (rowAt (k.winCfg q.win) (k.win q.win).head (r - y.row))
  let g := if row.ember && q.op ≠ 0x345 then (mem, f)
    else f.engineWrite mem k.regionId t va (inLine va (q.writesOf r row.bits))
  let f := g.2.modCore c fun k =>
    let k := k.modGen i fun y =>
      { y with wrote := y.wrote ++ [(r, va)], entry := y.entry.map fun t => { t with writes := t.writes + 1 } }
    Core.crossed { k with credits := k.credits - 1 } (768 + i)
  (g.1, if ((f.core c).gen i).rowWritten q r then f.genRow c i q r else f)

/-- Whether a generator may act: its core is not frozen, it is not parked, and a CSWAP has not paused its stream. -/
def Core.genRuns (k : Core) (y : Gen) : Bool := !k.dbg.frozen && y.park.isNone && !k.pausedStream y

/-- Whether a generator may have a line performed: a row begun is finished; rows of a write begin in order; a new row waits for
reports, and a stopped command begins none, nor does any once a pre-emption marker has come (R234, R258, R436). -/
def Fabric.genMay (f : Fabric) (c : Nat) (y : Gen) (q : GenCmd) (r : Nat) : Bool :=
  let k := f.core c
  let begun (n : Nat) : Bool := if q.writes then y.wrote.any fun w => w.1 = n else (y.openRows q).contains n
  let inOrder := !q.writes || (List.range (r - y.row)).all fun j => begun (y.row + j) || (q.needs (y.row + j)).isEmpty
  begun r || (inOrder && !y.stopped && !k.saving &&
    f.mayTouch k.regionId (if q.writes then 1 else 0) y.unreported (y.openRows q).length y.strike)

/-- SLICE_ACCESS of a line of a generator's command. -/
def Fabric.genLine (f : Fabric) (mem : Memory) (c i va : Nat) (free : Row) : Memory × Fabric :=
  let k := f.core c
  let y := k.gen i
  match y.cur, y.entry with
  | some q, some t =>
    match k.wants y q va with
    | none => (mem, f)
    | some (r, run) =>
      if !t.covers k.contextId va || !k.genRuns y || !f.genMay c y q r then (mem, f)
      else match f.engineFault t q.desc.layout q.writes va with
        | some code => (mem, f.parkGen c i q code va t.va)
        | none =>
          if f.lineHeld (lineOf (t.phys va)) || !f.units.here (.line c (.gen i) va) then (mem, f)
          else if !q.writes then (f.sink (.line c (.gen i) va)).genRead mem c i q t va r run free
          else if k.credits = 0 || k.cutDone then (mem, f)
          else (f.sink (.line c (.gen i) va)).genWrite mem c i q t va r
  | _, _ => (mem, f)

/-! ### Pooling (R253) -/

/-- The greatest of the patterns of a type. -/
def poolMax (ty : BitVec 4) : List Nat → Nat
  | [] => 0
  | x :: r =>
    r.foldl
      (fun m y => if tyInt ty then (if intOf ty m < intOf ty y then y else m) else (fMinMax (fmtOf ty) true m y).1)
      (if tyInt ty then x else (fMinMax (fmtOf ty) true x x).1)

/-- The exact sum of finite values at a power of two below all of theirs. -/
def exactSum (l : List FVal) : Int × Int :=
  let e0 := l.foldl (fun e v => match v with | .fin _ _ x => min e x | _ => e) (0 : Int)
  ((l.map fun v => match v with | .fin n m e => alignTo n m e e0 | _ => 0).sum, e0)

/-- The mean of the patterns of a type, rounded once; of none +0. -/
def poolAvg (ty : BitVec 4) (l : List Nat) : Nat :=
  let vs := l.map (valOf ty)
  let inf (n : Bool) : Bool := vs.any fun v => v = .inf n
  if l.length = 0 then 0
  else if vs.any isNaN || (inf true && inf false) then canonNaN (fmtOf ty)
  else if inf true || inf false then infBits (fmtOf ty) (inf true)
  else
    let s := exactSum vs
    if s.1 = 0 then (valToType ty 0 (.fin (vs.all signV) 0 0)).1
    else
      let q := quoSticky s.1.natAbs l.length s.2
      (valToType ty 0 (.fin (decide (s.1 < 0)) q.1 q.2)).1

/-- The window row that CPYP forms. -/
def GenCmd.poolRow (c : GenCmd) (get : Nat → Nat → Nat) (r : Nat) : Row :=
  let ty : BitVec 4 := BitVec.ofNat 4 c.desc.fmt
  ofVals (8 * c.desc.rowWidth) ((c.sources r).zipIdx.map fun p =>
    let taps := p.1.zipIdx
    let raw (q : Index × Nat) : Nat := c.desc.rawAt (get (c.runOf r p.2 q.2)) q.1 % 2 ^ (8 * c.desc.rowWidth)
    if !bitOf c.flags 0 then poolMax ty (taps.map raw)
    else poolAvg ty ((taps.filter fun q => bitOf c.flags 1 || c.desc.inExt q.1).map raw))

/-! ### Rows filled and shrunk (R245, R255) -/

/-- The row that a filling command forms from the lines in hand. -/
def GenCmd.formRow (c : GenCmd) (landed : List Landed) (r : Nat) : Tok :=
  let at_ (run a : Nat) : Nat := landedByte landed run a
  let bits := match c.op with
    | 0x344 => c.poolRow at_ r
    | 0x343 =>
      ofVals (8 * c.desc.rowWidth) ((c.sources r).zipIdx.map fun p =>
        match p.1 with | i :: _ => c.desc.rawAt (at_ (c.runOf r p.2 0)) i | [] => 0)
    | _ => c.copyRow (at_ (c.runOf r 0 0)) r
  ⟨bits, landed.any fun x => x.data.ember && (c.needs r).contains (x.row, x.va)⟩

/-- Control tokens put behind the rows of a window (R255). -/
def Core.emitEods (k : Core) (w : Nat) (levels : List Nat) : Core :=
  k.modWin w fun x => { x with ctl := x.ctl ++ levels.map fun l => (x.f, l) }

/-- GENERATOR_ROW_FILL: the next row is formed once its lines are there and fills a free row. -/
def Fabric.genFill (f : Fabric) (c i : Nat) : Fabric :=
  let k := f.core c
  let y := k.gen i
  match y.cur with
  | none => f
  | some q =>
    let more := match q.total with | some n => decide (y.row < n) | none => true
    if !q.fills || !more || k.dbg.frozen || k.pausedStream y || y.stopped || k.restoring q.win || k.freeRows q.win = 0 ||
        !y.rowLanded q y.row then f
    else
      let row := q.formRow y.landed y.row
      (f.modCore c fun k =>
        ((k.fillWin q.win row).emitEods q.win (q.eodAfter y.row)).modGen i fun y =>
          { y with row := y.row + 1, landed := y.landed.filter fun x => q.runOf (y.row + 1) 0 0 ≤ x.row }).progress k.regionId

/-- GENERATOR_ROW_FILL. -/
def execGeneratorRowFill (core gen : Nat) (s : State) : Host.Outcome State Fault Refusal :=
  fabricStep (fun f => f.genFill core gen) s

/-- GENERATOR_ROW_SHRINK: the oldest row of a writing command is shrunk once its lines are written; a CPYF, which reads no
window, passes to its next row. -/
def Fabric.genShrink (f : Fabric) (c i : Nat) : Fabric :=
  let k := f.core c
  let y := k.gen i
  match y.cur with
  | none => f
  | some q =>
    let more := match q.total with | some n => decide (y.row < n) | none => true
    let empty := q.op ≠ 0x345 && k.readable q.win = 0
    if !q.writes || !more || k.dbg.frozen || k.pausedStream y || empty || !y.rowWritten q y.row ||
        ((q.needs y.row).isEmpty && y.stopped && y.wrote = []) then f
    else (f.modCore c fun k =>
      (if q.op = 0x345 then k else k.shrinkWin q.win 1).modGen i fun y =>
        { y with row := y.row + 1, wrote := y.wrote.filter fun w => w.1 ≠ y.row }).progress k.regionId

/-- GENERATOR_ROW_SHRINK. -/
def execGeneratorRowShrink (core gen : Nat) (s : State) : Host.Outcome State Fault Refusal :=
  fabricStep (fun f => f.genShrink core gen) s

/-! ### Start and completion (R230, R245, R256, R257) -/

/-- Whether STRW lets a command of a place in the order of entry start: no masked generator holds a command entered before
a STRW that stands before it (R257). -/
def Core.strwLets (k : Core) (order : Nat) : Bool :=
  k.eng.strws.all fun s =>
    s.1 > order || (maskGens s.2).all fun g =>
      let y := k.gen g
      (y.queue.all fun q => s.1 < q.order) && (match y.cur with | some q => s.1 < q.order | none => true)

/-- STRWs that hold back nothing any more dropped. -/
def Core.pruneStrws (k : Core) : Core :=
  let holds (s : Nat × Nat) : Bool :=
    (maskGens s.2).any fun g =>
      let y := k.gen g
      (y.queue.any fun q => q.order < s.1) || (match y.cur with | some q => q.order < s.1 | none => false)
  { k with eng := { k.eng with strws := k.eng.strws.filter holds } }

/-- ENGINE_COMMAND_START of a generator's next command. A command that fills no row places its last control token at once. -/
def Core.startGen (k : Core) (i : Nat) : Core :=
  let y := k.gen i
  match y.cur, y.queue with
  | none, q :: r =>
    if k.dbg.frozen || !k.strwLets q.order then k
    else
      let k := k.modGen i fun y => { y with queue := r, cur := some q, row := 0, landed := [], wrote := [] }
      if q.total = some 0 && bitOf q.flags 1 && (q.op = 0x340 || q.op = 0x343) then k.emitEods q.win [2] else k
  | _, _ => k

/-- Whether a generator's command has ended: every row done or STRX has stopped it at a row boundary, and no strike of its
own waits. -/
def Gen.done (y : Gen) (q : GenCmd) : Bool :=
  let all := match q.total with | some n => decide (n ≤ y.row) | none => false
  (all && y.strike.isNone) || (y.stopped && y.wrote = [] && y.strike.all (·.raised))

/-- ENGINE_COMMAND_COMPLETE of a generator's command: CP falls, and the generator sets its bit of the STRM event. -/
def Core.completeGen (k : Core) (i : Nat) : Core :=
  let y := k.gen i
  match y.cur with
  | some q => if y.done q && !k.dbg.frozen then ((k.endGen i y.stopped).pruneStrws).settleMx else k
  | none => k

end Sys2Proof.Machine
end

