-- ==== Sys2Proof/Machine/MatrixEngine.lean ====
section
/-!
DEFINITION. The matrix region at work (R236 to R243, R328 to R332, R336): chained halves, records loaded, rows admitted and
written, MXLDW's line reads and record writes, thresholds, and an injected group error (R273).
-/

namespace Sys2Proof.Machine

/-- An entry of the matrix queue replaced by its new value. -/
def Core.putMx (k : Core) (m : MxCmd) : Core :=
  { k with mx := { k.mx with queue := k.mx.queue.map fun x => if x.id = m.id then m else x } }

/-- A matrix command that has ended: its entry goes, MX falls, and entries behind it are served (R52). -/
def Core.endMx (k : Core) (id : Nat) : Core :=
  (({ k with counts := { k.counts with mx := k.counts.mx - 1 } }).dropMx id).settleMx

/-! ### Chained halves and records (R249, R328, R336) -/

/-- Whether the CPY of a chained half has filled its last row. -/
def Core.chainFilled (k : Core) (id g : Nat) : Bool :=
  let y := k.gen g
  (y.queue.all fun q => q.chain ≠ some id) &&
    (match y.cur with | some q => q.chain ≠ some id || q.total = some y.row | none => true)

/-- The first command that has not loaded its records, when it may: every MXRUN before it has admitted a row, and no MXLDW into
its set stands before it (R241, R328). -/
def nextRecords (loads : List Nat) : List MxCmd → Option MxCmd
  | [] => none
  | m :: r =>
    match m.kind with
    | 0 =>
      if !m.loaded then (if loads.contains m.set then none else some m)
      else if m.admitted = 0 then none else nextRecords loads r
    | 1 => nextRecords (m.set :: loads) r
    | _ => nextRecords loads r

/-- MATRIX_RECORD_LOAD (R328). -/
def Core.recordLoad (k : Core) : Core :=
  match nextRecords [] k.mx.queue with
  | some m => if k.dbg.frozen || k.saving then k else k.putMx { m with loaded := true }
  | none => k

/-- MATRIX_RECORD_LOAD. -/
def execMatrixRecordLoad (core : Nat) (s : State) : Host.Outcome State Fault Refusal :=
  fabricStep (fun f => f.modCore core Core.recordLoad) s

/-! ### Rows (R239, R240, R329) -/

/-- The first MXRUN or chained half with rows still to be admitted. -/
def Core.admitting (k : Core) : Option MxCmd := k.mx.queue.find? fun m => m.kind = 0 && m.admitted < m.count

/-- CHAINED_HALF_START (R336): a chained half whose turn has come, every MXRUN before it having admitted its rows, starts once its
CPY's last row is filled. -/
def Core.chainStart (k : Core) : Core :=
  match k.admitting with
  | some m =>
    (match m.chain with
     | some g => if !m.ready && k.chainFilled m.id g && !k.dbg.frozen then k.putMx { m with ready := true } else k
     | none => k)
  | none => k

/-- CHAINED_HALF_START. -/
def execChainedHalfStart (core : Nat) (s : State) : Host.Outcome State Fault Refusal :=
  fabricStep (fun f => f.modCore core Core.chainStart) s

/-- Window offset of the next activation row of a command. -/
def MxCmd.nextOffset (m : MxCmd) : Nat := if bitOf m.flags 1 then 0 else elem 32 m.a 3 + m.admitted * m.rowsPer

/-- The command whose next activation row may enter: its records are loaded and all of the row's window rows are filled (R239,
R329). -/
def Core.mayAdmit (k : Core) : Option MxCmd :=
  k.admitting.filter fun m =>
    !k.dbg.frozen && m.loaded && m.ready && decide (m.nextOffset + m.rowsPer ≤ k.readable m.win)

/-- The next activation row of a command enters the array; with SHRINK its window rows are shrunk. -/
def Core.letIn (k : Core) (m : MxCmd) : Core :=
  let rows := (List.range m.rowsPer).map fun i => k.row (rowAt (k.winCfg m.win) (k.win m.win).head (m.nextOffset + i))
  let k := k.putMx { m with admitted := m.admitted + 1, arr := m.arr ++ [(m.admitted, rows)] }
  if bitOf m.flags 1 then k.shrinkWin m.win m.rowsPer else k

/-- MATRIX_ROW_ADMIT. -/
def Fabric.rowAdmit (f : Fabric) (c : Nat) : Fabric :=
  match (f.core c).mayAdmit with
  | some m => (f.modCore c fun k => k.letIn m).progress (f.core c).regionId
  | none => f

/-- MATRIX_ROW_ADMIT. -/
def execMatrixRowAdmit (core : Nat) (s : State) : Host.Outcome State Fault Refusal :=
  fabricStep (fun f => f.rowAdmit core) s

/-- One counter of a tile group raised (R242, R243): its value, and whether it crossed its threshold. -/
def countUp (old n thr : Nat) : Nat × Bool :=
  let v := min (old + n) 0xFFFFFFFF
  (v, thr ≠ 0 && old < thr && thr ≤ v)

/-- The counters of a tile group raised by a row, with the counters that trap. -/
def Tile.raise (t : Tile) (sat nan bso : Nat) : Tile × List Nat :=
  let a := countUp t.sat sat t.thr.1
  let b := countUp t.nan nan t.thr.2.1
  let c := countUp t.bso bso t.thr.2.2
  let crossed := ([a.2, b.2, c.2].zipIdx.filter Prod.fst).map Prod.snd
  let bits := (crossed.map fun i => 2 ^ i).foldl (· ||| ·) 0
  ({ t with sat := a.1, nan := b.1, bso := c.1, crossed := t.crossed ||| bits, fired := t.fired ||| bits },
    crossed.filter fun i => !bitOf t.fired i)

/-- The matrix-cell injection that a row's group results meet: the first cell, column by column and stage by stage, whose PE is
named (R273). -/
def MxCmd.injected (m : MxCmd) (l : List Inject) : Option (Inject × Nat × Nat) :=
  let cells := (List.range m.rect.2.2.1).flatMap fun c => (List.range m.rect.2.2.2).map fun s => (c, s)
  cells.findSome? fun p =>
    (l.find? fun j => j.cls = 4 && j.pe = (m.rect.2.1 + p.2) * 16 + m.rect.1 + p.1).map fun j => (j, p.1, p.2)

/-- The finding of a flipped group result (R273, R329, Table 17-5): the group is recomputed. -/
def MxCmd.flip (m : MxCmd) (k : Core) (rows : List Tok) (q : Inject × Nat × Nat) : Finding :=
  let x := m.stage rows q.2.2
  let raw := (rows.getD ((if bitOf m.flags 0 then 1 else 0) + rowsPerGroup (m.mod % 4) * q.2.2) {}).bits.toNat
  let good := (groupResult (m.mod % 4) (m.record k.mx.ws q.2.2 q.2.1) x.1 raw).1.bits
  let p := groupResidue q.1.bit good
  let o := groupResidue q.1.bit (good ^^^ 2 ^ q.1.bit)
  { unit := 4, sev := 0, inj := true, exp := p.2, pe := q.1.pe, op := m.op, lane := q.1.lane, el := q.2.1, pred := p.1,
    obs := o.1, info := k.seq.count.toNat }

/-- MATRIX_ACC_WRITE (R240, R329): the oldest row in the array is written to its accumulator row, its events counted, a crossed
threshold trapped; with its last row the command completes. -/
def Fabric.accWriteRow (f : Fabric) (c : Nat) : Fabric :=
  let k := f.core c
  match k.mx.queue.find? fun m => m.kind = 0 with
  | none => f
  | some m =>
    match m.arr with
    | [] => f
    | (i, rows) :: rest =>
      if k.dbg.frozen then f
      else
        let row := elem 32 m.a 1 + i
        let out := m.rowOut k.mx rows (k.acc row)
        let tile := (k.tile (row / 64)).raise out.2.1 out.2.2.1 out.2.2.2
        let f := match m.injected k.dbg.finj with
          | some q =>
            (f.record c (m.flip k rows q)).modCore c fun k =>
              { k with dbg := { k.dbg with finj := k.dbg.finj.filter (· ≠ q.1) } }
          | none => f
        let f := f.modCore c fun k =>
          let k := ((k.setAcc row out.1).modTile (row / 64) fun _ => tile.1).putMx
            { m with arr := rest, written := m.written + 1 }
          if m.written + 1 = m.count then k.endMx m.id else k
        let f := f.progress k.regionId
        tile.2.foldl (fun f i => f.postTrap c (engineTrap 0x50 m.op 0 0xFFFD (row / 64 + i * 16))) f

/-- MATRIX_ACC_WRITE. -/
def execMatrixAccWrite (core : Nat) (s : State) : Host.Outcome State Fault Refusal :=
  fabricStep (fun f => f.accWriteRow core) s

/-! ### MXLDW (R236, R241, R332) -/

/-- The MXLDW that runs: the first that no strike has put off its queue, once no earlier MXRUN reads its set. -/
def activeLoad (sets : List Nat) : List MxCmd → Option MxCmd
  | [] => none
  | m :: r =>
    match m.kind with
    | 0 => activeLoad (m.set :: sets) r
    | 1 =>
      if m.strike.any (·.stopped) then activeLoad sets r
      else if sets.contains m.set then none else some m
    | _ => activeLoad sets r

/-- Lines that record `j` is formed from. -/
def MxCmd.recLines (m : MxCmd) (j : Nat) : List Nat := linesOf (m.recTouches j)

/-- Whether a line of record `j` is in hand. -/
def MxCmd.holds (m : MxCmd) (j va : Nat) : Bool := m.landed.any fun x => x.row = j && x.va = va

/-- The first record that still wants a line, among the records whose lines the 64 line reads in flight reach. -/
def MxCmd.wants (m : MxCmd) (va : Nat) : Option Nat :=
  ((List.range (min 64 (m.recCount - m.written))).map (m.written + ·)).find? fun j => (m.recLines j).contains va && !m.holds j va

/-- A running MXLDW ended by a fault of its reads (R236); while a strike of its own is not raised the access waits (R428). -/
def Fabric.failLoad (f : Fabric) (c : Nat) (m : MxCmd) (code va : Nat) : Fabric :=
  if m.strike.isSome then f
  else (f.modCore c fun k => k.endMx m.id).postTrap c (engineTrap code m.op 0 0xFFFD va)

/-- SLICE_ACCESS of a line of an MXLDW. -/
def Fabric.loadLine (f : Fabric) (mem : Memory) (c va : Nat) (free : Row) : Memory × Fabric :=
  let k := f.core c
  match activeLoad [] k.mx.queue with
  | none => (mem, f)
  | some m =>
    match m.wants va with
    | none => (mem, f)
    | some j =>
      if k.dbg.frozen || (k.saving && m.landed = [] && m.written = 0) || !f.mayTouch k.regionId 0 m.unreported 0 m.strike then
        (mem, f)
      else match translate mem (f.context k.contextId) k.contextId va with
        | .error code => (mem, f.failLoad c m code va)
        | .ok t =>
          match f.engineFault t m.desc.layout false va with
          | some code => (mem, f.failLoad c m code va)
          | none =>
            if f.lineHeld (lineOf (t.phys va)) || !f.units.here (.line c .mxldw va) then (mem, f)
            else
              let f := f.sink (.line c .mxldw va)
              let tok := f.engineSees mem c m.block t va free
              let mem := f.countRow mem k.contextId t false
              let d := f.rowDone k.regionId 0 m.unreported m.strike (lineBytes va)
              let f := d.2.2.modCore c fun k =>
                k.putMx { m with landed := m.landed ++ [⟨j, va, tok, j⟩], unreported := d.1, strike := d.2.1 }
              (f.countAccess k.regionId va).redoLine mem k.regionId (va / 64)

/-- The core with the words of a record written to a set; a word written is marked as its lines were (R404). -/
def Core.putRecord (k : Core) (at_ words rec : Nat) (ember : Bool) : Core :=
  let keys := (List.range words).map (at_ + ·)
  { k with mx := { k.mx with
      ws := keys.zipIdx.foldl (fun w p => sput 0 w p.1 (BitVec.ofNat 64 (field rec (64 * p.2 + 63) (64 * p.2)))) k.mx.ws
      wsEmber := k.mx.wsEmber.filter (!keys.contains ·) ++ (if ember then keys else []) } }

/-- MXLDW_RECORD_WRITE (R236, R332): the next record is written once its lines are there. -/
def Core.recordWrite (k : Core) : Core :=
  match activeLoad [] k.mx.queue with
  | none => k
  | some m =>
    let j := m.written
    if k.dbg.frozen || m.recCount ≤ j || !(m.recLines j).all (m.holds j) then k
    else
      let rec_ := m.formRecord (landedByte m.landed j) j
      let words := recWords m.desc.recKind
      (k.putRecord (m.set * 65536 + elem 32 m.a 0 + j * words) words rec_ (landedEmber m.landed j)).putMx
        { m with written := j + 1, landed := m.landed.filter fun x => x.row ≠ j }

/-- MXLDW_RECORD_WRITE. -/
def execMxldwRecordWrite (core : Nat) (s : State) : Host.Outcome State Fault Refusal :=
  fabricStep (fun f => f.modCore core Core.recordWrite) s

/-- ENGINE_COMMAND_COMPLETE of an MXLDW. -/
def Core.completeLoad (k : Core) : Core :=
  match activeLoad [] k.mx.queue with
  | some m => if m.recCount ≤ m.written && m.strike.isNone && !k.dbg.frozen then k.endMx m.id else k
  | none => k

end Sys2Proof.Machine
end

