-- ==== Sys2Proof/Machine/Alu.lean ====
section
/-!
DEFINITION. What each instruction of the compute chapter makes of its operand tokens: the result token and the
flags it raises (R131 to R159). Machine/Compute.lean gives each instruction its meaning by these.
-/

namespace Sys2Proof.Machine

/-! ### Integer arithmetic (R131 to R133) -/

/-- An exact result wrapped, or saturated to the type's range (R54, R132). -/
def intOut (ty : BitVec 4) (sat : Bool) (x : Int) : Nat :=
  wrapTo (tyBits ty) (if sat then clampInt (tySigned ty) (tyBits ty) x else x)

/-- An integer instruction of two operands by its exact result. -/
def intBin (sat : DFields → Bool) (g : DFields → Int → Int → Int) (f : DFields) (a b : Row) : Row × Fpx :=
  lanesI f.ty f.mod fun e =>
    intOut f.ty (sat f)
      (g f (intOf f.ty (elem (tyBits f.ty) a e)) (intOf f.ty (elem (tyBits f.ty) b e)))

/-- The saturation bit of an entry that lists S. -/
def satBit (f : DFields) : Bool := sOf f.mod

/-- a / b truncated towards zero, with the corners of R54. -/
def quoInt (ty : BitVec 4) (a b : Int) : Int :=
  if b = 0 then intOf ty (ones (tyBits ty)) else Int.tdiv a b

/-- a − b · QUO(a, b), with the corners of R54. -/
def remInt (a b : Int) : Int := if b = 0 then a else Int.tmod a b

/-- ADD. -/
def aluAdd : DFields → Row → Row → Row × Fpx := intBin satBit fun _ a b => a + b
/-- SUB. -/
def aluSub : DFields → Row → Row → Row × Fpx := intBin satBit fun _ a b => a - b
/-- MUL. -/
def aluMul : DFields → Row → Row → Row × Fpx := intBin satBit fun _ a b => a * b
/-- MULH: the high half of the 2w-bit product. -/
def aluMulh : DFields → Row → Row → Row × Fpx :=
  intBin (fun _ => false) fun f a b => (a * b) / 2 ^ tyBits f.ty
/-- QUO. -/
def aluQuo : DFields → Row → Row → Row × Fpx := intBin (fun _ => false) fun f a b => quoInt f.ty a b
/-- REM. -/
def aluRem : DFields → Row → Row → Row × Fpx := intBin (fun _ => false) fun _ a b => remInt a b
/-- MIN. -/
def aluMin : DFields → Row → Row → Row × Fpx := intBin (fun _ => false) fun _ a b => min a b
/-- MAX. -/
def aluMax : DFields → Row → Row → Row × Fpx := intBin (fun _ => false) fun _ a b => max a b
/-- ADDS. -/
def aluAdds : DFields → Row → Row → Row × Fpx := intBin (fun _ => true) fun _ a b => a + b
/-- SUBS. -/
def aluSubs : DFields → Row → Row → Row × Fpx := intBin (fun _ => true) fun _ a b => a - b
/-- NEG. -/
def aluNeg (f : DFields) (a : Row) : Row × Fpx := intBin satBit (fun _ x _ => -x) f a 0
/-- ABS. -/
def aluAbs (f : DFields) (a : Row) : Row × Fpx := intBin satBit (fun _ x _ => (x.natAbs : Int)) f a 0

/-- An integer instruction of three operands by its exact result. -/
def intTer (sat : DFields → Bool) (g : Int → Int → Int → Int) (f : DFields) (a b c : Row) : Row × Fpx :=
  lanesI f.ty f.mod fun e =>
    let w := tyBits f.ty
    intOut f.ty (sat f)
      (g (intOf f.ty (elem w a e)) (intOf f.ty (elem w b e)) (intOf f.ty (elem w c e)))

/-- MAD. -/
def aluMad : DFields → Row → Row → Row → Row × Fpx := intTer satBit fun a b c => a * b + c
/-- CLAMP. -/
def aluClamp : DFields → Row → Row → Row → Row × Fpx := intTer (fun _ => false) fun a b c => min (max a b) c

/-- DOT4 (R133). -/
def aluDot4 (f : DFields) (a b c : Row) : Row × Fpx :=
  let byteTy : BitVec 4 := if tySigned f.ty then 1 else 0
  lanesI f.ty f.mod fun k =>
    let p (j : Nat) : Int := intOf byteTy (elem 8 a (4 * k + j)) * intOf byteTy (elem 8 b (4 * k + j))
    intOut f.ty (satBit f) (intOf f.ty (elem 32 c k) + p 0 + p 1 + p 2 + p 3)

/-! ### Logic, shift and bit (R134 to R137) -/

/-- An instruction of two operands on raw elements. -/
def rawBin (g : Nat → Nat → Nat → Nat) (f : DFields) (a b : Row) : Row × Fpx :=
  let w := tyBits f.ty
  lanesI f.ty f.mod fun e => g w (elem w a e) (elem w b e)

/-- AND. -/
def aluAnd : DFields → Row → Row → Row × Fpx := rawBin fun _ a b => a &&& b
/-- OR. -/
def aluOr : DFields → Row → Row → Row × Fpx := rawBin fun _ a b => a ||| b
/-- XOR. -/
def aluXor : DFields → Row → Row → Row × Fpx := rawBin fun _ a b => a ^^^ b
/-- ANDN. -/
def aluAndn : DFields → Row → Row → Row × Fpx := rawBin fun w a b => a &&& (ones w - b)
/-- NOT. -/
def aluNot (f : DFields) (a : Row) : Row × Fpx := rawBin (fun w a _ => ones w - a) f a 0
/-- SHL. -/
def aluShl : DFields → Row → Row → Row × Fpx := rawBin fun w a s => a <<< (s % w)
/-- SHR. -/
def aluShr : DFields → Row → Row → Row × Fpx := rawBin fun w a s => a >>> (s % w)
/-- SRA: fills from the element's top bit for every type (R136). -/
def aluSra : DFields → Row → Row → Row × Fpx := rawBin fun w a s => wrapTo w (signedOf w a >>> (s % w))
/-- ROTL. -/
def aluRotl : DFields → Row → Row → Row × Fpx :=
  rawBin fun w a s => (a <<< (s % w)) ||| (a >>> (w - s % w))
/-- CLZ. -/
def aluClz (f : DFields) (a : Row) : Row × Fpx :=
  rawBin (fun w a _ => if a = 0 then w else w - 1 - Nat.log2 a) f a 0
/-- POPC. -/
def aluPopc (f : DFields) (a : Row) : Row × Fpx :=
  rawBin (fun w a _ => ((List.range w).filter fun i => bitOf a i).length) f a 0

/-- W' of R137. -/
def fieldWidth (w : Nat) (imm : BitVec 16) : Nat :=
  let pos := imm.toNat % 256
  if pos < w then min (imm.toNat / 256) (w - pos) else 0

/-- BFX. -/
def aluBfx (f : DFields) (a : Row) : Row × Fpx :=
  rawBin (fun w a _ =>
    let wid := fieldWidth w f.imm
    let x := (a >>> (f.imm.toNat % 256)) % 2 ^ wid
    if wid = 0 then 0 else if tySigned f.ty then wrapTo w (signedOf wid x) else x) f a 0

/-- BFI. -/
def aluBfi (f : DFields) (a c : Row) : Row × Fpx :=
  rawBin (fun w a c =>
    let wid := fieldWidth w f.imm
    let pos := f.imm.toNat % 256
    c - ((c >>> pos) % 2 ^ wid) <<< pos + (a % 2 ^ wid) <<< pos) f a c

/-! ### Compare, select, move and immediate (R138 to R144) -/

/-- An integer compare (R139). -/
def intCmp (rel : Int → Int → Bool) (f : DFields) (a b : Row) : Row × Fpx :=
  let w := tyBits f.ty
  lanesI f.ty f.mod fun e => if rel (intOf f.ty (elem w a e)) (intOf f.ty (elem w b e)) then ones w else 0

/-- CMPEQ. -/
def aluCmpeq : DFields → Row → Row → Row × Fpx := intCmp fun a b => a = b
/-- CMPNE. -/
def aluCmpne : DFields → Row → Row → Row × Fpx := intCmp fun a b => a ≠ b
/-- CMPLT. -/
def aluCmplt : DFields → Row → Row → Row × Fpx := intCmp fun a b => a < b
/-- CMPLE. -/
def aluCmple : DFields → Row → Row → Row × Fpx := intCmp fun a b => a ≤ b

/-- SEL (R140). -/
def aluSel (f : DFields) (a b c : Row) : Row × Fpx :=
  let w := tyBits f.ty
  lanesI f.ty f.mod fun e => if elem w c e ≠ 0 then elem w a e else elem w b e

/-- MOV (R141). -/
def aluMov (f : DFields) (a : Row) : Row × Fpx := rawBin (fun _ a _ => a) f a 0

/-- MOVI (R141): operand A is the immediate token. -/
def aluMovi (f : DFields) (a : Row) : Row × Fpx := rawBin (fun _ a _ => a) f a 0

/-- MOVH (R142). -/
def aluMovh (f : DFields) (a : Row) : Row × Fpx :=
  rawBin (fun _ a _ => (a <<< 16) ||| f.imm.toNat) f a 0

/-- LIT (R143). -/
def aluLit (f : LFields) : Row × Fpx := (ofVals 64 (List.replicate 8 f.lit.toNat), fNone)

/-! ### Floating point (R145 to R151) -/

/-- A floating instruction on element patterns. -/
def fpBin (g : Fmt → Nat → Nat → Nat → Nat × Fpx) (f : DFields) (a b : Row) : Row × Fpx :=
  let w := tyBits f.ty
  lanes f.ty f.mod fun e => g (fmtOf f.ty) (modeOf f.mod) (elem w a e) (elem w b e)

/-- FADD. -/
def aluFadd : DFields → Row → Row → Row × Fpx := fpBin fun k m a b => fAddV k m (unpack k a) (unpack k b)
/-- FSUB. -/
def aluFsub : DFields → Row → Row → Row × Fpx := fpBin fun k m a b => fAddV k m (unpack k a) (negVal (unpack k b))
/-- FMUL. -/
def aluFmul : DFields → Row → Row → Row × Fpx := fpBin fun k m a b => fMulV k m (unpack k a) (unpack k b)
/-- FDIV. -/
def aluFdiv : DFields → Row → Row → Row × Fpx := fpBin fun k m a b => fDivV k m (unpack k a) (unpack k b)
/-- FMIN. -/
def aluFmin : DFields → Row → Row → Row × Fpx := fpBin fun k _ a b => fMinMax k false a b
/-- FMAX. -/
def aluFmax : DFields → Row → Row → Row × Fpx := fpBin fun k _ a b => fMinMax k true a b

/-- FMA and FNMA: a·b + c or c − a·b, one rounding. -/
def fpTer (neg : Bool) (f : DFields) (a b c : Row) : Row × Fpx :=
  let w := tyBits f.ty; let k := fmtOf f.ty
  lanes f.ty f.mod fun e =>
    let x := unpack k (elem w a e)
    fMaV k (modeOf f.mod) (if neg then negVal x else x) (unpack k (elem w b e)) (unpack k (elem w c e))

/-- FMA. -/
def aluFma : DFields → Row → Row → Row → Row × Fpx := fpTer false
/-- FNMA. -/
def aluFnma : DFields → Row → Row → Row → Row × Fpx := fpTer true
/-- FABS. -/
def aluFabs (f : DFields) (a : Row) : Row × Fpx := fpBin (fun k _ a _ => fSignOp k (fun _ => false) a) f a 0
/-- FNEG. -/
def aluFneg (f : DFields) (a : Row) : Row × Fpx := fpBin (fun k _ a _ => fSignOp k (fun n => !n) a) f a 0

/-- A floating compare (R149). -/
def fpCmp (rel : Nat) (f : DFields) (a b : Row) : Row × Fpx :=
  fpBin (fun k _ a b => let r := fCmp k rel a b; (if r.1 then ones (tyBits f.ty) else 0, r.2)) f a b

/-- FCMPEQ. -/
def aluFcmpeq : DFields → Row → Row → Row × Fpx := fpCmp 0
/-- FCMPLT. -/
def aluFcmplt : DFields → Row → Row → Row × Fpx := fpCmp 1
/-- FCMPLE. -/
def aluFcmple : DFields → Row → Row → Row × Fpx := fpCmp 2
/-- FCMPUN. -/
def aluFcmpun : DFields → Row → Row → Row × Fpx := fpCmp 3
/-- FCLASS (R150). -/
def aluFclass (f : DFields) (a : Row) : Row × Fpx := fpBin (fun k _ a _ => (fClass k a, fNone)) f a 0
/-- FSCALE (R151). -/
def aluFscale (f : DFields) (a b : Row) : Row × Fpx :=
  fpBin (fun k m a b => fScaleV k m (unpack k a) (signedOf (tyBits f.ty) b)) f a b

/-! ### Function units (R152, R153) -/

/-- FRCP. -/
def aluFrcp (f : DFields) (a : Row) : Row × Fpx := fpBin (fun k m a _ => fRcpV k m (unpack k a)) f a 0
/-- FRSQ. -/
def aluFrsq (f : DFields) (a : Row) : Row × Fpx := fpBin (fun k m a _ => fRsqV k m (unpack k a)) f a 0
/-- FSQRT. -/
def aluFsqrt (f : DFields) (a : Row) : Row × Fpx := fpBin (fun k m a _ => fSqrtV k m (unpack k a)) f a 0
/-- FEXP2. -/
def aluFexp2 (f : DFields) (a : Row) : Row × Fpx := fpBin (fun k m a _ => fExp2V k m a (unpack k a)) f a 0
/-- FLOG2. -/
def aluFlog2 (f : DFields) (a : Row) : Row × Fpx := fpBin (fun k m a _ => fLog2V k m a (unpack k a)) f a 0
/-- FSIG. -/
def aluFsig (f : DFields) (a : Row) : Row × Fpx := fpBin (fun k m a _ => fSigV k m a (unpack k a)) f a 0
/-- FTANH. -/
def aluFtanh (f : DFields) (a : Row) : Row × Fpx := fpBin (fun k m a _ => fTanhV k m a (unpack k a)) f a 0

/-! ### Conversion (R154 to R157) -/

/-- SRC of Table 5-11. -/
def srcTy (f : DFields) : BitVec 4 := f.imm.extractLsb' 0 4

/-- PART of Table 5-11. -/
def partOf (f : DFields) : Nat := (f.imm.extractLsb' 4 2).toNat

/-- Elements `0 … n - 1` of the result by `g`, the others zero (R155, R156), element 0 alone under V. -/
def convLanes (f : DFields) (n : Nat) (g : Nat → Nat × Fpx) : Row × Fpx :=
  lanes f.ty f.mod fun e => if e < n then g e else (0, fNone)

/-- One element of `A` converted from SRC. -/
def convAt (f : DFields) (a : Row) (e : Nat) : Nat × Fpx :=
  convElem (srcTy f) f.ty (modeOf f.mod) (sOf f.mod) (elem (tyBits (srcTy f)) a e)

/-- CVT (R155). -/
def aluCvt (f : DFields) (a : Row) : Row × Fpx :=
  convLanes f (min (tyCount (srcTy f)) (tyCount f.ty)) (convAt f a)

/-- CVTS (R156). -/
def aluCvts (f : DFields) (a b : Row) : Row × Fpx :=
  convLanes f (min (tyCount (srcTy f)) (tyCount f.ty)) fun e =>
    convScaled (srcTy f) f.ty (modeOf f.mod) (sOf f.mod)
      (scaleVal (elem 8 b 0) (f.imm.getLsbD 6) (valOf (srcTy f) (elem (tyBits (srcTy f)) a e)))

/-- PACK (R157). -/
def aluPack (f : DFields) (a b : Row) : Row × Fpx :=
  let n := tyCount (srcTy f)
  lanes f.ty f.mod fun e =>
    if partOf f * n ≤ e && e < partOf f * n + n then convAt f a (e - partOf f * n)
    else (elem (tyBits f.ty) b e, fNone)

/-- UNPK (R157). -/
def aluUnpk (f : DFields) (a : Row) : Row × Fpx :=
  lanes f.ty f.mod fun e => convAt f a (partOf f * tyCount f.ty + e)

/-! ### Lane structure (R158, R159) -/

/-- The index k (R158). -/
def laneIndex (f : DFields) (b : Row) : Nat :=
  (if f.srcB = 5 then f.imm.toNat else elem 32 b 0) % tyCount f.ty

/-- A result of all n elements by their bit patterns. -/
def patterns (ty : BitVec 4) (g : Nat → Nat) : Row × Fpx :=
  (ofVals (tyBits ty) ((List.range (tyCount ty)).map g), fNone)

/-- BCAST. -/
def aluBcast (f : DFields) (a b : Row) : Row × Fpx :=
  patterns f.ty fun _ => elem (tyBits f.ty) a (laneIndex f b)
/-- SHUF. -/
def aluShuf (f : DFields) (a b : Row) : Row × Fpx :=
  let w := tyBits f.ty
  patterns f.ty fun i => elem w a (elem w b i % tyCount f.ty)
/-- ROTX. -/
def aluRotx (f : DFields) (a b : Row) : Row × Fpx :=
  patterns f.ty fun i => elem (tyBits f.ty) a ((i + laneIndex f b) % tyCount f.ty)
/-- LANE. -/
def aluLane (f : DFields) (a b : Row) : Row × Fpx :=
  patterns f.ty fun i => if i = 0 then elem (tyBits f.ty) a (laneIndex f b) else 0
/-- INSL. -/
def aluInsl (f : DFields) (a b c : Row) : Row × Fpx :=
  let w := tyBits f.ty
  patterns f.ty fun i => if i = laneIndex f b then elem w a 0 else elem w c i

/-- One combination of a reduction: 0 sum, 1 greatest, 2 least (R73, R159). -/
def combine (ty : BitVec 4) (mode kind x y : Nat) : Nat × Fpx :=
  if tyInt ty then
    let a := intOf ty x; let b := intOf ty y
    (wrapTo (tyBits ty) (if kind = 0 then a + b else if kind = 1 then max a b else min a b), fNone)
  else
    let k := fmtOf ty
    if kind = 0 then fAddV k mode (unpack k x) (unpack k y) else fMinMax k (kind = 1) x y

/-- One level of the tree of R73. -/
def treeLevel (g : Nat → Nat → Nat × Fpx) : List Nat → List Nat × Fpx
  | x :: y :: r => let p := g x y; let q := treeLevel g r; (p.1 :: q.1, p.2 ||| q.2)
  | l => (l, fNone)

/-- Levels of the tree until one value remains. -/
def treeFold (g : Nat → Nat → Nat × Fpx) : Nat → List Nat × Fpx → List Nat × Fpx
  | 0, p => p
  | k + 1, p => let q := treeLevel g p.1; treeFold g k (q.1, p.2 ||| q.2)

/-- A reduction of all elements into element 0 (R73, R159). -/
def reduce (kind : Nat) (f : DFields) (a : Row) : Row × Fpx :=
  let r := treeFold (combine f.ty (modeOf f.mod) kind) (Nat.log2 (tyCount f.ty)) (vals f.ty a, fNone)
  (ofVals (tyBits f.ty) (r.1.take 1), r.2)

/-- REDADD. -/
def aluRedadd : DFields → Row → Row × Fpx := reduce 0
/-- REDMAX. -/
def aluRedmax : DFields → Row → Row × Fpx := reduce 1
/-- REDMIN. -/
def aluRedmin : DFields → Row → Row × Fpx := reduce 2

/-- The running combination of SCAN after `acc`. -/
def scanFrom (g : Nat → Nat → Nat × Fpx) (acc : Nat) : List Nat → List Nat × Fpx
  | [] => ([], fNone)
  | x :: r => let p := g acc x; let q := scanFrom g p.1 r; (p.1 :: q.1, p.2 ||| q.2)

/-- s_0 of SCAN: x_0, a NaN being canonical (R56, R58). -/
def scanFirst (ty : BitVec 4) (x : Nat) : Nat × Fpx :=
  if tyInt ty then (x, fNone)
  else match unpack (fmtOf ty) x with
    | .nan s => (canonNaN (fmtOf ty), flagIf s fNV)
    | _ => (x, fNone)

/-- SCAN (R73). -/
def aluScan (f : DFields) (a : Row) : Row × Fpx :=
  match vals f.ty a with
  | [] => (0, fNone)
  | x :: r =>
    let p := scanFirst f.ty x
    let q := scanFrom (combine f.ty (modeOf f.mod) 0) p.1 r
    (ofVals (tyBits f.ty) (p.1 :: q.1), p.2 ||| q.2)

end Sys2Proof.Machine
end

