-- ==== Sys2Proof/Machine/Compute.lean ====
section
/-!
DEFINITION. The meanings of the compute chapter (R123 to R159): each forms its token by Machine/Alu.lean and hands it
to its targets. The checks of R129 with an armed injection (R273, R452) and the machine-check actions of Table
17-4 stand here.
-/

namespace Sys2Proof.Machine

/-- The unit class of an instruction's results (R452). -/
def unitClass (i : Instr) : Option Nat :=
  match opcodeOf i with
  | none => none
  | some op =>
    let ty := BitVec.ofNat 4 (commonFields i).ty
    let conv (f : DFields) : Nat := if tyInt ty && tyInt (srcTy f) then 0 else 1
    if op ≤ 0x00E || (0x080 ≤ op && op ≤ 0x083) then some 0
    else if op = 0x089 then none
    else if (0x040 ≤ op && op ≤ 0x04C) || (0x084 ≤ op && op ≤ 0x088) || op = 0x0CD || (0x140 ≤ op && op ≤ 0x144) then some 3
    else if 0x0C0 ≤ op && op ≤ 0x0CE then some 1
    else if op = 0x0CF || (0x100 ≤ op && op ≤ 0x106) then some 2
    else if 0x145 ≤ op && op ≤ 0x148 then some (if tyInt ty then 0 else 1)
    else match i with
      | .cvt f => some (conv f)
      | .cvts f => some (conv f)
      | .pack f => some (conv f)
      | .unpk f => some (conv f)
      | _ => none

/-- Elements of a result that are formed: the whole token, element 0 under V and for a reduction (R13, R143, R158). -/
def formed (i : Instr) : Nat :=
  let ty := BitVec.ofNat 4 (commonFields i).ty
  match i with
  | .redadd _ | .redmax _ | .redmin _ => 1
  | .lit _ => tyCount ty
  | _ => laneCount ty (BitVec.ofNat 4 (commonFields i).mod)

/-- Whether the elements of a result are floating patterns, whose checks are those of R76. DESIGN CHOICE (log entry 62): t8 and t6,
for which R75 and R76 state no residue, are none, so that the record gives their whole pattern's residue with EXP 0. -/
def floatResult (i : Instr) : Bool :=
  let ty := (commonFields i).ty
  match i with
  | .fcmpeq _ | .fcmplt _ | .fcmple _ | .fcmpun _ => false
  | _ => ty = 8 || ty = 9 || (12 ≤ ty && ty ≤ 14)

/-- The residue checked for a bit of an element (R75, R76): of the integer, of the significand, or of the sign and
exponent; with EXP of Table 17-5. DESIGN CHOICE (log entry 62): a t8 or t6 pattern counts as an unsigned integer. -/
def checkedResidue (i : Instr) (bit raw : Nat) : Nat × Bool :=
  let ty := BitVec.ofNat 4 (commonFields i).ty
  if floatResult i then
    let k := fmtOf ty
    if k.mb ≤ bit then (res7 ((raw >>> k.mb : Nat) : Int), true)
    else (res7 ((raw % 2 ^ k.mb + (if field raw (k.eb + k.mb - 1) k.mb = 0 then 0 else 2 ^ k.mb) : Nat) : Int), false)
  else (res7 (intOf ty raw), false)

/-- The PE_ID by which FINJ names the agent of an instruction (R273). -/
def injectPe (who : Agent) : Option Nat :=
  match who with
  | .actor _ a => some (a / 4)
  | .seq _ => some 0xFFFF
  | .bind _ => none

/-- The armed injection that meets a result of `w`-bit elements, `n` of them formed: that of the agent's PE and the
result's class, when its bit lies in a formed element. -/
def injectionFor (k : Core) (who : Agent) (i : Instr) : Option Inject :=
  match injectPe who, unitClass i with
  | some pe, some cls =>
    k.dbg.finj.find? fun j =>
      j.pe = pe && j.cls = cls && j.lane * 32 + j.bit < tyBits (BitVec.ofNat 4 (commonFields i).ty) * formed i
  | _, _ => none

/-- FIRING_CNT of an agent (R42). -/
def Core.firingCnt (k : Core) (who : Agent) : Word :=
  match who with
  | .actor _ a => (k.actor a).count
  | _ => k.seq.count

/-- The finding of an injected flip in a result (R129, R273, Table 17-5). -/
def flipFinding (k : Core) (x : Issue) (j : Inject) (good bad : Row) (sev : Nat) : Finding :=
  let ty := BitVec.ofNat 4 (commonFields x.i).ty
  let w := tyBits ty
  let at_ := j.lane * 32 + j.bit
  let p := checkedResidue x.i (at_ % w) (elem w good (at_ / w))
  let o := checkedResidue x.i (at_ % w) (elem w bad (at_ / w))
  let pe := match x.who with | .actor _ a => a / 4 | _ => 0
  let act := match x.who with | .actor _ a => a % 4 | _ => 0
  { unit := j.cls, sev := sev, inj := true, exp := j.cls ≠ 3 && p.2,
    seq := (match x.who with | .actor _ _ => false | _ => true), pe := pe, actor := act,
    slot := x.slot, op := (opcodeOf x.i).getD 0, lane := j.lane, el := at_ / w,
    pred := if j.cls = 3 then 0 else p.1, obs := if j.cls = 3 then 0 else o.1,
    info := (k.firingCnt x.who).toNat }

/-- A result whose check fails (R129, Table 17-4): the firing is aborted and re-run, the block re-run from its start, or
the result takes the ember bit and the region rolls back. -/
def Issue.mismatch (x : Issue) (j : Inject) (good : Row) (fl : Fpx) (f : Fabric) : Fabric :=
  let c := x.who.core
  let k := f.core c
  let bad : Row := good ^^^ BitVec.ofNat 512 (2 ^ (j.lane * 32 + j.bit))
  let f := f.modCore c fun k => { k with dbg := { k.dbg with finj := k.dbg.finj.filter (· ≠ j) } }
  f.blockError x.who false (flipFinding k x j good bad 0) ({ x with ember := true }.result bad fl)

/-- The meaning of an instruction whose result is a function of its operands (R126, R127, R129). -/
def computeStep (i : Instr) (g : Issue → Row × Fpx) : State → Host.Outcome State Fault Refusal :=
  issueStep i fun x f =>
    let r := g x
    match injectionFor (f.core x.who.core) x.who x.i with
    | none => x.result r.1 r.2 f
    | some j => x.mismatch j r.1 r.2 f

/-- ADD. -/
def execAdd (f : DFields) (s : State) : Host.Outcome State Fault Refusal :=
  computeStep (.add f) (fun x => aluAdd f x.a x.b) s

/-- SUB. -/
def execSub (f : DFields) (s : State) : Host.Outcome State Fault Refusal :=
  computeStep (.sub f) (fun x => aluSub f x.a x.b) s

/-- MUL. -/
def execMul (f : DFields) (s : State) : Host.Outcome State Fault Refusal :=
  computeStep (.mul f) (fun x => aluMul f x.a x.b) s

/-- MULH. -/
def execMulh (f : DFields) (s : State) : Host.Outcome State Fault Refusal :=
  computeStep (.mulh f) (fun x => aluMulh f x.a x.b) s

/-- MAD. -/
def execMad (f : DFields) (s : State) : Host.Outcome State Fault Refusal :=
  computeStep (.mad f) (fun x => aluMad f x.a x.b x.c) s

/-- QUO. -/
def execQuo (f : DFields) (s : State) : Host.Outcome State Fault Refusal :=
  computeStep (.quo f) (fun x => aluQuo f x.a x.b) s

/-- REM. -/
def execRem (f : DFields) (s : State) : Host.Outcome State Fault Refusal :=
  computeStep (.rem f) (fun x => aluRem f x.a x.b) s

/-- NEG. -/
def execNeg (f : DFields) (s : State) : Host.Outcome State Fault Refusal :=
  computeStep (.neg f) (fun x => aluNeg f x.a) s

/-- ABS. -/
def execAbs (f : DFields) (s : State) : Host.Outcome State Fault Refusal :=
  computeStep (.abs f) (fun x => aluAbs f x.a) s

/-- MIN. -/
def execMin (f : DFields) (s : State) : Host.Outcome State Fault Refusal :=
  computeStep (.min f) (fun x => aluMin f x.a x.b) s

/-- MAX. -/
def execMax (f : DFields) (s : State) : Host.Outcome State Fault Refusal :=
  computeStep (.max f) (fun x => aluMax f x.a x.b) s

/-- CLAMP. -/
def execClamp (f : DFields) (s : State) : Host.Outcome State Fault Refusal :=
  computeStep (.clamp f) (fun x => aluClamp f x.a x.b x.c) s

/-- ADDS. -/
def execAdds (f : DFields) (s : State) : Host.Outcome State Fault Refusal :=
  computeStep (.adds f) (fun x => aluAdds f x.a x.b) s

/-- SUBS. -/
def execSubs (f : DFields) (s : State) : Host.Outcome State Fault Refusal :=
  computeStep (.subs f) (fun x => aluSubs f x.a x.b) s

/-- DOT4. -/
def execDot4 (f : DFields) (s : State) : Host.Outcome State Fault Refusal :=
  computeStep (.dot4 f) (fun x => aluDot4 f x.a x.b x.c) s

/-- AND. -/
def execAnd (f : DFields) (s : State) : Host.Outcome State Fault Refusal :=
  computeStep (.and f) (fun x => aluAnd f x.a x.b) s

/-- OR. -/
def execOr (f : DFields) (s : State) : Host.Outcome State Fault Refusal :=
  computeStep (.or f) (fun x => aluOr f x.a x.b) s

/-- XOR. -/
def execXor (f : DFields) (s : State) : Host.Outcome State Fault Refusal :=
  computeStep (.xor f) (fun x => aluXor f x.a x.b) s

/-- ANDN. -/
def execAndn (f : DFields) (s : State) : Host.Outcome State Fault Refusal :=
  computeStep (.andn f) (fun x => aluAndn f x.a x.b) s

/-- NOT. -/
def execNot (f : DFields) (s : State) : Host.Outcome State Fault Refusal :=
  computeStep (.not f) (fun x => aluNot f x.a) s

/-- SHL. -/
def execShl (f : DFields) (s : State) : Host.Outcome State Fault Refusal :=
  computeStep (.shl f) (fun x => aluShl f x.a x.b) s

/-- SHR. -/
def execShr (f : DFields) (s : State) : Host.Outcome State Fault Refusal :=
  computeStep (.shr f) (fun x => aluShr f x.a x.b) s

/-- SRA. -/
def execSra (f : DFields) (s : State) : Host.Outcome State Fault Refusal :=
  computeStep (.sra f) (fun x => aluSra f x.a x.b) s

/-- ROTL. -/
def execRotl (f : DFields) (s : State) : Host.Outcome State Fault Refusal :=
  computeStep (.rotl f) (fun x => aluRotl f x.a x.b) s

/-- CLZ. -/
def execClz (f : DFields) (s : State) : Host.Outcome State Fault Refusal :=
  computeStep (.clz f) (fun x => aluClz f x.a) s

/-- POPC. -/
def execPopc (f : DFields) (s : State) : Host.Outcome State Fault Refusal :=
  computeStep (.popc f) (fun x => aluPopc f x.a) s

/-- BFX. -/
def execBfx (f : DFields) (s : State) : Host.Outcome State Fault Refusal :=
  computeStep (.bfx f) (fun x => aluBfx f x.a) s

/-- BFI. -/
def execBfi (f : DFields) (s : State) : Host.Outcome State Fault Refusal :=
  computeStep (.bfi f) (fun x => aluBfi f x.a x.c) s

/-- CMPEQ. -/
def execCmpeq (f : DFields) (s : State) : Host.Outcome State Fault Refusal :=
  computeStep (.cmpeq f) (fun x => aluCmpeq f x.a x.b) s

/-- CMPNE. -/
def execCmpne (f : DFields) (s : State) : Host.Outcome State Fault Refusal :=
  computeStep (.cmpne f) (fun x => aluCmpne f x.a x.b) s

/-- CMPLT. -/
def execCmplt (f : DFields) (s : State) : Host.Outcome State Fault Refusal :=
  computeStep (.cmplt f) (fun x => aluCmplt f x.a x.b) s

/-- CMPLE. -/
def execCmple (f : DFields) (s : State) : Host.Outcome State Fault Refusal :=
  computeStep (.cmple f) (fun x => aluCmple f x.a x.b) s

/-- SEL. -/
def execSel (f : DFields) (s : State) : Host.Outcome State Fault Refusal :=
  computeStep (.sel f) (fun x => aluSel f x.a x.b x.c) s

/-- MOV. -/
def execMov (f : DFields) (s : State) : Host.Outcome State Fault Refusal :=
  computeStep (.mov f) (fun x => aluMov f x.a) s

/-- MOVI. -/
def execMovi (f : DFields) (s : State) : Host.Outcome State Fault Refusal :=
  computeStep (.movi f) (fun x => aluMovi f x.a) s

/-- MOVH. -/
def execMovh (f : DFields) (s : State) : Host.Outcome State Fault Refusal :=
  computeStep (.movh f) (fun x => aluMovh f x.a) s

/-- LIT. -/
def execLit (f : LFields) (s : State) : Host.Outcome State Fault Refusal :=
  computeStep (.lit f) (fun _ => aluLit f) s

/-- NOP (R144): its slot counts as executed, and nothing else changes. -/
def execNop (f : DFields) (s : State) : Host.Outcome State Fault Refusal :=
  issueStep (.nop f) (fun x => x.noResult) s

/-- FADD. -/
def execFadd (f : DFields) (s : State) : Host.Outcome State Fault Refusal :=
  computeStep (.fadd f) (fun x => aluFadd f x.a x.b) s

/-- FSUB. -/
def execFsub (f : DFields) (s : State) : Host.Outcome State Fault Refusal :=
  computeStep (.fsub f) (fun x => aluFsub f x.a x.b) s

/-- FMUL. -/
def execFmul (f : DFields) (s : State) : Host.Outcome State Fault Refusal :=
  computeStep (.fmul f) (fun x => aluFmul f x.a x.b) s

/-- FMA. -/
def execFma (f : DFields) (s : State) : Host.Outcome State Fault Refusal :=
  computeStep (.fma f) (fun x => aluFma f x.a x.b x.c) s

/-- FNMA. -/
def execFnma (f : DFields) (s : State) : Host.Outcome State Fault Refusal :=
  computeStep (.fnma f) (fun x => aluFnma f x.a x.b x.c) s

/-- FMIN. -/
def execFmin (f : DFields) (s : State) : Host.Outcome State Fault Refusal :=
  computeStep (.fmin f) (fun x => aluFmin f x.a x.b) s

/-- FMAX. -/
def execFmax (f : DFields) (s : State) : Host.Outcome State Fault Refusal :=
  computeStep (.fmax f) (fun x => aluFmax f x.a x.b) s

/-- FABS. -/
def execFabs (f : DFields) (s : State) : Host.Outcome State Fault Refusal :=
  computeStep (.fabs f) (fun x => aluFabs f x.a) s

/-- FNEG. -/
def execFneg (f : DFields) (s : State) : Host.Outcome State Fault Refusal :=
  computeStep (.fneg f) (fun x => aluFneg f x.a) s

/-- FCMPEQ. -/
def execFcmpeq (f : DFields) (s : State) : Host.Outcome State Fault Refusal :=
  computeStep (.fcmpeq f) (fun x => aluFcmpeq f x.a x.b) s

/-- FCMPLT. -/
def execFcmplt (f : DFields) (s : State) : Host.Outcome State Fault Refusal :=
  computeStep (.fcmplt f) (fun x => aluFcmplt f x.a x.b) s

/-- FCMPLE. -/
def execFcmple (f : DFields) (s : State) : Host.Outcome State Fault Refusal :=
  computeStep (.fcmple f) (fun x => aluFcmple f x.a x.b) s

/-- FCMPUN. -/
def execFcmpun (f : DFields) (s : State) : Host.Outcome State Fault Refusal :=
  computeStep (.fcmpun f) (fun x => aluFcmpun f x.a x.b) s

/-- FCLASS. -/
def execFclass (f : DFields) (s : State) : Host.Outcome State Fault Refusal :=
  computeStep (.fclass f) (fun x => aluFclass f x.a) s

/-- FSCALE. -/
def execFscale (f : DFields) (s : State) : Host.Outcome State Fault Refusal :=
  computeStep (.fscale f) (fun x => aluFscale f x.a x.b) s

/-- FDIV. -/
def execFdiv (f : DFields) (s : State) : Host.Outcome State Fault Refusal :=
  computeStep (.fdiv f) (fun x => aluFdiv f x.a x.b) s

/-- FRCP. -/
def execFrcp (f : DFields) (s : State) : Host.Outcome State Fault Refusal :=
  computeStep (.frcp f) (fun x => aluFrcp f x.a) s

/-- FRSQ. -/
def execFrsq (f : DFields) (s : State) : Host.Outcome State Fault Refusal :=
  computeStep (.frsq f) (fun x => aluFrsq f x.a) s

/-- FSQRT. -/
def execFsqrt (f : DFields) (s : State) : Host.Outcome State Fault Refusal :=
  computeStep (.fsqrt f) (fun x => aluFsqrt f x.a) s

/-- FEXP2. -/
def execFexp2 (f : DFields) (s : State) : Host.Outcome State Fault Refusal :=
  computeStep (.fexp2 f) (fun x => aluFexp2 f x.a) s

/-- FLOG2. -/
def execFlog2 (f : DFields) (s : State) : Host.Outcome State Fault Refusal :=
  computeStep (.flog2 f) (fun x => aluFlog2 f x.a) s

/-- FSIG. -/
def execFsig (f : DFields) (s : State) : Host.Outcome State Fault Refusal :=
  computeStep (.fsig f) (fun x => aluFsig f x.a) s

/-- FTANH. -/
def execFtanh (f : DFields) (s : State) : Host.Outcome State Fault Refusal :=
  computeStep (.ftanh f) (fun x => aluFtanh f x.a) s

/-- CVT. -/
def execCvt (f : DFields) (s : State) : Host.Outcome State Fault Refusal :=
  computeStep (.cvt f) (fun x => aluCvt f x.a) s

/-- CVTS. -/
def execCvts (f : DFields) (s : State) : Host.Outcome State Fault Refusal :=
  computeStep (.cvts f) (fun x => aluCvts f x.a x.b) s

/-- PACK. -/
def execPack (f : DFields) (s : State) : Host.Outcome State Fault Refusal :=
  computeStep (.pack f) (fun x => aluPack f x.a x.b) s

/-- UNPK. -/
def execUnpk (f : DFields) (s : State) : Host.Outcome State Fault Refusal :=
  computeStep (.unpk f) (fun x => aluUnpk f x.a) s

/-- BCAST. -/
def execBcast (f : DFields) (s : State) : Host.Outcome State Fault Refusal :=
  computeStep (.bcast f) (fun x => aluBcast f x.a x.b) s

/-- SHUF. -/
def execShuf (f : DFields) (s : State) : Host.Outcome State Fault Refusal :=
  computeStep (.shuf f) (fun x => aluShuf f x.a x.b) s

/-- ROTX. -/
def execRotx (f : DFields) (s : State) : Host.Outcome State Fault Refusal :=
  computeStep (.rotx f) (fun x => aluRotx f x.a x.b) s

/-- LANE. -/
def execLane (f : DFields) (s : State) : Host.Outcome State Fault Refusal :=
  computeStep (.lane f) (fun x => aluLane f x.a x.b) s

/-- INSL. -/
def execInsl (f : DFields) (s : State) : Host.Outcome State Fault Refusal :=
  computeStep (.insl f) (fun x => aluInsl f x.a x.b x.c) s

/-- REDADD. -/
def execRedadd (f : DFields) (s : State) : Host.Outcome State Fault Refusal :=
  computeStep (.redadd f) (fun x => aluRedadd f x.a) s

/-- REDMAX. -/
def execRedmax (f : DFields) (s : State) : Host.Outcome State Fault Refusal :=
  computeStep (.redmax f) (fun x => aluRedmax f x.a) s

/-- REDMIN. -/
def execRedmin (f : DFields) (s : State) : Host.Outcome State Fault Refusal :=
  computeStep (.redmin f) (fun x => aluRedmin f x.a) s

/-- SCAN. -/
def execScan (f : DFields) (s : State) : Host.Outcome State Fault Refusal :=
  computeStep (.scan f) (fun x => aluScan f x.a) s

end Sys2Proof.Machine
end

