-- ==== Sys2Proof/Machine/Routes.lean ====
section
/-!
DEFINITION. The ends of routes on a core (R217, R218, R346): the outbound end of route r under key 2 · r, the inbound end under
2 · r + 1.
-/

namespace Sys2Proof.Machine

/-- The route whose inbound end feeds an operator's input. -/
def Core.inRoute (k : Core) (op inp : Nat) : Option Nat :=
  (k.plane.ends.find? fun q => q.1 % 2 = 1 && q.2.kind = 1 && q.2.obj = op && q.2.inp = inp).map fun q => q.1 / 2

/-- The route whose outbound end takes an operator's output, with the depth of its buffer. -/
def Core.outRoute (k : Core) (op out : Nat) : Option (Nat × Nat) :=
  (k.plane.ends.find? fun q => q.1 % 2 = 0 && q.2.kind = 2 && q.2.obj = op && q.2.inp = out).map fun q => (q.1 / 2, q.2.depth)

/-- The beats in the outbound buffer of a route. -/
def Core.outBeats (k : Core) (route : Nat) : List Beat := (sget {} k.ends (route * 2)).out

/-- The beats in the receive buffer of a route. -/
def Core.inBeats (k : Core) (route : Nat) : List Beat := (sget {} k.ends (route * 2 + 1)).recv

/-- The core with the outbound buffer of a route changed. -/
def Core.modOut (k : Core) (route : Nat) (g : List Beat → List Beat) : Core :=
  { k with ends := smod {} k.ends (route * 2) fun e => { e with out := g e.out } }

/-- The core with the receive buffer of a route changed. -/
def Core.modIn (k : Core) (route : Nat) (g : List Beat → List Beat) : Core :=
  { k with ends := smod {} k.ends (route * 2 + 1) fun e => { e with recv := g e.recv } }

/-- Whether a marker has come over a route: its input delivers nothing further until the core passes (R410). -/
def Core.inMarked (k : Core) (route : Nat) : Bool := (k.inBeats route).any fun b => 8 ≤ b.tag

/-- The beat that the inbound end of a route delivers next. -/
def Core.inNext (k : Core) (route : Nat) : Option Beat := if k.inMarked route then none else (k.inBeats route).head?

/-- The beat at the head of an operator's input. -/
def Core.inHead (k : Core) (op inp : Nat) : Option Beat := (k.inRoute op inp).bind k.inNext

/-- Whether an output has buffer space; one without a route takes no part. -/
def Core.hasSpace (k : Core) (op out : Nat) : Bool :=
  match k.outRoute op out with | some (r, d) => (k.outBeats r).length < d | none => true

/-- Segments of a path: each ends in a latch (R343, R345). -/
def RoutePath.segs (p : RoutePath) : Nat :=
  (p.hops.filter fun h => match h with | .seg _ _ _ _ _ _ => true | .edge _ _ _ => false).length

/-- The path of a route of a region. -/
def Region.path (r : Region) (route : Nat) : Option RoutePath := r.paths.find? fun p => p.route = route

/-- Entries of the receive buffer of a route: one for each latch of its path plus 2 (R346). -/
def Fabric.recvDepth (f : Fabric) (reg route : Nat) : Nat :=
  (match (f.region reg).path route with | some p => RoutePath.segs p | none => 0) + 2

/-- Die edges that the path of a route of a region crosses. -/
def Fabric.edgesOf (f : Fabric) (reg route : Nat) : Nat :=
  match (f.region reg).path route with | some p => p.hops.length - RoutePath.segs p | none => 0

/-- Whether the Kiln has marked a route as a back edge of a cycle (R410). -/
def Fabric.isBack (f : Fabric) (reg route : Nat) : Bool := ((f.region reg).path route).any RoutePath.back

/-- The core of a region that holds the inbound end of a route, lit. -/
def Fabric.peerOf (f : Fabric) (reg route : Nat) : Option Nat :=
  (f.cores.find? fun q => q.2.regionId = reg && shas q.2.plane.ends (route * 2 + 1)).map Prod.fst

/-- The core of a region that holds the outbound end of a route, lit. -/
def Fabric.senderOf (f : Fabric) (reg route : Nat) : Option Nat :=
  (f.cores.find? fun q => q.2.regionId = reg && shas q.2.plane.ends (route * 2)).map Prod.fst

/-! ### Markers on routes (R344, R347, R409, R410) -/

/-- The routes with an end of a core, inbound or outbound. -/
def Core.routesAt (k : Core) (inbound : Bool) : List Nat :=
  (skeys k.plane.ends).filterMap fun e => if e % 2 = (if inbound then 1 else 0) then some (e / 2) else none

/-- Whether a marker has come on every input of a core: on each inbound route that is no back edge and that a lit core of the region
feeds. A core without one is a source. -/
def Fabric.markersIn (f : Fabric) (c tag : Nat) : Bool :=
  let k := f.core c
  (k.routesAt true).all fun r =>
    f.isBack k.regionId r || (f.senderOf k.regionId r).isNone || (k.inBeats r).any fun b => b.tag = tag

/-- A marker passed by a core: taken from its inputs, and put into the outbound end of each route that a lit core takes, before what
waits there, which stays behind it. -/
def Fabric.passMarker (f : Fabric) (c tag : Nat) : Fabric :=
  let k := f.core c
  let outs := (k.routesAt false).filter fun r => (f.peerOf k.regionId r).isSome
  f.modCore c fun k =>
    let k := { k with ends := k.ends.map fun q => (q.1, { q.2 with recv := q.2.recv.filter fun b => b.tag ≠ tag }) }
    outs.foldl (fun k r => k.modOut r fun l => ⟨tag, {}⟩ :: l) k

/-- The beats that a core has sent over a route and that still cross die edges. -/
def Core.airBeats (k : Core) (route : Nat) : List (Nat × Beat) := (sget {} k.ends (route * 2)).air

/-- A pre-emption marker at a core: it is to be saved (R28, R322). -/
def Fabric.beginSave (f : Fabric) (c : Nat) : Fabric :=
  (f.passMarker c 8).modCore c fun k => { k with marking := false, saving := true, passed := [] }

/-- Whether a predicate token is true: some bit of bytes 0 to 7 is one (R218). -/
def predTrue (t : Tok) : Bool := elem 64 t.bits 0 ≠ 0

/-- The state of an operator. -/
def Core.oper (k : Core) (op : Nat) : Oper := sget {} k.opers op

/-- The inputs that an operator's next step consumes, and the outputs that it emits on, as far as the tokens there tell
(R218 to R222). -/
def Core.operNeeds (k : Core) (op : Nat) (c : OperCfg) : List Nat × List Nat :=
  let o := k.oper op
  let pred (i : Nat) : Option Bool := (k.inHead op i).map fun b => predTrue b.tok
  match c.op with
  | 0x2C5 => ([0, 1], match pred 1 with | some true => [0, 2] | some false => [1, 2] | none => [])
  | 0x2C6 => (match pred 2 with | some true => [2, 0] | some false => [2, 1] | none => [2], [0])
  | 0x2C7 =>
    if o.phase = 0 then ([0], [0])
    else match pred 2 with | some true => ([2, 1], [0]) | _ => ([2], [])
  | 0x2C8 =>
    match o.held with
    | none => ([0], [0])
    | some _ => ([1], if pred 1 = some true then [0] else [])
  | 0x2C9 =>
    if !o.started then ([0], [])
    else (if (k.inRoute op 1).isSome && o.credit + elem 32 c.a 2 ≤ o.sent then [1] else [], [0])
  | 0x2CA => if o.started then ([], [0]) else ([0], [])
  | _ => if o.phase = 0 then ([0], []) else ([], [0])

/-- The attached inputs of an operator that hold no token though its next step needs one: of a step, or, once a control token
stands at the head of some input, all of them (R218). -/
def Core.operLacks (k : Core) (op : Nat) (c : OperCfg) : List Nat :=
  let ins := (List.range (operPorts c.op).1).filter fun i => (k.inRoute op i).isSome
  let control := ins.any fun i => match k.inHead op i with | some b => b.tag ≠ 0 | none => false
  (if control then ins else (k.operNeeds op c).1).filter fun i => (k.inRoute op i).isSome && (k.inHead op i).isNone

end Sys2Proof.Machine
end

