-- ==== Sys2Proof/Machine/Walker.lean ====
section
/-!
DEFINITION. The stall walker (R416 to R419): what each element of a region waits on, the cycle or longest chain it finds, and
the report rows of Table 17-9.
-/

namespace Sys2Proof.Machine

/-- An element of a report: ELEM 0 actor, 1 sequencer, 2 generator, 3 route end, 4 operator, 5 matrix queue, 6 network queue;
`index` its actor index, generator, route or operator. -/
structure Node where
  core : Nat
  pe : Nat
  index : Nat
  elem : Nat
  deriving DecidableEq, Repr, Inhabited

/-- One wait of an element: WAIT, OBJ, F, C and AUX of its row, and the element it points to. -/
structure Step where
  node : Node
  wait : Nat := 0
  obj : Nat := 0
  f : Nat := 0
  c : Nat := 0
  aux : Nat := 0
  next : Option Node := none
  deriving DecidableEq, Repr, Inhabited

/-- The party of a window as an element; none for the network and the Kiln, which are outside (R418). -/
def Core.partyNode (k : Core) (c w : Nat) (out : Bool) : Option Node :=
  let x := k.plane.party w out
  match field x 31 28 with
  | 1 => some ⟨c, field x 19 12, field x 9 8, 0⟩
  | 2 => some ⟨c, 255, field x 7 0, 2⟩
  | 3 => some ⟨c, 255, field x 7 0, 3⟩
  | 0 => some (if out then ⟨c, 255, 0, 1⟩ else ⟨c, 255, 0, 5⟩)
  | _ => none

/-- A wait on a window's filler (WAIT 2) or reader (WAIT 1). -/
def Core.windowStep (k : Core) (c : Nat) (n : Node) (w : Nat) (filler : Bool) (aux : Nat) : Step :=
  let p := k.partyNode c w filler
  { node := n, wait := if p.isNone then 7 else if filler then 2 else 1, obj := w, f := (k.win w).f, c := (k.winCfg w).cap,
    aux := aux, next := p }

/-- The core's other end of a route: the key of the core of the region that holds the end `fills` of it. -/
def Fabric.otherEnd (f : Fabric) (c route : Nat) (inbound : Bool) : Option Nat :=
  let reg := (f.core c).regionId
  (f.cores.find? fun q => q.2.regionId = reg && shas q.2.plane.ends (route * 2 + (if inbound then 1 else 0))).map Prod.fst

/-- The wait of a committing firing: for a partner of its link set, the horizon, or store credits. -/
def Fabric.commitSteps (f : Fabric) (c a : Nat) (n : Node) : List Step :=
  let k := f.core c
  let l := k.committers a
  let late := (k.mates a).filter fun m => match (k.actor m).firing with | some g => g.phase ≠ .committing | none => true
  if l = [] then late.map fun m => { node := n, wait := 12, next := some ⟨c, m / 4, m % 4, 0⟩ }
  else if !(l.all fun p => f.timely c (l.map Prod.fst) p.1 p.2) then [{ node := n, wait := 9 }]
  else if !f.mayHandOver c (l.map fun p => storePackets p.2).sum then [{ node := n, wait := 4 }]
  else []

/-- Waits of an actor's firing in progress (R23). -/
def Fabric.firingSteps (f : Fabric) (c a : Nat) (n : Node) (g : Firing) : List Step :=
  let k := f.core c
  if g.phase = .committing then f.commitSteps c a n
  else g.exec.waits.filterMap fun w =>
    match w.2 with
    | .slot q => some { node := n, wait := 3, obj := q }
    | .row _ =>
      match (k.blockOf (.actor c a) g.exec).bind fun b => b.instrAt w.1 with
      | some (.wrdx f) => (k.port a f.port.toNat).map fun p => k.windowStep c n p.win true p.need
      | _ => none
    | _ => none

/-- Waits of an actor (R417). -/
def Fabric.actorSteps (f : Fabric) (c a : Nat) : List Step :=
  let k := f.core c
  let n : Node := ⟨c, a / 4, a % 4, 0⟩
  match (k.actor a).firing with
  | some g => f.firingSteps c a n g
  | none =>
    let ports := ((k.portsOf a).filter fun p => !k.portReady p.2).map fun p => k.windowStep c n p.2.win (!p.2.out) p.2.need
    let x := k.actor a
    if ports ≠ [] then ports
    else if k.swapping then [{ node := n, wait := 11, next := some ⟨c, 255, 0, 1⟩ }]
    else match x.missPage, x.accWait with
      | some p, _ => [{ node := n, wait := 6, aux := p }]
      | none, some r => if k.accHeld r then [{ node := n, wait := 10, obj := r, next := some ⟨c, 255, 0, 5⟩ }] else []
      | none, none =>
        ((k.mates a).filter fun m => m ≠ a && !f.eligible c m).map fun m =>
          { node := n, wait := 12, next := some ⟨c, m / 4, m % 4, 0⟩ }

/-- The lowest-numbered generator of a core that a test selects, else another element. -/
def Core.firstGen (k : Core) (c : Nat) (p : Gen → Bool) (other : Node) : Node :=
  match (List.range 16).find? fun g => p (k.gen g) with | some g => ⟨c, 255, g, 2⟩ | none => other

/-- The engine that holds an outstanding count over its limit: of CP the lowest-numbered generator with a command, else the tier and
network queue; of MX the matrix queue (R417). -/
def Core.countNode (k : Core) (c fld : Nat) : Node :=
  if fld = 3 then ⟨c, 255, 0, 5⟩ else k.firstGen c (fun y => y.cur.isSome || y.queue ≠ []) ⟨c, 255, 0, 6⟩

/-- The engine whose queue a command finds full: of a matrix command the matrix queue, of a tier or network command their queue,
else the lowest-numbered generator whose queue is full (R417). -/
def Core.queueNode (k : Core) (c : Nat) (i : Option Instr) : Node :=
  match i with
  | some (.mxldw _) | some (.mxsel _) | some (.mxrun _) | some (.mxstat _) | some (.mxthr _) | some (.mxpeek _) => ⟨c, 255, 0, 5⟩
  | some (.tqry _) | some (.tin _) | some (.tout _) | some (.nsend _) | some (.nget _) | some (.nredAdd _) | some (.nredMax _)
  | some (.nredMin _) | some (.xinv _) => ⟨c, 255, 0, 6⟩
  | _ => k.firstGen c (fun y => 4 ≤ y.queue.length) (if 16 ≤ k.mx.queue.length then ⟨c, 255, 0, 5⟩ else ⟨c, 255, 0, 6⟩)

/-- The first OUTSTANDING field over its limit: 0 LD, 1 ST, 2 CP, 3 MX. -/
def Counts.overField (n : Counts) (limits : Nat) : Nat :=
  let bad (v i : Nat) : Bool := field limits (4 * i + 3) (4 * i) ≠ 15 && field limits (4 * i + 3) (4 * i) < v
  if bad n.ld 0 then 0 else if bad n.st 1 then 1 else if bad n.cp 2 then 2 else 3

/-- What a CSWAP's drain waits on (R225): firings in progress, tokens of operators and outbound ends, copy commands, and the
matrix queue. -/
def Core.drainNodes (k : Core) (c : Nat) : List Node :=
  (k.actors.filterMap fun q => match q.2.firing with
    | some y => if y.phase = .trapped && y.release ≠ .rft then none else some ⟨c, q.1 / 4, q.1 % 4, 0⟩
    | none => none) ++
  (k.ends.filterMap fun q =>
    if q.2.out ≠ [] || (q.2.recv ≠ [] && (match sfind k.plane.ends q.1 with | some e => e.kind ≠ 0 | none => true)) then
      some ⟨c, 255, q.1 / 2, 3⟩
    else none) ++
  ((List.range 16).filterMap fun g =>
    if ((k.gen g).cur.isSome && !k.pausedStream (k.gen g)) || (k.gen g).queue ≠ [] then some ⟨c, 255, g, 2⟩ else none) ++
  (if k.counts.mx ≠ 0 then [⟨c, 255, 0, 5⟩] else [])

/-- Waits of a sequencer (R417). -/
def Core.seqSteps (k : Core) (c : Nat) : List Step :=
  let n : Node := ⟨c, 255, 0, 1⟩
  match k.seq.exec with
  | none => []
  | some e =>
    (if k.swapping then k.drainNodes c else []).map (fun x => { node := n, wait := 11, next := some x }) ++
    e.waits.filterMap fun w =>
    match w.2 with
    | .bar b _ => some { node := n, wait := 8, obj := b }
    | .drain => none
    | .count l =>
      let fld := k.counts.overField l
      some { node := n, wait := 13, obj := fld, next := if fld < 2 then none else some (k.countNode c fld) }
    | .queue => some { node := n, wait := 13, obj := 4, next := some (k.queueNode c ((k.blockOf (.seq c) e).bind fun b => b.instrAt w.1)) }
    | .slot q => some { node := n, wait := 3, obj := q }
    | _ => none

/-- Waits of a generator (R417). -/
def Core.genSteps (k : Core) (c g : Nat) : List Step :=
  let n : Node := ⟨c, 255, g, 2⟩
  let y := k.gen g
  match y.cur with
  | none => []
  | some q =>
    match y.park with
    | some p => [{ node := n, wait := if p.tier then 6 else 5, obj := g, aux := p.va / 65536 * 65536 }]
    | none =>
      if q.fills && k.freeRows q.win = 0 then [k.windowStep c n q.win false 0]
      else if (q.op = 0x341 || q.op = 0x342 || (q.op = 0x348 && !q.fills)) && k.readable q.win = 0 then
        [k.windowStep c n q.win true 0]
      else []

/-- Waits of the route ends of a core (R417): a circuit points to the party across it, or to the party of its window or the
operator at its end. -/
def Fabric.routeSteps (f : Fabric) (c route : Nat) : List Step :=
  let k := f.core c
  let n : Node := ⟨c, 255, route, 3⟩
  let across (inbound : Bool) (wait : Nat) : Step :=
    { node := n, wait := wait, obj := route, next := (f.otherEnd c route inbound).map fun d => ⟨d, 255, route, 3⟩ }
  let toOper (e : EndCfg) (wait : Nat) : Step := { node := n, wait := wait, obj := route, next := some ⟨c, 255, e.obj, 4⟩ }
  let sink (e : EndCfg) : List Step :=
    if e.kind = 1 then [toOper e 1] else if k.freeRows e.obj = 0 then [k.windowStep c n e.obj false 0] else []
  let source (e : EndCfg) : List Step :=
    if e.kind = 2 then [toOper e 2] else if k.readable e.obj = 0 then [k.windowStep c n e.obj true 0] else []
  match sfind k.plane.ends (route * 2 + 1), sfind k.plane.ends (route * 2) with
  | some e, none => if k.inBeats route = [] then [across false 2] else sink e
  | some e, some s => if k.inBeats route ≠ [] then sink e else if k.outBeats route ≠ [] then [] else source s
  | none, some s =>
    if k.outBeats route = [] then source s
    else match f.peerOf k.regionId route with
      | some d => if f.recvDepth k.regionId route ≤ ((f.core d).inBeats route).length then [across true 1] else []
      | none => [across true 1]
  | none, none => []

/-- Waits of an operator (R218): for a token on an input, or for space on an output. -/
def Core.operSteps (k : Core) (c op : Nat) : List Step :=
  let n : Node := ⟨c, 255, op, 4⟩
  match sfind k.plane.opers op with
  | none => []
  | some cfg =>
    let lacks := (k.operLacks op cfg).filterMap fun i => (k.inRoute op i).map fun r => (r, 2)
    let full := ((k.operNeeds op cfg).2.filter fun o => !k.hasSpace op o).filterMap fun o => (k.outRoute op o).map fun r => (r.1, 1)
    (if lacks ≠ [] then lacks else full).map fun r => { node := n, wait := r.2, obj := r.1, next := some ⟨c, 255, r.1, 3⟩ }

/-- Waits of the matrix queue of a core: its first MXRUN's rows, or the copy that its chained half follows. -/
def Core.mxSteps (k : Core) (c : Nat) : List Step :=
  let n : Node := ⟨c, 255, 0, 5⟩
  match k.mx.queue.find? fun m => m.kind = 0 with
  | none => []
  | some m =>
    match m.chain with
    | some g => if m.ready then [] else [{ node := n, wait := 2, obj := m.win, next := some ⟨c, 255, g, 2⟩ }]
    | none =>
      let need := if bitOf m.flags 1 then m.rowsPer else elem 32 m.a 3 + (m.admitted + 1) * m.rowsPer
      if m.admitted < m.count && k.readable m.win < need then [k.windowStep c n m.win true 0] else []

/-- Waits of the tier and network queue of a core. -/
def Core.netSteps (k : Core) (c : Nat) : List Step :=
  let n : Node := ⟨c, 255, 0, 6⟩
  match k.eng.net with
  | [] => []
  | m :: _ =>
    if m.op = 0x359 && k.freeRows m.win = 0 then [k.windowStep c n m.win false 0]
    else [{ node := n, wait := 7 }]

/-- Everything an element waits on. -/
def Fabric.steps (f : Fabric) (n : Node) : List Step :=
  let k := f.core n.core
  match n.elem with
  | 0 => f.actorSteps n.core (n.pe * 4 + n.index)
  | 1 => k.seqSteps n.core
  | 2 => k.genSteps n.core n.index
  | 3 => f.routeSteps n.core n.index
  | 4 => k.operSteps n.core n.index
  | 5 => k.mxSteps n.core
  | 6 => k.netSteps n.core
  | _ => []

/-- The elements of a core, in order of PE_ID and index. -/
def Core.nodes (k : Core) (c : Nat) : List Node :=
  ((skeys k.plane.actors).map fun a => (⟨c, a / 4, a % 4, 0⟩ : Node)) ++ [⟨c, 255, 0, 1⟩] ++
    ((List.range 16).map fun g => ⟨c, 255, g, 2⟩) ++
    ((skeys k.plane.ends).map (· / 2)).eraseDups.map (fun r => ⟨c, 255, r, 3⟩) ++
    (skeys k.plane.opers).map (fun o => ⟨c, 255, o, 4⟩) ++ [⟨c, 255, 0, 5⟩, ⟨c, 255, 0, 6⟩]

/-- The elements of a region, in order of die, core, PE_ID and index. -/
def Fabric.nodes (f : Fabric) (r : Nat) : List Node :=
  f.cores.flatMap fun q => if q.2.group.isSome && q.2.regionId = r then q.2.nodes q.1 else []

/-- A path of waits from an element to a target, of at most the number of steps given, passing no element twice. -/
def Fabric.pathTo (f : Fabric) (target : Node) : Nat → List Node → Node → Option (List Step)
  | 0, _, _ => none
  | n + 1, seen, x =>
    if seen.contains x then none
    else (f.steps x).findSome? fun s =>
      match s.next with
      | none => none
      | some y => if y = target then some [s] else (f.pathTo target n (x :: seen) y).map (s :: ·)

/-- The longer of two lists, the first when they are equal. -/
def longer {α : Type} (a b : List α) : List α := if a.length < b.length then b else a

/-- A step that points to no other element: what it waits on is outside, but for a count of loads or stores, whose limiting element is
the sequencer itself (R417). -/
def Step.ending (s : Step) : List Step := if s.wait = 13 then [s, { node := s.node }] else [s]

/-- The longest chain of waits from an element, its limiting element's row last. -/
def Fabric.chainFrom (f : Fabric) : Nat → Node → List Step
  | 0, x => [{ node := x }]
  | n + 1, x =>
    match f.steps x with
    | [] => [{ node := x }]
    | l => l.foldl (fun best s => longer best (match s.next with | none => s.ending | some y => s :: f.chainFrom n y)) []

/-- What the walker finds for a region: whether it is a cycle, and its steps in order (R417). -/
def Fabric.walkRegion (f : Fabric) (r : Nat) : Bool × List Step :=
  let ns := f.nodes r
  match ns.findSome? fun n => f.pathTo n ns.length [] n with
  | some l => (true, l)
  | none => (false, (ns.filter fun n => f.steps n ≠ []).foldl (fun best n => longer best (f.chainFrom ns.length n)) [])

/-- A report row (Table 17-9). -/
def Step.row (s : Step) (ctx i : Nat) (cyc trunc last : Bool) : Row :=
  let b (x : Bool) : Nat := if x then 1 else 0
  BitVec.ofNat 512
    (ctx <<< 16 + i <<< 32 + b last <<< 61 + b trunc <<< 62 + b cyc <<< 63 + (dieOf s.node.core) <<< 77 +
      (s.node.core % 128) <<< 80 + s.node.pe <<< 88 + s.node.index <<< 96 + s.node.elem <<< 104 + s.wait <<< 108 +
      s.obj <<< 112 + s.f <<< 128 + s.c <<< 144 + (s.aux % 2 ^ 32) <<< 160)

/-- The rows of a report cut to `room` rows (R276, R420). -/
def reportRows (ctx room : Nat) (cyc : Bool) (l : List Step) : List Row :=
  let keep := l.take room
  keep.zipIdx.map fun p =>
    let last := p.2 + 1 = keep.length
    p.1.row ctx p.2 cyc (last && decide (keep.length < l.length)) last

end Sys2Proof.Machine
end

