-- ==== Sys2Proof/Machine/Diag.lean ====
section
/-!
DEFINITION. The diagnostic instructions of format D (R269 to R276).
-/

namespace Sys2Proof.Machine

/-- WPCLR (R270). -/
def execWpclr (d : DFields) (s : State) : Host.Outcome State Fault Refusal :=
  issueStep (.wpclr d) (fun x f =>
    (x.noResult f).modCore x.who.core fun k =>
      { k with dbg := { k.dbg with wps := k.dbg.wps.filter fun p => !bitOf d.imm.toNat p.1 } }) s

/-- A snapshot cut asked for: markers enter at every source of the region; during a cut the request joins it (R271,
R409). -/
def Fabric.beginCut (f : Fabric) (r : Nat) : Fabric :=
  f.modRegion r fun x => if x.cutting then x else { x with cutting := true, fresh := [] }

/-- MARK (R271). -/
def execMark (d : DFields) (s : State) : Host.Outcome State Fault Refusal :=
  issueStep (.mark d) (fun x f => (x.noResult f).beginCut (f.core x.who.core).regionId) s

/-- A rollback asked for by RWC; where none is possible the region stops with an uncorrected record (R272, R413; log entry
15). -/
def Fabric.replayTo (f : Fabric) (c : Nat) : Fabric :=
  f.needRollback c { unit := 0, sev := 2, seq := true, op := 0x383 }

/-- RWC with ARM = 1 (R272, R432). -/
def execRwcArm (d : DFields) (s : State) : Host.Outcome State Fault Refusal :=
  issueStep (.rwcArm d) (fun x f =>
    let c := x.who.core
    let n : Word := BitVec.ofNat 64 (elem 64 x.a 0)
    let behind := n ≤ (f.core c).dbg.retired
    let f := (x.noResult f).modCore c fun k => { k with dbg := { k.dbg with stop := some n } }
    if behind then f.replayTo c else f) s

/-- RWC with ARM = 0 (R272). -/
def execRwcCancel (d : DFields) (s : State) : Host.Outcome State Fault Refusal :=
  issueStep (.rwcCancel d) (fun x f =>
    (x.noResult f).modCore x.who.core fun k => { k with dbg := { k.dbg with stop := none } }) s

/-- FINJ (R273): DENIED comes first; an armed injection of the same PE and class is replaced. -/
def execFinj (d : DFields) (s : State) : Host.Outcome State Fault Refusal :=
  issueStep (.finj d) (fun x f =>
    let c := x.who.core
    let e (i : Nat) : Nat := elem 32 x.a i
    if !(f.region (f.core c).regionId).finj then x.fault 0x10 0xFF48 0 f
    else
      x.checked none
        [rangeFail (255 < e 0 && e 0 ≠ 0xFFFF) 0, rangeFail (4 < e 1 || (e 1 = 4 && e 0 = 0xFFFF)) 1, rangeFail (15 < e 2) 2,
         rangeFail (31 < e 3) 3]
        (fun f => (x.noResult f).modCore c fun k =>
          { k with dbg := { k.dbg with
              finj := (k.dbg.finj.filter fun j => j.pe ≠ e 0 || j.cls ≠ e 1) ++ [⟨e 0, e 1, e 2, e 3⟩] } }) f) s

/-- Whether an error record is readable by the region lit on a core (R274). -/
def Fabric.mayRead (f : Fabric) (c : Nat) (e : BitVec 256) : Bool :=
  let k := f.core c
  let site := field e.toNat 124 117
  let r := f.region k.regionId
  bitOf e.toNat 63 && field e.toNat 47 32 = k.contextId &&
    (!coreSite site || (r.cores.any fun p => dieOf p.1 = dieOf c && f.site p.1 = site) ||
      r.sites.contains (dieOf c * 256 + site))

/-- MCRD (R274): an entry that the region may not read, or that holds nothing, reads zero. -/
def execMcrd (d : DFields) (s : State) : Host.Outcome State Fault Refusal :=
  issueStep (.mcrd d) (fun x f =>
    let c := x.who.core
    let e := sget 0 (sget {} f.units.banks (dieOf c)).entries (d.imm.toNat % 16)
    x.result (if f.mayRead c e then e.setWidth 512 else 0) fNone f) s

/-- The counts of a channel: full, empty, moving (R275). -/
def Core.profToken (k : Core) (chan : Nat) : Row :=
  match k.dbg.prof.find? fun p => p.chan = chan with
  | some p => ofVals 64 [p.full, p.empty, p.moving]
  | none => 0

/-- The core with a channel's counters cleared and started; a 17th channel takes over the one started longest ago
(R435). -/
def Core.profStart (k : Core) (chan : Nat) : Core :=
  let others := k.dbg.prof.filter fun p => p.chan ≠ chan
  let kept := if 16 ≤ others.length then others.tail else others
  { k with dbg := { k.dbg with prof := kept ++ [⟨chan, true, 0, 0, 0, false⟩] } }

/-- PROF with an operation on its channel: the token is of the counts as they stood (R275). -/
def profStep (i : Instr) (op : Core → Nat → Core) : State → Host.Outcome State Fault Refusal :=
  issueStep i fun x f =>
    let chan := elem 64 x.a 0 % 1024
    (x.result ((f.core x.who.core).profToken chan) fNone f).modCore x.who.core fun k => op k chan

/-- PROF, clear and start (R275). -/
def execProfStart (d : DFields) (s : State) : Host.Outcome State Fault Refusal := profStep (.profStart d) Core.profStart s

/-- The core with a channel's counters stopped. -/
def Core.profStop (k : Core) (chan : Nat) : Core :=
  { k with dbg := { k.dbg with prof := k.dbg.prof.map fun p => if p.chan = chan then { p with running := false } else p } }

/-- PROF, stop (R275). -/
def execProfStop (d : DFields) (s : State) : Host.Outcome State Fault Refusal := profStep (.profStop d) Core.profStop s

/-- PROF, read (R275). -/
def execProfRead (d : DFields) (s : State) : Host.Outcome State Fault Refusal := profStep (.profRead d) (fun k _ => k) s

/-- WALK (R276): the report rows fill the window, whose filler must be none. -/
def execWalk (d : DFields) (s : State) : Host.Outcome State Fault Refusal :=
  issueStep (.walk d) (fun x f =>
    let c := x.who.core
    let k := f.core c
    let w := d.imm.toNat % 256
    x.checked none [partyFail (k.notParty w true 0)]
      (fun f =>
        let q := f.walkRegion k.regionId
        let rows := reportRows k.contextId (k.freeRows w) q.1 q.2
        (x.noResult f).modCore c fun k => rows.foldl (fun k r => k.fillWin w ⟨r, false⟩) k) f) s

end Sys2Proof.Machine
end

