-- ==== Sys2Proof/Machine/Sequencer.lean ====
section
/-!
DEFINITION. The sequencer between blocks (R196 to R206, R318): completion and branches, the call stack with its spills (R41,
R305), waits, blocks read from the image (R311), and the delivery of traps with the return from them (R204 to R206, R397,
R401, R429, R430, R453).
-/

namespace Sys2Proof.Machine

/-! ### The call stack (R41, R199, R305) -/

/-- A call entry as its 8 bytes hold it: the return block in [10:0], halt in [15], a trap entry in [16] (log entry 20). -/
def Entry.encode (e : Entry) : Nat :=
  (match e.ret with | some b => b % 2048 | none => 2 ^ 15) + (if e.trap then 2 ^ 16 else 0)

/-- The entry that 8 bytes hold. -/
def Entry.decode (v : Nat) : Entry := ⟨bitOf v 16, if bitOf v 15 then none else some (v % 2048)⟩

/-- The address of entry `n` of the spills at STACK_OVF. -/
def Core.spillVa (k : Core) (n : Nat) : Nat := ((sget 0 k.seq.ctl 0x027).toNat + 8 * n) % 2 ^ 56

/-- Its physical address through a translation that allows the access; else the cause, and the address. -/
def Fabric.spillAt (f : Fabric) (mem : Memory) (c n : Nat) (write : Bool) : Except (Nat × Nat) Nat :=
  let k := f.core c
  let va := k.spillVa n
  match translate mem (f.context k.contextId) k.contextId va with
  | .ok t => match f.accessFault t write va with | some code => .error (code, va) | none => .ok (t.phys va)
  | .error code => .error (code, va)

/-- An access of the sequencer's own to its spills counted: in the side table, and among its region's accesses to the line (R297,
R433). -/
def Fabric.spillCount (f : Fabric) (mem : Memory) (c n : Nat) (write : Bool) : Memory × Fabric :=
  let k := f.core c
  let va := k.spillVa n
  let mem := match translate mem (f.context k.contextId) k.contextId va with
    | .ok t => mem.addCounts (f.context k.contextId) (if write then { t with writes := 1 } else { t with reads := 1 })
    | .error _ => mem
  (f.countAccess k.regionId va).redoLine mem k.regionId (va / 64)

/-- An entry pushed; a push on 32 entries spills the oldest to the carve-out, and beyond it to memory. An error names the fault
that the spill meets, and its address. -/
def Fabric.push (f : Fabric) (mem : Memory) (c : Nat) (e : Entry) : Except (Nat × Nat) (Memory × Fabric) :=
  let k := f.core c
  let set (g : Seqr → Seqr) : Fabric := f.modCore c fun k => { k with seq := g k.seq }
  match k.seq.stack.getLast? with
  | some old =>
    if k.seq.stack.length < 32 then .ok (mem, set fun q => { q with stack := e :: q.stack })
    else if k.seq.spilled.length < 8 * k.stackRows (.seq c) then
      .ok (mem, set fun q => { q with stack := e :: q.stack.dropLast, spilled := old :: q.spilled })
    else
      (f.spillAt mem c k.seq.ovf true).map fun pa =>
        let f := (set fun q => { q with stack := e :: q.stack.dropLast, ovf := q.ovf + 1 }).undoNote mem k.regionId
          (k.spillVa k.seq.ovf) pa
        let q := f.keyless mem k.regionId pa 8 0 6 old.encode 0
        q.2.spillCount q.1 c k.seq.ovf true
  | none => .ok (mem, set fun q => { q with stack := [e] })

/-- The newest entry with the sequencer without it; an error names the cause, and the address of a fault. -/
def Fabric.pop (f : Fabric) (mem : Memory) (c : Nat) : Except (Nat × Nat) (Entry × Memory × Fabric) :=
  let k := f.core c
  let set (g : Seqr → Seqr) : Fabric := f.modCore c fun k => { k with seq := g k.seq }
  match k.seq.stack, k.seq.ovf, k.seq.spilled with
  | e :: r, _, _ => .ok (e, mem, set fun q => { q with stack := r })
  | [], n + 1, _ =>
    (f.spillAt mem c n false).map fun pa =>
      let q := f.spillCount mem c n false
      (Entry.decode (mem.readNat pa 8), q.1, q.2.modCore c fun k => { k with seq := { k.seq with ovf := n } })
  | [], 0, e :: r => .ok (e, mem, set fun q => { q with spilled := r })
  | [], 0, [] => .error (0x05, 0)

/-! ### The end of a trap (R206, R401, R430, R453) -/

/-- An engine's strike ended: its command goes on (R430). -/
def Core.endStrike (k : Core) (h : Eng) (id : Nat) : Core :=
  let off (s : Option Strike) : Option Strike := if s.any (·.raised) then none else s
  match h with
  | .gen i => k.modGen i fun y => { y with strike := off y.strike }
  | .image i =>
    { k with eng := { k.eng with images := k.eng.images.map fun x => if x.id = i then { x with strike := off x.strike } else x } }
  | .mxldw =>
    { k with mx := { k.mx with queue := k.mx.queue.map fun m => if m.id = id then { m with strike := off m.strike } else m } }
  | .net =>
    { k with eng := { k.eng with net := k.eng.net.map fun m => if m.id = id then { m with strike := off m.strike } else m } }

/-- The watchpoint to step over after the return from a trap, none when a WPSET cancelled it (R430). -/
def Trap.stepOver (t : Trap) : Option Nat :=
  if t.code = 0x60 && !t.noStep then t.info.map fun i => i.toNat % 8 else none

/-- What the return from a trap lets go on: the trapping actor, the struck engine or connection, and the actors that a
deadlock report named. -/
def Fabric.endTrap (f : Fabric) (c : Nat) (t : Trap) (ret : Option Nat) : Fabric :=
  let f := f.modCore c fun k => { k with seq := { k.seq with serving := none } }
  let f := match t.src with
    | .actor a pin =>
      f.modCore c fun k =>
        let k := k.modActor a fun x => { x with trapHeld := false }
        if pin then k.resumePinned a .rft t.stepOver
        else match t.stepOver with
          | some w => k.modActor a fun x => { x with stepOver := some w }
          | none => k
    | .block =>
      match t.stepOver, ret with
      | some w, some b => f.modCore c fun k => { k with seq := { k.seq with stepOver := some (b, w) } }
      | _, _ => f
    | _ => f
  let f := match t.holder with | some h => f.modCore h.1 fun k => k.endStrike h.2.1 h.2.2 | none => f
  let f := match t.conn with
    | some (x, n, slice) => f.modConn x n fun y => { y with held := y.held.erase slice }
    | none => f
  let reg := (f.core c).regionId
  t.dead.foldl
    (fun f q => f.modMember reg q.1 fun k => (k.modActor q.2 fun x => { x with deadHeld := false }).resumePinned q.2 .deadlock none) f

/-- What the return from a remote strike lets its slice go on with in a replay: the logged arrivals that it held (R430, R434). -/
def Fabric.releaseHeld (f : Fabric) (mem : Memory) (t : Trap) : Memory × Fabric :=
  match t.conn with
  | some (x, _, _) => (f.regionsOf x).foldl (fun q r => q.2.redoDue q.1 r) (mem, f)
  | none => (mem, f)

/-! ### Branches (R198 to R200) -/

/-- A chosen index checked: BRANCH_RANGE, or BRANCH_KIND for an actor block or a configuration block not called. -/
def checkIndex (blocks : List Block) (called : Bool) (x : Nat) : Except Nat Nat :=
  if 1023 < x then .error 0x02
  else match blocks[x]? with
    | none => .error 0x02
    | some b => if b.kind = 1 || (b.kind = 2 && !called) then .error 0x03 else .ok x

/-- The block that a completed block passes to, none for halt, with the stack changed; an error is the cause of its trap, with the
address of a spill's fault. -/
def Fabric.branch (f : Fabric) (mem : Memory) (c : Nat) (blocks : List Block) (e : Exec) :
    Except (Nat × Nat) (Option Nat × Memory × Fabric) :=
  let index (called : Bool) (x : Nat) : Except (Nat × Nat) Nat := (checkIndex blocks called x).mapError fun code => (code, 0)
  match e.choice with
  | some .null => .error (0x04, 0)
  | some .halt => .ok (none, mem, f)
  | some (.goto x) => do
    let x ← index false x
    return (some x, mem, f)
  | some (.call x) => do
    let x ← index true x
    let q ← f.push mem c ⟨false, some (e.block + 1)⟩
    return (some x, q.1, q.2)
  | some (.rft x) => do
    let (t, mem, g) ← f.pop mem c
    if !t.trap then throw (0x06, 0)
    let next ← match x with
      | none => pure t.ret
      | some x => (index false x).map some
    match (f.core c).seq.serving with
    | some s =>
      let q := (g.endTrap c s t.ret).releaseHeld mem s
      return (next, q.1, q.2)
    | none => return (next, mem, g)
  | _ => do
    let (t, mem, g) ← f.pop mem c
    if t.trap then throw (0x06, 0)
    match t.ret with
    | some x =>
      let x ← index false x
      return (some x, mem, g)
    | none => return (none, mem, g)

/-! ### Blocks -/

/-- A block of a sequencer begun (R19, R430). -/
def Fabric.startBlock (f : Fabric) (c b : Nat) : Fabric :=
  let (id, f) := f.fresh
  f.modCore c fun k =>
    let skip := match k.seq.stepOver with | some p => if p.1 = b then some p.2 else none | none => none
    { k with seq := { k.seq with
        phase := .run, exec := some { id := id, block := b, stepOver := skip }
        stepOver := if skip.isSome then none else k.seq.stepOver } }

/-- The sequencer passes to a block: at once when it is resident, else it is read from the image (R311). -/
def Fabric.enterBlock (f : Fabric) (c b : Nat) : Fabric :=
  if (f.core c).seq.resident.contains b then f.startBlock c b
  else f.modCore c fun k => { k with seq := { k.seq with phase := .fetch b } }

/-- Whether a pending trap is to be delivered at the next boundary (R204, R205). -/
def Core.hasTrap (k : Core) : Bool := k.seq.serving.isNone && k.seq.pending ≠ []

/-- The sequencer goes on from a boundary when no trap is to be delivered there; halting with traps held back, it leaves them to
the Kiln (R200). -/
def Fabric.proceed (f : Fabric) (c : Nat) : Fabric :=
  let k := f.core c
  if k.hasTrap || k.dbg.frozen then f
  else match k.seq.phase with
    | .boundary (some b) => f.enterBlock c b
    | .boundary none =>
      let f := f.modCore c fun k => { k with seq := { k.seq with phase := .halted } }
      (match k.seq.pending with | t :: _ => f.stopRegion c t | [] => f)
    | _ => f

/-- The writes of a completed block: g registers, then MTK, in slot order, then FPX (R39, R197). -/
def Core.blockWrites (k : Core) (e : Exec) : Core :=
  let k := e.effects.foldl
    (fun k x => match x.2 with
      | .greg n t =>
        if n % 64 = 0 || t.ember then k
        else { k with seq := { k.seq with g := sput 0 k.seq.g (n % 64) (BitVec.ofNat 64 (elem 64 t.bits 0)) } }
      | _ => k) k
  let k := e.effects.foldl (fun k x => match x.2 with | .mtk n t => k.applyMtk n t | _ => k) k
  { k with
    seq := { k.seq with fpx := k.seq.fpx ||| e.flags, count := k.seq.count + 1, exec := none }
    dbg := { k.dbg with retired := k.dbg.retired + 1 } }

/-- A trap of the sequencer's block at its end; one raised while a trap entry is on the stack is a handler fault (R205). -/
def Fabric.raise (f : Fabric) (c : Nat) (serving : Bool) (t : Trap) : Fabric :=
  if serving then f.stopRegion c t.handlerFault else f.pend c t

/-- The trap of a branch: its slot and opcode, or 0xFFFF and 0 for the implicit return of a configuration block (R199). -/
def branchTrap (c : Nat) (b : Block) (e : Exec) (code addr : Nat) : Trap :=
  match b.instrs.find? fun s => isBranch s.2 with
  | some s => slotTrap (.seq c) s.1 s.2 false code addr 0
  | none => { code := code, slot := 0xFFFF, pe := 0xFFFF, addr := if code < 0x30 then e.block else addr, src := .block }

/-- TRAP_SLOT and TRAP_OP of the branch of a block, by which a trap names what loaded the next block (R116). -/
def loaderOf (b : Block) : Nat × Nat :=
  match b.instrs.find? fun s => isBranch s.2 with
  | some s => (0xFF00 + s.1, (opcodeOf s.2).getD 0)
  | none => (0xFFFF, 0)

/-- The sequencer with what loads its next block noted. -/
def Core.loadedBy (k : Core) (x : Nat × Nat) : Core := { k with seq := { k.seq with loader := x } }

/-- A sequencer at a boundary before a block, none when it is about to halt. -/
def Core.atBoundary (k : Core) (next : Option Nat) : Core := { k with seq := { k.seq with phase := .boundary next } }

/-- Whether the sequencer's block may complete now (R120, R272, R352, R411, R434). -/
def Fabric.mayEnd (f : Fabric) (c : Nat) (b : Block) (e : Exec) : Bool :=
  let k := f.core c
  e.waits = [] && e.queued = [] && e.inflight = [] && outputsDone b e && k.mayRetire && f.inTurn c 256 && f.replayNames c 1024 &&
    f.mayHandOver c (storePackets e)

/-- The effects of a sequencer's block that completes: its writes, and its stores handed over (R185, R197). -/
def Fabric.blockEffects (f : Fabric) (c : Nat) (e : Exec) : Fabric :=
  let (id, f) := f.fresh
  let f := ((f.modCore c fun k => k.blockWrites e).noteCommit c 256).logCommit c 1024
  f.handOver id c 0xFFFF (storeOps e) (storePackets e) e.id [.seq c] none (storeLanes e)

/-- A sequencer block that completes (R197): writes, hand-over (R185), then its trap or its branch. A fault of the call stack's spills
or refills is the block's, none of whose writes is then applied (R195, R399). -/
def Fabric.seqComplete (f : Fabric) (mem : Memory) (c : Nat) : Memory × Fabric :=
  let k := f.core c
  match k.seq.phase, k.seq.exec, k.group with
  | .boundary _, _, _ => (mem, f.proceed c)
  | .run, some e, some g =>
    match g.blocks[e.block]? with
    | none => (mem, f)
    | some b =>
      if !f.mayEnd c b e then (mem, f)
      else
        let serving := k.seq.serving.isSome
        let done := f.blockEffects c e
        match done.branch mem c g.blocks e with
        | .error (code, addr) =>
          if 0x30 ≤ code then (mem, f.blockFault c (branchTrap c b e code addr))
          else
            let f := (done.modCore c fun k => k.atBoundary (some e.block)).raise c serving (branchTrap c b e code addr)
            (mem, f.proceed c)
        | .ok (next, mem, f) =>
          let f := f.modCore c fun k => (k.atBoundary next).loadedBy (loaderOf b)
          let f := match e.soft, e.soft.bind fun p => b.instrAt p.1 with
            | some (slot, code), some i =>
              f.raise c serving { slotTrap (.seq c) slot i false 0x01 code 0 with src := .soft }
            | _, _ => f
          (mem, f.proceed c)
  | _, _, _ => (mem, f)

/-- The declaration block of a BIND plane done: the checks that are made when the plane is filled (R214, R311). -/
def Fabric.bindComplete (f : Fabric) (c : Nat) : Fabric :=
  let k := f.core c
  match k.bindExec, k.incoming with
  | some e, some g =>
    match g.blocks[e.block]? with
    | none => f
    | some b =>
      if !outputsDone b e then f
      else
        let bad := f.swapFails c k.kplane (some g) ≠ []
        f.modCore c fun k =>
          { k with bindExec := none, incoming := some { g with filled := !bad, refused := g.refused || bad } }
  | _, _ => f

/-- SEQUENCER_BLOCK_COMPLETE. -/
def execSequencerBlockComplete (who : Agent) (s : State) : Host.Outcome State Fault Refusal :=
  match who with
  | .bind c => fabricStep (fun f => f.bindComplete c) s
  | w => memStep (fun m f => f.seqComplete m w.core) s

/-- SEQ_BLOCK_FETCH (R311): a store holds 32 blocks, the latest kept. The trap of an invalid block names the branch that loaded it
(R116). -/
def Fabric.fetchBlock (f : Fabric) (c : Nat) : Fabric :=
  let k := f.core c
  match k.seq.phase, k.group with
  | .fetch b, some g =>
    if k.dbg.frozen then f
    else match (g.blocks[b]?).map fun x => x.validate false with
      | some none =>
        (f.modCore c fun k => { k with seq := { k.seq with resident := (b :: k.seq.resident.filter (· ≠ b)).take 32 } }).startBlock c b
      | bad =>
        let t : Trap :=
          { code := 0x90, slot := k.seq.loader.1, op := k.seq.loader.2, pe := 0xFFFF, addr := (bad.getD none).getD 0, src := .block }
        (f.modCore c fun k => k.atBoundary (some b)).raise c k.seq.serving.isSome t
  | _, _ => f

/-- SEQ_BLOCK_FETCH. -/
def execSeqBlockFetch (core : Nat) (s : State) : Host.Outcome State Fault Refusal :=
  fabricStep (fun f => f.fetchBlock core) s

/-! ### Waits (R193, R194, R197, R207) -/

/-- Whether a wait of a sequencer's instruction is over. -/
def Fabric.waitOver (f : Fabric) (c : Nat) (w : Wait) : Bool :=
  let k := f.core c
  match w with
  | .bar b ph => (k.bar b).phase ≠ ph
  | .count l => k.counts.within l
  | .event m t => f.events c m t ≠ 0
  | _ => false

/-- SEQUENCER_WAIT_END: the waiting instruction completes; an EVWAIT returns its events (R207). -/
def Fabric.waitEnd (f : Fabric) (c : Nat) : Fabric :=
  let k := f.core c
  match k.exec (.seq c) with
  | none => f
  | some e =>
    match e.waits.find? fun w => f.waitOver c w.2 with
    | none => f
    | some (slot, w) =>
      if k.dbg.frozen then f
      else match w, (k.blockOf (.seq c) e).bind fun b => b.instrAt slot with
        | .event m t, some i =>
          let ev := f.events c m t
          f.modCore c fun k =>
            let v : Arrival := .tok ⟨k.eventTok ev, false⟩
            (k.finish (.seq c) slot i v v fNone).clearEvents ev
        | _, _ => f.modCore c fun k => k.modExec (.seq c) fun e => e.mark slot fNone

/-- SEQUENCER_WAIT_END. -/
def execSequencerWaitEnd (core : Nat) (s : State) : Host.Outcome State Fault Refusal :=
  fabricStep (fun f => f.waitEnd core) s

/-! ### Taking a trap (R204, R205, R397) -/

/-- Cause codes whose trap names a lane of a memory access. -/
def laneCode (code : Nat) : Bool :=
  code = 0x0A || code = 0x0B || code = 0x0D || code = 0x30 || code = 0x31 || code = 0x40 || code = 0x60

/-- The cause code that the trap's other registers belong to (R204: HANDLER_FAULT keeps those of the trap it stands for). -/
def Trap.cause0 (t : Trap) : Nat := if t.code = 0xA0 then t.addr % 256 else t.code

/-- Whether the manual gives TRAP_SLOT and TRAP_OP for a trap (log entry 21). -/
def Trap.namesSlot (t : Trap) : Bool := t.cause0 ≠ 0x70 && t.cause0 ≠ 0x11 && t.cause0 ≠ 0x80

/-- Whether the manual gives TRAP_LANE: for a lane of a core's access, and zero for a remote strike (log entry 21). -/
def Trap.namesLane (t : Trap) : Bool :=
  (laneCode t.cause0 && !(match t.src with | .engine => true | _ => false)) || t.conn.isSome

/-- Whether the manual gives TRAP_ADDR: not for the traps of a branch and of a machine check (log entry 21). -/
def Trap.namesAddr (t : Trap) : Bool :=
  t.code = 0xA0 || t.slot = 0xFFFF || !((0x02 ≤ t.code && t.code ≤ 0x06) || t.code = 0x80)

/-- Whether the manual gives TRAP_PE (log entry 21). -/
def Trap.namesPe (t : Trap) : Bool := t.cause0 ≠ 0x11 && t.cause0 ≠ 0x80

/-- TRAP_SLOT's low byte of a trap of the matrix region or of the tier and network queue that is no strike: the manual gives
none (R232; log entry 21). -/
def Trap.slotValue (t : Trap) (free : Row) : Nat :=
  if t.async && t.code ≠ 0x60 && (t.pe = 0xFFFD || t.pe = 0xFFFC) then t.slot / 256 * 256 + free.toNat % 256 else t.slot

/-- The trap registers that a trap writes: number and value; a value that the manual leaves open is free. A stop that no trap makes
has code 0. -/
def Trap.regs (t : Trap) (free : Nat → Row) : List (Nat × Word) :=
  let v (named : Bool) (x n : Nat) : Word := if named then BitVec.ofNat 64 x else (free n).setWidth 64
  [(0x021, v (t.code ≠ 0) t.cause 5), (0x022, v t.namesSlot (t.slotValue (free 0)) 0), (0x023, v t.namesLane t.lane 1),
   (0x024, v t.namesSlot t.op 2), (0x025, v t.namesAddr t.addr 3), (0x026, v t.namesPe t.pe 4)] ++
    (match t.info with | some i => [(0x037, i)] | none => [])

/-- The free values that a step may draw from draw `n` on. -/
def freeFrom (n : Nat) : Nat → Row := fun i => Config.freeValue (n + i)

/-- The handler block's index when HANDLER names one that may be entered (R204). -/
def Core.handler (k : Core) : Option Nat :=
  let h := (sget 0 k.seq.ctl 0x020).toNat
  match k.group with
  | some g => match g.blocks[h % 1024]? with
    | some b => if b.kind = 0 then some (h % 1024) else none
    | none => none
  | none => none

/-- Whether HANDLER.V is set. -/
def Core.handles (k : Core) : Bool := (sget 0 k.seq.ctl 0x020).getLsbD 15

/-- The trap registers written (R204). -/
def Core.setTrapRegs (k : Core) (t : Trap) (free : Nat → Row) : Core := (t.regs free).foldl (fun k p => k.setCtl p.1 p.2) k

/-- A fault met by the push of a trap entry: the sequencer waits before its boundary for the Kiln, or for the page (R399; log entry
68). -/
def Fabric.pushFault (f : Fabric) (c : Nat) (ret : Option Nat) (code va : Nat) : Fabric :=
  f.modCore c fun k =>
    let k := { k with seq := { k.seq with phase := .kiln ret } }
    if code = 0x40 then k.tierMiss (k.pageBase va) false .seq
    else { k with faults := k.faults ++ [{ trap := { code := code, slot := 0xFFFF, pe := 0xFFFF, addr := va, src := .block }, push := true }] }

/-- A user trap taken at a block boundary (R204): the trap registers are written, a trap entry with the return point is
pushed, and the handler block is entered; without a handler the region stops with the trap still pending. A trap that names no
handler block is a HANDLER_FAULT, which the trap registers then hold. A push that meets a fault is the Kiln's first, and the trap
waits (R399). -/
def Fabric.takeTrap (f : Fabric) (mem : Memory) (c : Nat) (t : Trap) (ret : Option Nat) (free : Nat → Row) :
    Memory × Fabric :=
  let k := f.core c
  let kept := f.modCore c fun k => { k with seq := { k.seq with pending := t :: k.seq.pending } }
  if !k.handles then (mem, kept.stopRegion c t)
  else match k.handler with
    | none => (mem, (kept.modCore c fun k => k.setTrapRegs t.handlerFault free).stopRegion c t.handlerFault)
    | some h =>
      match f.push mem c ⟨true, ret⟩ with
      | .error (code, va) => (mem, kept.pushFault c ret code va)
      | .ok (mem, f) =>
        let f := f.modCore c fun k =>
          let k := (k.setTrapRegs t free).loadedBy (0xFFFF, 0)
          { k with seq := { k.seq with serving := some t } }
        let reg := (f.core c).regionId
        let f := t.dead.foldl (fun f q => f.modMember reg q.1 fun k => k.modActor q.2 fun x => { x with deadHeld := true }) f
        (mem, f.enterBlock c h)

/-- TRAP_DELIVERY: the first pending trap, while no trap entry is on the stack (R205). -/
def Fabric.deliverTrap (f : Fabric) (mem : Memory) (c : Nat) (free : Nat → Row) : Memory × Fabric :=
  let k := f.core c
  match k.seq.phase, k.seq.serving, k.seq.pending with
  | .boundary ret, none, t :: rest =>
    if k.dbg.frozen then (mem, f)
    else (f.modCore c fun k => { k with seq := { k.seq with pending := rest } }).takeTrap mem c t ret free
  | _, _, _ => (mem, f)

/-- TRAP_DELIVERY. -/
def execTrapDelivery (core : Nat) (s : State) : Host.Outcome State Fault Refusal :=
  let q := s.fab.deliverTrap s.mem core (freeFrom s.run.free)
  .next { s with mem := q.1, fab := q.2, run := { s.run with free := s.run.free + 6 } }

end Sys2Proof.Machine
end

