-- ==== Sys2Proof/Machine/Tiers.lean ====
section
/-!
DEFINITION. Translations at work: the die walker (R289, R294), entries dropped (R267, R295), the side table (R297), pages moved
between HBM and the peat tier (R261, R262), tier misses resolved (R298, R299), and the Kiln's part in faults (R399).
-/

namespace Sys2Proof.Machine

/-! ### Entries dropped (R295, R297) -/

/-- The counts of translations added to the side tables of their contexts. -/
def Fabric.flushAll (f : Fabric) (mem : Memory) (l : List Trans) : Memory :=
  l.foldl (fun m t => m.addCounts (f.context t.ctx) t) mem

/-- The entries of a core that a test selects: those of its cache and of its generators. -/
def Core.entries (k : Core) (p : Trans → Bool) : List Trans :=
  k.tlb.filter p ++ k.eng.gens.filterMap fun q => match q.2.entry with | some t => if p t then some t else none | none => none

/-- The core without the entries that a test selects. -/
def Core.dropEntries (k : Core) (p : Trans → Bool) : Core :=
  let off (y : Gen) : Gen := if y.entry.any p then { y with entry := none } else y
  { k with
    tlb := k.tlb.filter fun t => !p t
    eng := { k.eng with gens := k.eng.gens.map fun q => (q.1, off q.2) } }

/-- Entries dropped in the cores that `who` selects, their counts added to the side table. -/
def Fabric.dropWhere (f : Fabric) (mem : Memory) (who : Nat → Bool) (p : Trans → Bool) : Memory × Fabric :=
  let here := f.cores.filter fun q => who q.1
  let old := here.flatMap fun q => q.2.entries p
  (f.flushAll mem old,
   { f with cores := f.cores.map fun q => if who q.1 then (q.1, q.2.dropEntries p) else q })

/-- Every entry of a page of a context dropped throughout the module. -/
def Fabric.dropPage (f : Fabric) (mem : Memory) (ctx page size : Nat) : Memory × Fabric :=
  f.dropWhere mem (fun _ => true) fun t => t.ctx = ctx && t.va < page + size && page < t.va + t.size

/-- The side table's counters raised by the counts gathered in an entry, which are then zero: `n` numbers the entries of the
core's cache, and from 64 on its generators' (R297). -/
def Fabric.flushEntry (f : Fabric) (mem : Memory) (c n : Nat) : Memory × Fabric :=
  let k := f.core c
  let zero (t : Trans) : Trans := { t with reads := 0, writes := 0, remote := 0 }
  if n < 64 then
    match k.tlb[n]? with
    | some t =>
      (mem.addCounts (f.context t.ctx) t, f.modCore c fun k => { k with tlb := k.tlb.set n (zero t) })
    | none => (mem, f)
  else
    match (k.gen (n - 64)).entry with
    | some t =>
      (mem.addCounts (f.context t.ctx) t,
       f.modCore c fun k => k.modGen (n - 64) fun y => { y with entry := some (zero t) })
    | none => (mem, f)

/-- SIDE_COUNTER_FLUSH. -/
def execSideCounterFlush (core n : Nat) (s : State) : Host.Outcome State Fault Refusal :=
  memStep (fun m f => f.flushEntry m core n) s

/-! ### The walker (R289, R294) -/

/-- A translation entered in a core's cache; the counts of the entry it evicts go to the side table. -/
def Fabric.enterTrans (f : Fabric) (mem : Memory) (c : Nat) (t : Trans) : Memory × Fabric :=
  let e := (f.core c).enter t
  (match e.2 with | some old => mem.addCounts (f.context old.ctx) old | none => mem, f.modCore c fun _ => e.1)

/-- A request taken on after a walk. -/
def Fabric.resumeReq (f : Fabric) (r : Req) (i : Instr) (e : Exec) : Fabric :=
  if r.kind = .eager then f.eagerAdvance r i e else f.advance r i e

/-- PAGE_WALK of a request: the first lane without a translation is walked; a translation fault is found there, and the request
goes on. The fault of an eager atomic's page is raised once the lanes of the pages before it are applied (R188). A request of an
aborted block asks nothing more. -/
def Fabric.walkReq (f : Fabric) (mem : Memory) (id : Nat) : Memory × Fabric :=
  match f.req id with
  | none => (mem, f)
  | some r =>
    let c := r.who.core
    let k := f.core c
    match f.issuer r with
    | none => if r.lanes.all fun l => l.pa.isSome then (mem, f) else (mem, f.closeReq r)
    | some e =>
      match (k.blockOf r.who e).bind fun b => b.instrAt r.slot, r.lanes.find? fun l => l.pa.isNone && !l.bad with
      | some i, some l =>
        let f' := f.endWalk (dieOf c) (.req id)
        if k.dbg.frozen || !e.inflight.contains r.slot then (mem, f)
        else if l.early.isSome || (k.cached k.contextId l.va).isSome then (mem, f'.resumeReq r i e)
        else if !f.walkStarted (dieOf c) (.req id) then (mem, f)
        else match translate mem (f.context k.contextId) k.contextId l.va with
          | .ok t =>
            let q := f'.enterTrans mem c t
            (q.1, q.2.resumeReq r i e)
          | .error code =>
            let f := f'
            let r' := { r with lanes := r.lanes.map fun x => if x.idx = l.idx then { x with early := some (code, l.va, []) } else x }
            (mem, (f.putReq r').resumeReq r' i e)
      | some i, none =>
        if r.kind = .eager && r.faultingLane.isSome && e.inflight.contains r.slot && !k.dbg.frozen then (mem, f.resumeReq r i e)
        else (mem, f)
      | none, _ => (mem, f)

/-- PAGE_WALK of a generator: the entry of its stream refilled for the line that it needs next; a translation fault parks it
(R48, R259). A walk that finds 16 in flight is asked for and waits its turn (R294). -/
def Fabric.walkGen (f : Fabric) (mem : Memory) (c i : Nat) : Memory × Fabric :=
  let k := f.core c
  let y := k.gen i
  match y.cur with
  | none => (mem, f)
  | some q =>
    match k.nextLine { y with entry := none } q with
    | none => (mem, f)
    | some va =>
      if !k.genRuns y || y.entry.any fun t => t.covers k.contextId va then (mem, f)
      else if !(f.askWalk (dieOf c) (.gen c i)).walkStarted (dieOf c) (.gen c i) then (mem, f.askWalk (dieOf c) (.gen c i))
      else
        let f := f.endWalk (dieOf c) (.gen c i)
        let mem := f.flushAll mem y.entry.toList
        match translate mem (f.context k.contextId) k.contextId va with
        | .ok t => (mem, f.modCore c fun k => k.modGen i fun y => { y with entry := some t })
        | .error code =>
          (mem, (f.modCore c fun k => k.modGen i fun y => { y with entry := none }).parkGen c i q code va (va / 65536 * 65536))

/-- PAGE_WALK. -/
def execPageWalk (w : Walk) (s : State) : Host.Outcome State Fault Refusal :=
  match w with
  | .req id => memStep (fun m f => f.walkReq m id) s
  | .gen core i => memStep (fun m f => f.walkGen m core i) s

/-! ### Misses resolved (R261, R298, R299) -/

/-- A source of a tier miss let go on: a generator repeats its access, an actor may be a candidate, a block runs again. -/
def Core.retry (k : Core) (x : MissSrc) : Core :=
  match x with
  | .gen i => k.modGen i fun y => if y.park.any (·.tier) then { y with park := none } else y
  | .actor a => k.modActor a fun y => { y with missPage := none }
  | .seq =>
    { k with seq := { k.seq with phase := match k.seq.phase with | .kiln b => .boundary b | p => p } }

/-- The misses of a page of a core removed, their sources resumed. -/
def Core.settlePage (k : Core) (page size : Nat) : Core :=
  let here (m : Miss) : Bool := page ≤ m.page && m.page < page + size
  let srcs := ((k.misses ++ k.missWait).filter here).flatMap (·.srcs)
  srcs.foldl Core.retry
    { k with misses := k.misses.filter fun m => !here m, missWait := k.missWait.filter fun m => !here m }

/-- The misses of a page of a context removed in every core of the context. -/
def Fabric.settlePage (f : Fabric) (ctx page size : Nat) : Fabric :=
  { f with cores := f.cores.map fun q => if q.2.contextId = ctx then (q.1, q.2.settlePage page size) else q }

/-- TIER_ENTRY_FREE (R299): while an entry is free, the miss that has waited longest retries its sources. -/
def Core.missFree (k : Core) : Core :=
  match k.missWait with
  | m :: r => if k.misses.length < 32 && !k.dbg.frozen then m.srcs.foldl Core.retry { k with missWait := r } else k
  | [] => k

/-- TIER_ENTRY_FREE. -/
def execTierEntryFree (core : Nat) (s : State) : Host.Outcome State Fault Refusal :=
  fabricStep (fun f => f.modCore core Core.missFree) s

/-! ### Frames of HBM (R280) -/

/-- What is left of a run of granules when `n` granules from `lo` are taken out. -/
def cutRun (lo n : Nat) (e : Nat × Nat) : List (Nat × Nat) :=
  (if e.1 < lo then [(e.1, min e.2 (lo - e.1))] else []) ++
    (if lo + n < e.1 + e.2 then [(max e.1 (lo + n), e.1 + e.2 - max e.1 (lo + n))] else [])

/-- Granules of HBM. -/
def hbmGranules : Nat := 25165824

/-- Whether `n` granules from `lo` lie in HBM and are free. -/
def Units.freeAt (u : Units) (lo n : Nat) : Bool :=
  lo + n ≤ hbmGranules && u.frames.all fun p => p.1 + p.2 ≤ lo || lo + n ≤ p.1

/-- Whether some run of `n` granules, aligned to `al`, is free. -/
def Units.hasRun (u : Units) (n al : Nat) : Bool :=
  (0 :: u.frames.map fun p => (p.1 + p.2 + al - 1) / al * al).any fun o => u.freeAt o n

/-- Granules of HBM that are free. -/
def Units.freeCount (u : Units) : Nat := hbmGranules - (u.frames.map Prod.snd).sum

/-- A run of granules put to use. -/
def Units.take (u : Units) (lo n : Nat) : Units := { u with frames := u.frames ++ if n = 0 then [] else [(lo, n)] }

/-- Granules put to use that return one by one, where each of them is free; none where one is not. -/
def Units.takeEach (u : Units) : List Nat → Option Units
  | [] => some u
  | g :: r => if u.freeAt g 1 then (u.take g 1).takeEach r else none

/-- Granules returned to free HBM. -/
def Units.give (u : Units) (lo n : Nat) : Units := { u with frames := u.frames.flatMap (cutRun lo n) }

/-! ### Pages moved (R261, R262, R290) -/

/-- `n` bytes copied from one place to another that it does not overlap, poison with them. -/
def Memory.copy (m : Memory) (src dst n : Nat) : Memory :=
  let part := (m.cells.filter fun c => src ≤ c.1 && c.1 < src + n).map fun c => (c.1 - src + dst, c.2)
  let marks := (m.poison.filter fun l => lineOf src ≤ l && l < lineOf (src + n)).map fun l => l - lineOf src + lineOf dst
  { m with
    cells := m.cells.filter (fun c => c.1 < dst) ++ part ++ m.cells.filter (fun c => dst + n ≤ c.1)
    poison := m.poison.filter (fun l => !(lineOf dst ≤ l && l < lineOf (dst + n))) ++ marks }

/-- A leaf entry with its TIER bit and frame changed. -/
def retier (e : Nat) (tier : Bool) (frame : Nat) : Nat :=
  e - field e 51 16 * 65536 - (if bitOf e 4 then 16 else 0) + frame / 65536 * 65536 + (if tier then 16 else 0)

/-- Bytes set to zero, and their poison with them (R290, R447). -/
def Memory.scrub (m : Memory) (a n : Nat) : Memory :=
  { m with
    cells := m.cells.filter fun c => !(a ≤ c.1 && c.1 < a + n)
    poison := m.poison.filter fun l => !(lineOf a ≤ l && l < lineOf (a + n)) }

/-- The frame tags of a page's granules written as its mapping asks (R290). -/
def Memory.setTags (m : Memory) (ctx frame size e : Nat) : Memory :=
  let t : FrameTag := ⟨bitOf e 8, bitOf e 5, if bitOf e 5 then ctx else 0⟩
  { m with tags := (List.range (size / 65536)).foldl (fun s i => sput {} s (granuleOf frame + i) t) m.tags }

/-- The port of the expander that holds an address of the peat window: the expanders lie behind one another (log entry 35). -/
def portOf : List Nat → Nat → Option Nat
  | [], _ => none
  | n :: r, g => if g < n then some 0 else (portOf r (g - n)).map (· + 1)

/-- Whether the expander that holds an address of the peat window has failed (R441). -/
def Units.failedAt (u : Units) (a : Nat) : Bool :=
  match portOf u.expanders ((a - 0x8000000000000) / 65536) with | some p => u.failed.contains p | none => false

/-- The address in the peat window between which and HBM a page is moved. -/
def Transit.peatAt (t : Transit) (mem : Memory) : Nat := if t.inward then field (mem.readNat t.leaf 8) 51 16 * 65536 else t.frame

/-- A page of the tier brought into a frame: copied, its mapping rewritten at one instant, every translation of it dropped, its
pending misses removed, its peat copy freed (R261). -/
def Fabric.pageIn (f : Fabric) (mem : Memory) (ctx page size leaf frame : Nat) : Memory × Fabric :=
  let e := mem.readNat leaf 8
  let peat := field e 51 16 * 65536
  let mem := (mem.copy peat frame size).writeNat leaf 8 (retier e false frame)
  let mem := mem.setTags ctx frame size e
  let q := f.dropPage mem ctx page size
  let f := (q.2.settlePage ctx page size).modUnits fun u =>
    { u with peat := u.peat.filter fun p => 0x8000000000000 + p.1 * 65536 ≠ peat }
  (q.1, f)

/-- The page moves for one page, in the order in which they were asked for. -/
def Fabric.moves (f : Fabric) (ctx page : Nat) : List Transit :=
  f.units.transits.filter fun t => t.ctx = ctx && t.page = page

/-- The commands of an opcode for a page removed from every core of a context, CP falling for each. -/
def Fabric.endMoves (f : Fabric) (ctx op page : Nat) : Fabric :=
  let mine (n : NetCmd) : Bool := n.op = op && elem 64 n.a 0 = page
  let off (k : Core) : Core :=
    let n := (k.eng.net.filter mine).length
    { k with
      eng := { k.eng with net := k.eng.net.filter fun n => !mine n }
      counts := { k.counts with cp := k.counts.cp - n } }
  { f with cores := f.cores.map fun q => if q.2.contextId = ctx then (q.1, off q.2) else q }

/-- Whether a TIN or TOUT of a page has been started by the queue of a core. -/
def Fabric.moveRuns (f : Fabric) (ctx op page : Nat) : Bool :=
  f.cores.any fun q => q.2.contextId = ctx && !q.2.dbg.frozen &&
    q.2.eng.net.any fun n => n.running && n.op = op && elem 64 n.a 0 = page

/-- TIN_COMPLETE (R261): the first move asked for of the page is this TIN. A page that has come meanwhile needs none. -/
def Fabric.tinDone (f : Fabric) (mem : Memory) (ctx page : Nat) : Memory × Fabric :=
  match f.moves ctx page with
  | t :: _ =>
    if !t.inward || !f.moveRuns ctx 0x351 page || f.units.failedAt (t.peatAt mem) then (mem, f)
    else
      let f := f.modUnits fun u => { u with transits := u.transits.erase t }
      let q := (f.progress t.region).pageIn mem ctx page t.size t.leaf t.frame
      (q.1, q.2.endMoves ctx 0x351 page)
  | [] => (mem, f)

/-- TIN_COMPLETE. -/
def execTinComplete (ctx page : Nat) (s : State) : Host.Outcome State Fault Refusal :=
  memStep (fun m f => f.tinDone m ctx page) s

/-- TOUT_COMPLETE (R262): the copy is complete, the mapping is set to TIER, the frame returns to the pool, scrubbed when it leaves a
sealed context (R290). -/
def Fabric.toutDone (f : Fabric) (mem : Memory) (ctx page : Nat) : Memory × Fabric :=
  match f.moves ctx page with
  | t :: _ =>
    if t.inward || !f.moveRuns ctx 0x352 page || f.units.failedAt (t.peatAt mem) then (mem, f)
    else
      let e := mem.readNat t.leaf 8
      let frame := field e 51 16 * 65536
      let mem := (mem.copy frame t.frame t.size).writeNat t.leaf 8 (retier e true t.frame)
      let mem := if bitOf e 5 then mem.scrub frame t.size else mem
      let f := f.modUnits fun u => { u with transits := u.transits.erase t }
      let f := f.modRegion t.region fun r =>
        { r with pool := r.pool ++ (List.range (t.size / 65536)).map fun i => granuleOf frame + i }
      let q := (f.progress t.region).dropPage mem ctx page t.size
      (q.1, q.2.endMoves ctx 0x352 page)
  | [] => (mem, f)

/-- TOUT_COMPLETE. -/
def execToutComplete (ctx page : Nat) (s : State) : Host.Outcome State Fault Refusal :=
  memStep (fun m f => f.toutDone m ctx page) s

/-- KILN_PAGE_IN (Table 9-8): a missed page that is not left to the sequencer is paged in with frames of its region's pool, and
its sources go on. -/
def Fabric.kilnPageIn (f : Fabric) (mem : Memory) (ctx page : Nat) : Memory × Fabric :=
  let miss := f.cores.find? fun q => q.2.contextId = ctx && q.2.misses.any fun m => m.page = page && !m.delegated
  match miss, translate mem (f.context ctx) ctx page with
  | some q, .ok t =>
    let reg := q.2.regionId
    if !bitOf t.attr 4 then
      if f.inTransit ctx page then (mem, f) else (mem, f.settlePage ctx t.va t.size)
    else if f.inTransit ctx page || f.units.failedAt t.pa then (mem, f)
    else match poolRun (f.region reg).pool (t.size / 65536) with
      | none => (mem, f)
      | some g =>
        let f := f.modRegion reg fun r => { r with pool := r.pool.filter fun y => !(g ≤ y && y < g + t.size / 65536) }
        f.pageIn mem ctx t.va t.size t.leaf (g * 65536)
  | _, _ => (mem, f)

/-- KILN_PAGE_IN. -/
def execKilnPageIn (ctx page : Nat) (s : State) : Host.Outcome State Fault Refusal :=
  memStep (fun m f => f.kilnPageIn m ctx page) s

/-! ### Faults with the Kiln (R259, R399) -/

/-- The entry at which the walk of an address ends, from a table of level `l + 1`: its level and address. -/
def walkEnd (m : Memory) (va : Nat) : Nat → Nat → Option (Nat × Nat)
  | 0, _ => none
  | l + 1, table =>
    let p := table + 8 * indexAt (l + 1) va
    let e := m.readNat p 8
    if !bitOf e 0 || bitOf e 1 || l = 0 then some (l + 1, p) else walkEnd m va l (field e 51 8 * 256)

/-- What goes on once the Kiln has corrected a fault: the parked generator, the actor or its pinned firing, or the block. -/
def Core.faultEnd (k : Core) (x : KilnFault) : Core :=
  match x.gen, x.actor with
  | some i, _ => k.modGen i fun y => { y with park := none }
  | none, some a => (k.modActor a fun y => { y with trapHeld := false }).resumePinned a .rft none
  | none, none => k.retry .seq

/-- A leaf entry written by the Kiln: a frame that passes from free HBM into the mapping is in use from then on, and its tags are
written; one already mapped keeps its tags (R290). -/
def Fabric.mapFrame (f : Fabric) (mem : Memory) (ctx level p leaf : Nat) : Memory × Fabric :=
  let n := pageBytes level
  let lo := granuleOf (field leaf 51 16 * 65536)
  let mem := mem.writeNat p 8 leaf
  if bitOf leaf 0 && bitOf leaf 1 && !bitOf leaf 4 && f.units.freeAt lo (n / 65536) then
    (mem.setTags ctx (lo * 65536) n leaf, f.modUnits fun u => u.take lo (n / 65536))
  else (mem, f)

/-- KILN_FAULT_RESOLVE (R399): the Kiln corrects the mapping, writing the entry at which the walk ends, drops the page's
translations and lets the source go on; or it passes the fault on to the handler. -/
def Fabric.kilnResolve (f : Fabric) (mem : Memory) (c : Nat) (fix : Bool) (leaf : BitVec 64) : Memory × Fabric :=
  let k := f.core c
  match k.faults with
  | [] => (mem, f)
  | x :: r =>
    let f := f.modCore c fun k => { k with faults := r }
    if fix then
      match walkEnd mem x.trap.addr 4 (f.context k.contextId).root with
      | some (l, p) =>
        let n := pageBytes l
        let q := f.mapFrame mem k.contextId l p leaf.toNat
        let q := q.2.dropPage q.1 k.contextId (x.trap.addr / n * n) n
        (q.1, q.2.modCore c fun k => k.faultEnd x)
      | none => (mem, f.modCore c fun k => k.faultEnd x)
    else if x.push then
      (mem, match k.seq.pending with
        | t :: _ => (f.modCore c fun k => k.retry .seq).stopRegion c t.handlerFault
        | [] => f.modCore c fun k => k.retry .seq)
    else if x.gen.isSome || x.actor.isSome then (mem, f.postTrap c x.trap)
    else (mem, (f.modCore c fun k => k.retry .seq).postTrap c x.trap)

/-- KILN_FAULT_RESOLVE. -/
def execKilnFaultResolve (core : Nat) (fix : Bool) (leaf : BitVec 64) (s : State) : Host.Outcome State Fault Refusal :=
  memStep (fun m f => f.kilnResolve m core fix leaf) s

end Sys2Proof.Machine
end

