-- ==== Sys2Proof/Machine/Launch.lean ====
section
/-!
DEFINITION. Launches: command and completion windows (R442, R444), the launch message (R443), the graph image (R303 to
R305), the Kiln's checks (R301, R302) and the bind records (R306).
-/

namespace Sys2Proof.Machine

/-! ### The windows of a context (R442) -/

/-- Whether the Kiln takes messages: in reduced or full service (R2, R448). -/
def Units.serves (u : Units) : Bool := u.service = .reduced || u.service = .full

/-- Whether a context is open. -/
def Fabric.isOpen (f : Fabric) (ctx : Nat) : Bool := shas f.units.contexts ctx

/-- COMMAND_WINDOW_WRITE: the next row, or nothing when the window is full. `auth` tells that the connection is one opened for
the context; one of context 0 needs the administrator's proof once a key is enrolled (R441, R445). -/
def Fabric.commandWrite (f : Fabric) (ctx : Nat) (row : Row) (auth : Bool) : Fabric :=
  let x := f.context ctx
  let may := auth && (ctx ≠ 0 || f.units.admin.isNone || f.units.adminOpen)
  if f.units.serves && f.isOpen ctx && may && x.cmd.length < x.cmdCap then
    f.modContext ctx fun x => { x with cmd := x.cmd ++ [row] }
  else f

/-- COMMAND_WINDOW_WRITE. -/
def execCommandWindowWrite (ctx : Nat) (row : BitVec 512) (auth : Bool) (s : State) : Host.Outcome State Fault Refusal :=
  fabricStep (fun f => f.commandWrite ctx row auth) s

/-- COMPLETION_RECORD_FILL (R444): the record held longest fills the completion window's next row, once it has room. -/
def Context.fillRecord (x : Context) : Context :=
  match x.cplHeld with
  | r :: rest => if x.cpl.length < x.cplCap then { x with cpl := x.cpl ++ [r], cplHeld := rest } else x
  | [] => x

/-- COMPLETION_RECORD_FILL. -/
def execCompletionRecordFill (ctx : Nat) (s : State) : Host.Outcome State Fault Refusal :=
  fabricStep (fun f => if f.isOpen ctx then f.modContext ctx Context.fillRecord else f) s

/-- COMPLETION_SHRINK (R442): a shrink larger than F changes nothing. -/
def Context.shrinkRecords (x : Context) (n : Nat) : Context :=
  if n ≤ x.cpl.length then { x with cpl := x.cpl.drop n } else x

/-- COMPLETION_SHRINK. -/
def execCompletionShrink (ctx n : Nat) (s : State) : Host.Outcome State Fault Refusal :=
  fabricStep (fun f => if f.isOpen ctx then f.modContext ctx fun x => x.shrinkRecords n else f) s

/-! ### Reading through a context's pages -/

/-- `n` bytes from a virtual address of a context, page by page (at most `fuel` pages); none when some lie in no page. -/
def Fabric.readVa (f : Fabric) (mem : Memory) (ctx : Nat) : Nat → Nat → Nat → Option (List Byte)
  | 0, _, n => if n = 0 then some [] else none
  | fuel + 1, va, n =>
    if n = 0 then some []
    else if 2 ^ 56 ≤ va then none
    else match translate mem (f.context ctx) ctx va with
      | .error _ => none
      | .ok t =>
        let k := min n (t.va + t.size - va)
        (f.readVa mem ctx fuel (va + k) (n - k)).map fun r => mem.read (t.phys va) k ++ r

/-- `n` bytes of a context's memory. -/
def Fabric.bytesAt (f : Fabric) (mem : Memory) (ctx va n : Nat) : Option (List Byte) :=
  f.readVa mem ctx (n / 65536 + 2) va n

/-! ### The graph image (R303, R304) -/

/-- The number in bytes `lo … lo + n - 1` of an image. -/
def imageNat (img : List Byte) (lo n : Nat) : Nat := bytesNat ((img.drop lo).take n)

/-- The header row of an image (Table 10-2). -/
def imageHead (img : List Byte) : Nat := imageNat img 0 64

/-- The directory entries of an image (Table 10-3), in directory order. -/
def imageDir (img : List Byte) : List Nat :=
  (List.range (field (imageHead img) 63 48)).map fun g => imageNat img (64 + 32 * g) 32

/-- One block image taken from the front of a byte list (R99). -/
def parseBlock (l : List Byte) : Option (Block × List Byte) :=
  if l.length < 16 then none
  else
    let hdr := BitVec.ofNat 128 (bytesNat (l.take 16))
    let n := field hdr.toNat 16 10 + 1
    let body := l.drop 16
    if body.length < 8 * n then none
    else some (⟨hdr, (List.range n).map fun i => BitVec.ofNat 64 (imageNat body (8 * i) 8)⟩, body.drop (8 * n))

/-- `n` block images back to back (R304). -/
def parseBlocks : Nat → List Byte → Option (List Block)
  | 0, _ => some []
  | n + 1, l => (parseBlock l).bind fun p => (parseBlocks n p.2).map fun r => p.1 :: r

/-- The block section of a group; none when it ends before its last block does (R99, R303). -/
def groupBlocks (img : List Byte) (e : Nat) : Option (List Block) :=
  let ofs := field e 95 64
  if ofs = 0 then none else parseBlocks (field e 47 32) (img.drop (64 * ofs))

/-- The windows' initial rows: a record row with the window and the row count, then the rows (R304). -/
def initRows : Nat → List Row → List (Nat × List Row)
  | 0, _ => []
  | _, [] => []
  | fuel + 1, r :: rest =>
    let n := field r.toNat 31 16
    (field r.toNat 7 0, rest.take n) :: initRows fuel (rest.drop n)

/-- The initial-row section of a group (R304). -/
def groupRows (img : List Byte) (e : Nat) : List (Nat × List Row) :=
  let n := field e 159 128
  let ofs := field e 127 96
  if ofs = 0 then []
  else initRows n ((List.range n).map fun i => ofBytes ((img.drop (64 * (ofs + i))).take 64))

/-- Whether a directory entry keeps Table 10-3 and its initial-row section lies inside the image. -/
def entryOk (len : Nat) (ganged : Bool) (e : Nat) : Bool :=
  field e 231 226 = 0 && field e 211 160 = 0 && field e 63 48 = 0 && field e 31 24 = 0 && field e 255 240 ≤ 4096 &&
    1 ≤ field e 47 32 && field e 47 32 ≤ 1024 && (ganged || field e 239 232 = 0) &&
    (field e 127 96 = 0 || field e 127 96 + field e 159 128 ≤ len)

/-- Whether an image keeps R303. -/
def imageOk (img : List Byte) (ganged : Bool) : Bool :=
  let h := imageHead img
  let len := field h 95 64
  let dir := imageDir img
  field h 31 0 = 0x475200B7 && field h 47 32 = 1 && field h 511 160 = 0 && 1 ≤ field h 63 48 &&
    64 + 32 * dir.length ≤ 64 * len && dir.all (entryOk len ganged) && (dir.map fun e => field e 15 0).Nodup &&
    dir.all (fun e => (groupBlocks img e).isSome) && crc32c (img.drop 64) = field h 127 96

/-- The first block of an image that fails validation: its index in its group and the TRAP_ADDR value of R116. -/
def imageBlockFail (img : List Byte) : Option (Nat × Nat) :=
  (imageDir img).findSome? fun e =>
    let bs := (groupBlocks img e).getD []
    (List.range bs.length).findSome? fun i =>
      bs[i]?.bind fun b => (b.validate (b.kind = 1)).map fun a => (i, a)

/-- Granules for a number of bytes. -/
def granules (n : Nat) : Nat := (n + 65535) / 65536

/-! ### The layout of routes (R217, R343, R410) -/

/-- The ends of routes that the blocks of an image attach: route, whether inbound, and the directory entry of the group. -/
def routeEnds (img : List Byte) : List (Nat × Bool × Nat) :=
  (imageDir img).flatMap fun e => ((groupBlocks img e).getD []).flatMap fun b => b.instrs.filterMap fun s =>
    match s.2 with
    | .croute m => some (m.obj.toNat, bitOf m.arg.toNat 0, e)
    | _ => none

/-- The routes that have both ends. -/
def joinedRoutes (ends : List (Nat × Bool × Nat)) : List Nat :=
  ((ends.filter fun q => !q.2.1 && ends.any fun r => r.1 = q.1 && r.2.1).map Prod.fst).eraseDups

/-- The site of the core that a directory entry names; a group for any core of its die has none yet (R306). -/
def Fabric.targetAt (f : Fabric) (e : Nat) : Option Nat :=
  if field e 223 216 < 128 then some (f.coreAt (field e 215 213 * 128 + field e 223 216)) else none

/-- The sites that a path joins, when it leads from a group with the route's outbound end to one with its inbound end. -/
def Fabric.joins (f : Fabric) (ends : List (Nat × Bool × Nat)) (p : RoutePath) : Option (Nat × Nat) :=
  let sites (inb : Bool) : List Nat := ends.filterMap fun q => if q.1 = p.route && q.2.1 = inb then f.targetAt q.2.2 else none
  (sites false).findSome? fun s => (pathEnd s p.hops).bind fun t => if (sites true).contains t then some (s, t) else none

/-- The edges of a graph without those from nodes that none leads to, as often as given: what is left lies on or behind a cycle. -/
def peelGraph : Nat → List (Nat × Nat) → List (Nat × Nat)
  | 0, l => l
  | n + 1, l => peelGraph n (l.filter fun q => l.any fun p => p.2 = q.1)

/-- Whether paths lay every route of an image: one for each, from core to core, on tracks and lanes of their own, with at least one
back edge marked in each cycle of cores (log entry 71). -/
def Fabric.laysAll (f : Fabric) (img : List Byte) (paths : List RoutePath) : Bool :=
  let ends := routeEnds img
  let edges := (paths.filter fun p => !p.back).filterMap (f.joins ends)
  (joinedRoutes ends).all (fun r => paths.any fun p => p.route = r) && (paths.all fun p => (f.joins ends p).isSome) &&
    f.units.mayLay 0 paths && peelGraph edges.length edges = []

/-! ### The launch (R301, R302) -/

/-- A refused launch: code, value and block of its completion record (Table 21-2). -/
structure Refused where
  code : Nat
  value : Nat := 0
  block : Nat := 0
  deriving DecidableEq, Repr

/-- Whether a launch message keeps the map of Table 21-1. -/
def messageOk (m : Nat) : Bool :=
  let snap := field m 61 56
  let dlog := field m 55 51
  field m 31 0 = 0x4C4100B7 && field m 511 448 = 0 && field m 415 364 = 0 && field m 255 248 = 0 && field m 191 184 = 0 &&
    field m 127 120 = 0 && field m 63 62 = 0 && (snap = 0 || (20 ≤ snap && snap ≤ 40)) &&
    (dlog = 0 || (10 ≤ dlog && dlog ≤ 30)) && 1 ≤ field m 271 256

/-- The trailer of a sealed context's image (R304): the tenant's public key and the signature over the image. -/
def Fabric.signed (f : Fabric) (mem : Memory) (ctx va : Nat) (img : List Byte) (ofs : Nat) : Option Bool :=
  (f.bytesAt mem ctx (va + ofs) (64 + 29792)).map fun t =>
    (Config.shake256 (t.take 64)).setWidth 256 = (f.context ctx).build && Config.slhVerify (t.take 64) img (t.drop 64)

/-- Whether a target core is enabled: the named one, or for 0xFF some core of the die (R301). -/
def Units.targetOk (u : Units) (e : Nat) : Bool :=
  let die := field e 215 213
  let core := field e 223 216
  if core = 255 then u.enabled.any fun c => dieOf c = die else core < 128 && u.enabled.contains (die * 128 + core)

/-- Whether a target lies in die 0, cores 0 to 31 (R2, R301). -/
def reducedTarget (e : Nat) : Bool := field e 215 213 = 0 && (field e 223 216 < 32 || field e 223 216 = 255)

/-- Whether the slices of a ganged launch are its gang's (R320). -/
def Units.slicesOk (u : Units) (gang : Nat) (dir : List Nat) : Bool :=
  gang = 0 ||
    (let g := (sget 0 u.gangs gang).toNat
     bitOf g 0 && dir.all fun e => field e 239 232 < field g 15 8)

/-- A check of R301 that fails with a code. -/
def refuseIf (c : Bool) (code : Nat) : Except Refused Unit := if c then .error { code := code } else .ok ()

/-- Steps 1 to 4 of R301 for the message at the head of a context's window: the image to be copied, or the refusal. -/
def Fabric.checkImage (f : Fabric) (mem : Memory) (ctx m : Nat) : Except Refused (List Byte) := do
  let x := f.context ctx
  let va := field m 119 64
  refuseIf (field m 47 32 ≠ ctx) 0x80
  let head ← match f.bytesAt mem ctx va 64 with | some h => .ok h | none => .error { code := 0x80 }
  let h := imageHead head
  let img ← match f.bytesAt mem ctx va (64 * max 1 (field h 95 64)) with | some l => .ok l | none => .error { code := 0x80 }
  let signed := if x.isSealed && field h 159 128 ≠ 0 then f.signed mem ctx va img (field h 159 128) else some false
  refuseIf signed.isNone 0x80
  refuseIf (f.units.service = .reduced && !bitOf m 48) 0x81
  refuseIf (x.isSealed && signed ≠ some true) 0x82
  refuseIf (!f.units.hasRun (granules img.length) 1) 0x85
  return img

/-- Steps 5 and 6 of R301. `laid` tells that the Kiln finds paths for every route (R343). -/
def Units.checkLaunch (u : Units) (m : Nat) (img : List Byte) (laid : Bool) : Except Refused Unit := do
  refuseIf (!messageOk m) 0x83
  refuseIf (!imageOk img (field m 363 352 ≠ 0)) 0x83
  match imageBlockFail img with
  | some (i, a) => throw { code := 0x84, value := a, block := i }
  | none => pure ()
  let dir := imageDir img
  refuseIf (u.service = .reduced && !dir.all reducedTarget) 0x81
  refuseIf (4096 < dir.length || !dir.all u.targetOk || field m 447 416 < 128 * dir.length + 1024 ||
    !u.slicesOk (field m 363 352) dir || u.freeCount < granules img.length + field m 287 272 ||
    (!laid && joinedRoutes (routeEnds img) ≠ [])) 0x85

/-- The slot-table indices whose record has V = 0 (R306). -/
def Units.freeRecords (u : Units) : List Nat := (List.range 4096).filter fun i => !bitOf (sget 0 u.table i).toNat 0

/-- The bind record of a group (Table 10-4). -/
def bindRecord (ctx image gang e : Nat) : BitVec 128 :=
  BitVec.ofNat 128 (ctx <<< 112 + (image / 64) <<< 66 + (field e 15 0) <<< 50 + (field e 23 16) <<< 42 +
    (field e 215 213) <<< 39 + (field e 223 216) <<< 31 + (field e 225 224) <<< 29 + gang <<< 17 +
    (if gang = 0 then 0 else field e 239 232) <<< 9 + 1)

/-- The directory entries by ascending group index. -/
def byGroup (dir : List Nat) : List Nat := dir.insertionSort fun a b => field a 15 0 ≤ field b 15 0

/-- The region that an accepted launch creates (R301, R305, Table 21-1). -/
def regionOf (ctx m image : Nat) (pool : List Nat) (paths : List RoutePath) : Region :=
  { tag := BitVec.ofNat 64 (field m 351 288), context := ctx, image := image, tdel := bitOf m 49, finj := bitOf m 50
    dlock := 2 ^ (if field m 55 51 = 0 then 16 else field m 55 51), snap := field m 61 56
    report := field m 247 192, repRows := field m 271 256, save := field m 183 128, saveLen := field m 447 416
    pool := pool, gang := field m 363 352, running := true, paths := paths }

/-- The fabric with the head message of a context's window shrunk from it and a completion record on its way (R301). -/
def Fabric.answerLaunch (f : Fabric) (ctx m kind : Nat) (r : Refused) : Fabric :=
  (f.modContext ctx fun x => { x with cmd := x.cmd.drop 1, holding := false }).complete ctx
    (completionRow (field m 351 288) kind r.code r.block ctx r.value (if r.code = 0x84 then 0x0890 else 0) 0 0 0 0
      f.units.ptp.toNat)

/-- The measurement of a sealed context's image recorded (R301, R449). -/
def Fabric.measure (f : Fabric) (ctx : Nat) (img : List Byte) : Fabric :=
  if (f.context ctx).isSealed then f.modContext ctx fun x => { x with measured := x.measured ++ [Config.shake256 img] } else f

/-- The Kiln takes up a launch message. `place` and `pool` are the granules that it gives the copy of the image and the tier
frame pool, `layout` the paths that it finds for the routes, if it finds any; a choice that is not free is no event. -/
def Fabric.launch (f : Fabric) (mem : Memory) (ctx place : Nat) (pool : List Nat) (layout : Option (List RoutePath)) :
    Memory × Fabric :=
  match (f.context ctx).cmd with
  | [] => (mem, f)
  | row :: _ =>
    let m := row.toNat
    match f.checkImage mem ctx m with
    | .error r => (mem, f.answerLaunch ctx m 2 r)
    | .ok img =>
      match f.units.checkLaunch m img layout.isSome with
      | .error r => (mem, (f.measure ctx img).answerLaunch ctx m 2 r)
      | .ok _ =>
        let dir := byGroup (imageDir img)
        let free := f.units.freeRecords
        let n := granules img.length
        let paths := layout.getD []
        if free.length < dir.length then (mem, f.modContext ctx fun x => { x with holding := true })
        else if !f.units.freeAt place n || pool.length ≠ field m 287 272 || !f.laysAll img paths then (mem, f)
        else match (f.units.take place n).takeEach pool with
          | none => (mem, f)
          | some taken =>
            let (id, f) := ({ f with units := taken }.measure ctx img).fresh
            let image := place * 65536
            let recs := (free.take dir.length).zip (dir.map (bindRecord ctx image (field m 363 352)))
            let f := f.modUnits fun u =>
              { u with
                regions := sset u.regions id (regionOf ctx m image pool paths)
                table := recs.foldl (fun t p => sset t p.1 p.2) u.table }
            (mem.write image img, f.answerLaunch ctx m 1 { code := 0 })

/-- Whether the Kiln takes up a message of a tenant context: it serves, and holds no record of the context (R442). -/
def Fabric.mayLaunch (f : Fabric) (ctx : Nat) : Bool :=
  f.units.serves && ctx ≠ 0 && f.isOpen ctx && (f.context ctx).cplHeld = []

/-- LAUNCH. -/
def execLaunch (ctx place : Nat) (pool : List Nat) (layout : Option (List RoutePath)) (s : State) :
    Host.Outcome State Fault Refusal :=
  memStep (fun m f => if f.mayLaunch ctx && !(f.context ctx).holding then f.launch m ctx place pool layout else (m, f)) s

/-- LAUNCH_RETAKE (R302): a message left unread for want of slot records is taken up again. -/
def execLaunchRetake (ctx place : Nat) (pool : List Nat) (layout : Option (List RoutePath)) (s : State) :
    Host.Outcome State Fault Refusal :=
  memStep (fun m f => if f.mayLaunch ctx && (f.context ctx).holding then f.launch m ctx place pool layout else (m, f)) s

end Sys2Proof.Machine
end

