-- ==== Sys2Proof/Machine/Schedule.lean ====
section
/-!
DEFINITION. From a bind record to a lit group, and its end: readiness of records (R307, R320), dispatch (R308), binding (R309 to
R311), lighting (R225, R312), completion of groups and regions (R314, R315), and gangs (R319 to R324).
-/

namespace Sys2Proof.Machine

/-! ### Bind records and gang instants (R306, R307, R319, R320) -/

/-- V, DIE, CORE, PRIO, GANG, SLICE and GROUP of a bind record (Table 10-4). -/
def recV (r : Nat) : Bool := bitOf r 0
def recDie (r : Nat) : Nat := field r 41 39
def recCore (r : Nat) : Nat := field r 38 31
def recPrio (r : Nat) : Nat := field r 30 29
def recGang (r : Nat) : Nat := field r 28 17
def recSlice (r : Nat) : Nat := field r 16 9
def recGroup (r : Nat) : Nat := field r 65 50

/-- Physical address of the image copy that a record names. -/
def recImage (r : Nat) : Nat := field r 111 66 * 64

/-- The record at an index of the slot table. -/
def Units.record (u : Units) (i : Nat) : Nat := (sget 0 u.table i).toNat

/-- The live region whose image copy a record names. -/
def Units.regionOf (u : Units) (r : Nat) : Option Nat :=
  (u.regions.find? fun q => q.2.image = recImage r && q.2.context = field r 127 112).map Prod.fst

/-- PTP_NOW in nanoseconds: seconds in [63:32], nanoseconds in [31:0]. -/
def ptpNanos (v : Word) : Nat := v.toNat / 2 ^ 32 * 1000000000 + v.toNat % 2 ^ 32

/-- Instant `n` of a gang, counted over all slices, from its entry (Table 10-6). -/
def gangInstant (e n : Nat) : Nat := field e 127 64 + n * field e 63 32 * 1000

/-- The first instant of a gang that is not before a time. -/
def gangNext (e now : Nat) : Nat :=
  let t0 := field e 127 64
  let p := field e 63 32 * 1000
  if now ≤ t0 then 0 else (now - t0 + p - 1) / p

/-- The first turn of a slice that is not before a time. -/
def gangTurn (e slice now : Nat) : Nat :=
  let n := gangNext e now
  let ns := field e 15 8
  n + (slice + ns - n % ns) % ns

/-- Whether a ganged record is within LEAD of its slice's next turn (R307). -/
def Units.due (u : Units) (r : Nat) : Bool :=
  let e := (sget 0 u.gangs (recGang r)).toNat
  let now := ptpNanos u.ptp
  bitOf e 0 && gangInstant e (gangTurn e (recSlice r) now) ≤ now + field e 31 16 * 1000

/-- Whether the group of a record waits in a queue, or stands in some core's BIND plane or lit. -/
def Fabric.placed (f : Fabric) (r : Nat) : Bool :=
  let here (g : Option Group) : Bool := match g with
    | some g => some g.region = f.units.regionOf r && g.group = recGroup r
    | none => false
  (f.units.queues.any fun q => q.2.contains r) || f.cores.any fun q => here q.2.incoming || here q.2.group

/-- GANG_RECORD_READY (R307). -/
def Fabric.gangReady (f : Fabric) (i : Nat) : Fabric :=
  let r := f.units.record i
  if recV r && recGang r ≠ 0 && f.units.due r && !f.placed r && !f.units.readyRec.contains i then
    f.modUnits fun u => { u with readyRec := u.readyRec ++ [i] }
  else f

/-- GANG_RECORD_READY. -/
def execGangRecordReady (rec_ : Nat) (s : State) : Host.Outcome State Fault Refusal :=
  fabricStep (fun f => f.gangReady rec_) s

/-! ### Dispatch (R308) -/

/-- The ready records of a die: by PRIO from 3 down to 0, then by index. A ganged one is ready while its slice's next turn is within
LEAD (R307). -/
def Units.readyFor (u : Units) (die : Nat) : List Nat :=
  [3, 2, 1, 0].flatMap fun p =>
    (skeys u.table).filter fun i =>
      let r := u.record i
      recV r && recDie r = die && recPrio r = p && (recGang r = 0 || (u.readyRec.contains i && u.due r))

/-- The enabled cores of a die whose kindling plane is EMPTY, by number. -/
def Fabric.emptyCores (f : Fabric) (die : Nat) : List Nat :=
  (List.range 128).filterMap fun i =>
    let c := die * 128 + i
    if f.units.enabled.contains c && (f.core c).kindling = .empty then some c else none

/-- DISPATCH_BATCH: a die's queue takes ready records up to its free count; V of those without a gang is cleared. -/
def Fabric.dispatch (f : Fabric) (die : Nat) : Fabric :=
  let u := f.units
  let q := sget [] u.queues die
  let n := min (64 - q.length) ((f.emptyCores die).length - q.length)
  let is := (u.readyFor die).take n
  f.modUnits fun u =>
    { u with
      queues := sset u.queues die (q ++ is.map u.record)
      readyRec := u.readyRec.filter fun i => !is.contains i
      table := is.foldl
        (fun t i => let r := (sget 0 t i).toNat
                    if recGang r = 0 then sset t i (BitVec.ofNat 128 (r - r % 2)) else t) u.table }

/-- DISPATCH_BATCH. -/
def execDispatchBatch (die : Nat) (s : State) : Host.Outcome State Fault Refusal :=
  fabricStep (fun f => if f.units.paused then f else f.dispatch die) s

/-! ### Binding (R309 to R311) -/

/-- Whether a ganged record needs a core's kindling plane within LEAD (R324). -/
def Units.gangNeeds (u : Units) (c : Nat) : Bool :=
  u.table.any fun q =>
    let r := q.2.toNat
    recV r && recGang r ≠ 0 && recCore r ≠ 255 && recDie r * 128 + recCore r = c && u.due r

/-- The core that a queued record may be bound to now. -/
def Fabric.coreFor (f : Fabric) (r : Nat) : Option Nat :=
  ((f.emptyCores (recDie r)).filter fun c => recGang r ≠ 0 || !f.units.gangNeeds c).find?
    fun c => recCore r = 255 || c = recDie r * 128 + recCore r

/-- The group that a record and the image copy in memory give: its directory entry, its blocks and its initial rows (R196,
R304, R305). -/
def groupOf (mem : Memory) (r region : Nat) : Option Group := do
  let pa := recImage r
  let img := mem.read pa (64 * field (mem.readNat pa 64) 95 64)
  let e ← (imageDir img).find? fun e => field e 15 0 = recGroup r
  let bs ← groupBlocks img e
  return { record := r, context := field r 127 112, region := region, group := recGroup r, stage := field r 49 42
           gang := recGang r, slice := recSlice r, decl := bitOf e 212, stack := field e 255 240, blocks := bs
           rows := groupRows img e }

/-- The saved core image of a group of a region that has run before (R311, R323). -/
def Fabric.savedImage (f : Fabric) (region group : Nat) : Option Core := sfind (f.region region).images group

/-- GROUP_BIND: the oldest queued group for which a core is free. -/
def Fabric.bind (f : Fabric) (mem : Memory) (die : Nat) : Fabric :=
  let q := sget [] f.units.queues die
  match q.findSome? fun r => (f.coreFor r).map fun c => (r, c) with
  | none => f
  | some (r, c) =>
    let f := f.modUnits fun u => { u with queues := sset u.queues die (q.erase r) }
    match f.units.regionOf r with
    | none => f
    | some reg =>
      match groupOf mem r reg with
      | none => f
      | some g =>
        match f.savedImage reg g.group with
        | some img =>
          f.modCore c fun k =>
            { k with kindling := .bind, kplane := img.plane, incoming := some { g with filled := true, restored := true } }
        | none => f.beginFill c g

/-- GROUP_BIND. -/
def execGroupBind (die : Nat) (s : State) : Host.Outcome State Fault Refusal :=
  memStep (fun m f => (m, if f.units.paused then f else f.bind m die)) s

/-! ### Lighting (R225, R312, R316, R415) -/

/-- A core that holds no group: what stays is its site, its accumulator rows and weight sets with the region they belong to
(R177, R235), a BIND plane (R311), and the gang instant that it waits for (R324). -/
def Core.idle (k : Core) : Core :=
  { site := k.site, lastRegion := k.lastRegion, gangHold := k.gangHold
    mx := { acc := k.mx.acc, ws := k.mx.ws, wsEmber := k.mx.wsEmber }
    incoming := k.incoming, bindExec := k.bindExec
    kindling := if k.kindling = .bind then .bind else .empty, kplane := if k.kindling = .bind then k.kplane else {} }

/-- The initial rows written into their windows, as many as a window holds (R304, R312). -/
def Core.initialRows (k : Core) (l : List (Nat × List Row)) : Core :=
  l.foldl
    (fun k q =>
      if shas k.plane.wins q.1 then
        q.2.foldl (fun k r => if k.freeRows q.1 = 0 then k else k.fillWin q.1 ⟨r, false⟩) k
      else k) k

/-- The sequencer of a group just lit: before its entry block, or halted when it has no sequencer block (R196, R312). -/
def Group.sequencer (g : Group) : Seqr :=
  let kinds := (List.range g.blocks.length).zip (g.blocks.map Block.kind)
  let entry := (kinds.find? fun p => p.2 = 0).map Prod.fst
  { phase := match entry with | some b => .boundary (some b) | none => .halted
    resident := ((kinds.filter fun p => p.2 ≠ 1).map Prod.fst).take 32 }

/-- A core with a bound group lit for the first time. -/
def Core.lightNew (k : Core) (g : Group) : Core :=
  let same := k.lastRegion = g.region
  ({ site := k.site, lastRegion := g.region, group := some g, plane := k.kplane
     mx := if same then { acc := k.mx.acc, ws := k.mx.ws, wsEmber := k.mx.wsEmber } else {}
     seq := g.sequencer } : Core).initialRows g.rows

/-- An actor as it is lit: its age is zero (R316). -/
def Actor.lit (x : Actor) : Actor := { x with age := 0 }

/-- A core with a group restored from its image: ages and pointers are zero (R316), and firings trapped by a marker are pinned again
(R208, R323, R453). -/
def Core.lightSaved (k : Core) (g : Group) (img : Core) : Core :=
  let k := { img with
    site := k.site, lastRegion := g.region, group := some g, saving := false, passed := [], gangHold := none
    actors := img.actors.map fun (q : Nat × Actor) => (q.1, q.2.lit), ptrU := [], ptrN := [], picks := [] }
  (skeys k.actors).foldl (fun k a => k.resumePinned a .restore none) k

/-- Whether a region may act: neither stopped nor frozen (R400, R431). -/
def Region.acts (r : Region) : Bool := r.stop.isNone && !r.stopped && !r.frozen

/-- BIND_PLANE_LIGHT (R312): a filled BIND plane once no group is lit on the core; a ganged one once its turn has come
(R322). -/
def Fabric.lightBind (f : Fabric) (c : Nat) : Fabric :=
  let k := f.core c
  match k.incoming with
  | none => f
  | some g =>
    let r := f.region g.region
    if !g.filled || g.refused || k.group.isSome || k.kindling ≠ .bind || !r.acts || k.gangHold.isSome ||
        (g.gang ≠ 0 && r.turn ≠ some g.slice) then f
    else
      let lit := { g with filled := false }
      let f := f.modRegion g.region fun r => { r with cores := (r.cores.filter fun p => p.2 ≠ g.group) ++ [(c, g.group)], idle := 0 }
      match if g.restored then f.savedImage g.region g.group else none with
      | some img =>
        (f.modRegion g.region fun r => { r with images := sdel r.images g.group }).modCore c fun k => k.lightSaved lit img
      | none => f.modCore c fun k => k.lightNew lit

/-- BIND_PLANE_LIGHT. -/
def execBindPlaneLight (core : Nat) (s : State) : Host.Outcome State Fault Refusal :=
  fabricStep (fun f => f.lightBind core) s

/-- The map restricted to the keys whose value in `old` equals the one in `new`. -/
def keepSame {α β : Type} [DecidableEq α] (old new : Sparse α) (m : Sparse β) : Sparse β :=
  m.filter fun q => shas new q.1 && sfind old q.1 = sfind new q.1

/-- A core with its PROGRAM plane lit (R223, R225, R435): what keeps its configuration keeps its state; a window whose base or
capacity has changed starts empty; counts of a channel whose configuration has changed are cleared. An actor that a deadlock holds
stays held until its RFT (R422). -/
def Core.lightProgram (k : Core) : Core :=
  let old := k.plane
  let new := k.kplane
  let place (p : Plane) (w : Nat) : Option (Nat × Nat) := (sfind p.wins w).map fun c => (c.base, c.cap)
  let same (chan : Nat) : Bool := match chan / 256 with
    | 0 => sfind old.wins (chan % 256) = sfind new.wins (chan % 256)
    | 1 => sfind old.ends (chan % 256 * 2) = sfind new.ends (chan % 256 * 2)
    | _ => true
  let kept := (keepSame old.actors new.actors k.actors).map fun q => (q.1, q.2.lit)
  let named := (skeys k.actors).filter fun a => (k.actor a).deadHeld && shas new.actors a && !shas kept a
  { k with
    plane := new, kplane := {}, kindling := .empty
    wins := k.wins.filter fun q => shas new.wins q.1 && place old q.1 = place new q.1
    actors := named.foldl (fun m a => sset m a { deadHeld := true }) kept
    ptrU := [], ptrN := [], picks := []
    opers := keepSame old.opers new.opers k.opers
    ends := keepSame old.ends new.ends k.ends
    bars := k.bars.map fun q => if sget 1 old.bars q.1 = sget 1 new.bars q.1 then q else (q.1, { q.2 with arrived := 0 })
    dbg := { k.dbg with prof := k.dbg.prof.map fun p => if same p.chan then p else { p with full := 0, empty := 0, moving := 0 } } }

/-- Whether every firing in progress on a core is unpinned and waiting. -/
def Core.allWaiting (k : Core) : Bool :=
  k.actors.all fun q => match q.2.firing with
    | none => true
    | some y => (y.phase = .running && y.exec.waits ≠ [] && !y.pinned) || (y.phase = .trapped && y.release ≠ .rft)

/-- The waiting, unpinned firings of a core aborted without a trap. -/
def Core.abortWaiting (k : Core) : Core :=
  (skeys k.actors).foldl
    (fun k a => match (k.actor a).firing with
      | some y => if y.phase = .running && !y.pinned then k.abort a else k
      | none => k) k

/-- CSWAP_LIGHTING (R225): once only waiting, unpinned firings are left they are aborted; the drained core lights its PROGRAM
plane and the CSWAP completes. -/
def Fabric.lightSwap (f : Fabric) (c : Nat) : Fabric :=
  let k := f.core c
  match k.exec (.seq c) with
  | none => f
  | some e =>
    match e.waits.find? fun w => w.2 = .drain with
    | none => f
    | some (slot, _) =>
      if k.dbg.frozen || e.waits.any (fun w => w.2 = .queue) || k.kindling ≠ .program then f
      else if !k.noFiring && k.allWaiting then f.modCore c Core.abortWaiting
      else if k.drained then
        (f.modRegion k.regionId fun r => { r with idle := 0 }).modCore c fun k =>
          k.lightProgram.modExec (.seq c) fun e => e.mark slot fNone
      else f

/-- CSWAP_LIGHTING. -/
def execCswapLighting (core : Nat) (s : State) : Host.Outcome State Fault Refusal :=
  fabricStep (fun f => f.lightSwap core) s

/-! ### Completion (R314, R315, R324) -/

/-- Whether some access or store unit of a core is in flight. -/
def Fabric.inFlight (f : Fabric) (c : Nat) : Bool :=
  f.units.reqs.any (fun r => r.who.core = c) || f.units.stores.any (fun u => u.core = c)

/-- The counts of a core's translations added to the side tables, as it goes idle (R297). -/
def Fabric.flushCore (f : Fabric) (mem : Memory) (c : Nat) : Memory := f.flushAll mem ((f.core c).entries fun _ => true)

/-- GROUP_COMPLETE (R314): the sequencer halted, the plane drained, no actor ready, and what the core sent acknowledged. A ganged
group leaves its core idle until its gang's next instant (R324). -/
def Fabric.groupComplete (f : Fabric) (mem : Memory) (c : Nat) : Memory × Fabric :=
  let k := f.core c
  match k.group with
  | none => (mem, f)
  | some g =>
    if k.seq.phase ≠ .halted || !k.drained || (skeys k.plane.actors).any k.ready || k.dbg.frozen || f.inFlight c ||
        k.credits ≠ 256 || k.saving then (mem, f)
    else
      let r := f.units.table.find? fun q => recV q.2.toNat && recGang q.2.toNat ≠ 0 && recImage q.2.toNat = recImage g.record &&
        recGroup q.2.toNat = g.group
      let f := match r with
        | some q => f.modUnits fun u => { u with table := sset u.table q.1 (BitVec.ofNat 128 (q.2.toNat - 1)) }
        | none => f
      (f.flushCore mem c, f.modCore c fun k => { k.idle with gangHold := if g.gang = 0 then none else some g.gang })

/-- GROUP_COMPLETE. -/
def execGroupComplete (core : Nat) (s : State) : Host.Outcome State Fault Refusal :=
  memStep (fun m f => f.groupComplete m core) s

/-- What a trap of an ended region held: a struck engine of another core, or a connection (R430, R437). -/
def Fabric.dropTrap (f : Fabric) (t : Trap) : Fabric :=
  let f := match t.holder with | some h => f.modCore h.1 fun k => k.endStrike h.2.1 h.2.2 | none => f
  match t.conn with
  | some (x, n, slice) => f.modConn x n fun y => { y with held := y.held.erase slice }
  | none => f

/-- Whether what a landed unit was sent to still stands: a request, a store unit, a lit core, a core, an open connection. -/
def Fabric.awaited (f : Fabric) (x : LinkUnit) : Bool :=
  match x with
  | .ask id _ | .reply id _ => (f.req id).isSome
  | .part id _ | .ack id => f.units.stores.any fun u => u.id = id
  | .line c _ _ | .beat c _ => (f.core c).group.isSome
  | .config _ => true
  | .arrival x n _ => shas (f.context x).conns n

/-- The landed units that nothing awaits any longer discarded. -/
def Fabric.pruneHome (f : Fabric) : Fabric := f.sinkAll fun x => !f.awaited x

/-- The granules that a region's end returns to free HBM (R315), as runs: its pool's, those kept for pages coming in, and its image
copy's. -/
def Units.regionFrames (u : Units) (reg : Nat) (r : Region) : List (Nat × Nat) :=
  (r.pool.map fun g => (g, 1)) ++
    ((u.transits.filter fun t => t.region = reg && t.inward).map fun t => (t.frame / 65536, t.size / 65536)) ++
    u.frames.filter fun p => p.1 * 65536 = r.image

/-- The module's units without a region: its records, its place in the queues, its requests, units and page moves; the frames of
its pool that hold no page, and its image copy, are free again (R315). `gone` tells its cores. -/
def Units.dropRegion (u : Units) (reg : Nat) (r : Region) (gone : Nat → Bool) : Units :=
  let mine (v : Nat) : Bool := recImage v = r.image
  let moves := u.transits.filter fun t => t.region = reg
  { u with
    table := u.table.map fun (q : Nat × BitVec 128) =>
      if recV q.2.toNat && mine q.2.toNat then (q.1, BitVec.ofNat 128 (q.2.toNat - 1)) else q
    readyRec := u.readyRec.filter fun i => !mine (u.record i)
    queues := u.queues.map fun (q : Nat × List Nat) => (q.1, q.2.filter fun v => !mine v)
    reqs := u.reqs.filter fun q => !gone q.who.core
    stores := u.stores.filter fun q => q.region ≠ reg
    peat := u.peat.filter fun p => !(moves.any fun t => !t.inward && t.frame = 0x8000000000000 + p.1 * 65536)
    transits := u.transits.filter fun t => t.region ≠ reg
    frames := (u.regionFrames reg r).foldl (fun l p => l.flatMap (cutRun p.1 p.2)) u.frames
    regions := sdel u.regions reg }

/-- A region ended (R315): V of its records cleared, its groups unbound and their cores' planes cleared, the frames of its pool that
hold no page and its image copy freed, scrubbed when they leave a sealed context (R290), its translations' counts kept (R297), and a
record of KIND 4 on its way; `code` is 0x86 for a refused BIND plane. -/
def Fabric.endRegion (f : Fabric) (mem : Memory) (reg code : Nat) : Memory × Fabric :=
  let r := f.region reg
  let cores := f.cores.filter fun q => q.2.regionId = reg
  let mem := (cores.map Prod.fst).foldl f.flushCore mem
  let mem := if (f.context r.context).isSealed then
      (f.units.regionFrames reg r).foldl (fun m p => m.scrub (p.1 * 65536) (p.2 * 65536)) mem
    else mem
  let f := (cores.flatMap fun q => q.2.seq.pending ++ q.2.seq.serving.toList).foldl Fabric.dropTrap f
  let clear (k : Core) : Core :=
    let k := if k.regionId = reg then { k.idle with mx := {} } else k
    if k.incoming.any fun g => g.region = reg then { k with incoming := none, bindExec := none, kindling := .empty, kplane := {} } else k
  let f := { f with cores := f.cores.map fun (q : Nat × Core) => (q.1, clear q.2) }
  let gone (a : Nat) : Bool := cores.any fun q => q.1 = a
  let f := (f.modUnits fun u => u.dropRegion reg r gone).pruneHome
  (mem, f.complete r.context (completionRow r.tag.toNat 4 code 0 r.context 0 0 0 0 0 0 f.units.ptp.toNat))

/-- Whether a region has nothing left to run (R315): no record, queued, bound, saved or lit group, and no page move. -/
def Fabric.regionDone (f : Fabric) (reg : Nat) : Bool :=
  let r := f.region reg
  !(f.units.table.any fun q => recV q.2.toNat && recImage q.2.toNat = r.image) &&
    !(f.units.queues.any fun q => q.2.any fun v => recImage v = r.image) &&
    !(f.cores.any fun q => q.2.regionId = reg || q.2.incoming.any fun g => g.region = reg) &&
    !(f.units.transits.any fun t => t.region = reg) && r.acts

/-- Whether the units committed by a region have all been performed; the Kiln ends a region no earlier. -/
def Fabric.unitsSettled (f : Fabric) (reg : Nat) : Bool := f.units.stores.all fun u => u.region ≠ reg || u.performed

/-- REGION_END. -/
def Fabric.regionEnd (f : Fabric) (mem : Memory) (reg : Nat) : Memory × Fabric :=
  if !shas f.units.regions reg || !f.unitsSettled reg then (mem, f)
  else if f.cores.any fun q => q.2.incoming.any fun g => g.region = reg && g.refused then f.endRegion mem reg 0x86
  else if f.regionDone reg then f.endRegion mem reg 0
  else (mem, f)

/-- REGION_END. -/
def execRegionEnd (region : Nat) (s : State) : Host.Outcome State Fault Refusal :=
  memStep (fun m f => f.regionEnd m region) s

/-! ### Gang instants (R321, R322) -/

/-- The records of a region for a slice whose groups are not lit: its incoming groups for that slice's turn. -/
def Fabric.incomingOf (f : Fabric) (reg slice : Nat) : List Nat :=
  let r := f.region reg
  (f.units.table.map fun q => q.2.toNat).filter fun v =>
    recV v && recGang v ≠ 0 && recImage v = r.image && recSlice v = slice &&
      !(f.cores.any fun q => q.2.group.any fun g => g.region = reg && g.group = recGroup v)

/-- Whether the group of a record stands filled in a BIND plane. -/
def Fabric.boundFilled (f : Fabric) (reg v : Nat) : Bool :=
  f.cores.any fun q => q.2.kindling = .bind && q.2.incoming.any fun g => g.region = reg && g.group = recGroup v && g.filled

/-- A region that misses an instant of its gang; the host is told (R321). -/
def Fabric.missInstant (f : Fabric) (gang n reg : Nat) : Fabric :=
  let r := f.region reg
  (f.modRegion reg fun r => { r with ready := false, missed := r.missed + 1 }).modContext r.context fun x =>
    { x with notices := x.notices ++ [.missed r.tag gang n] }

/-- GANG_READINESS_CHECK: within 2 µs before an instant each member with incoming groups is judged once. An instant in a reroute's
pause is missed (R355). -/
def Fabric.gangCheck (f : Fabric) (gang : Nat) : Fabric :=
  let e := (sget 0 f.units.gangs gang).toNat
  let now := ptpNanos f.units.ptp
  let n := gangNext e now
  if !bitOf e 0 || gang = 0 || now + 2000 < gangInstant e n || sget 0 f.units.judged gang = n + 1 then f
  else
    let slice := n % field e 15 8
    let judge (g : Fabric) (reg : Nat) : Fabric :=
      let inc := f.incomingOf reg slice
      if inc = [] then g.modRegion reg fun r => { r with ready := false }
      else if inc.all (f.boundFilled reg) && !f.units.paused then g.modRegion reg fun r => { r with ready := true }
      else g.missInstant gang n reg
    ((f.units.regions.filter fun q => q.2.gang = gang).map Prod.fst).foldl judge
      (f.modUnits fun u => { u with judged := sset u.judged gang (n + 1) })

/-- GANG_READINESS_CHECK. -/
def execGangReadinessCheck (gang : Nat) (s : State) : Host.Outcome State Fault Refusal :=
  fabricStep (fun f => f.gangCheck gang) s

/-- Whether a core runs a group of a region whose turn is over, of a member whose turn has come. -/
def Core.goesOut (k : Core) (gang slice : Nat) (out ready : List Nat) : Bool :=
  k.group.any fun g => g.gang = gang && out.contains g.region && !(ready.contains g.region && g.slice = slice) && !k.saving

/-- The region that runs on a core for which a member's group waits. -/
def Core.outgoing (k : Core) (gang : Nat) (ready : List Nat) : Option Nat :=
  match k.incoming, k.group with
  | some i, some g => if ready.contains i.region && i.region ≠ g.region && g.gang = gang then some g.region else none
  | _, _ => none

/-- GANG_SWITCH: at the instant judged, once: cores left idle by completed groups are free again (R324), the turn of each ready member
comes, and markers enter at the sources of the region that runs on its cores (R322). A member of a paused module misses it (R355). -/
def Fabric.gangSwitch (f : Fabric) (gang : Nat) : Fabric :=
  let e := (sget 0 f.units.gangs gang).toNat
  let n := sget 0 f.units.judged gang
  let now := ptpNanos f.units.ptp
  if n = 0 || !bitOf e 0 || sget 0 f.units.switched gang = n || now < gangInstant e (n - 1) then f
  else
    let slice := (n - 1) % field e 15 8
    let ready := (f.units.regions.filter fun q => q.2.gang = gang && q.2.ready).map Prod.fst
    let f := f.modUnits fun u => { u with switched := sset u.switched gang n }
    let f := { f with cores := f.cores.map fun (q : Nat × Core) => if q.2.gangHold = some gang then (q.1, { q.2 with gangHold := none }) else q }
    if f.units.paused then ready.foldl (fun f r => f.missInstant gang (n - 1) r) f
    else
      let out := f.cores.filterMap fun q => q.2.outgoing gang ready
      let turn (q : Nat × Region) : Nat × Region :=
        if ready.contains q.1 then (q.1, { q.2 with ready := false, turn := some slice, drain := now, overran := [] })
        else if out.contains q.1 then (q.1, { q.2 with turn := none, drain := now, overran := [] })
        else q
      let mine := (f.cores.filter fun q => q.2.goesOut gang slice (out ++ ready) ready).map Prod.fst
      let f := { f.modUnits fun u => { u with regions := u.regions.map turn } with
        cores := f.cores.map fun q => if mine.contains q.1 then (q.1, { q.2 with marking := true }) else q }
      (mine.filter fun c => f.markersIn c 8).foldl Fabric.beginSave f

/-- GANG_SWITCH. -/
def execGangSwitch (gang : Nat) (s : State) : Host.Outcome State Fault Refusal :=
  fabricStep (fun f => f.gangSwitch gang) s

end Sys2Proof.Machine
end

