-- ==== Sys2Proof/Machine/Cuts.lean ====
section
/-!
DEFINITION. Markers and what they make: the core image of a pre-emption (R28, R208, R234, R313, R323, R414), snapshot cuts with
their logs (R409 to R413, R432, R433), rollback and the start of a replay (R412, R434), and the stops and freezes (R400, R431,
R432).
-/

namespace Sys2Proof.Machine

/-! ### Elements at rest (R28, R234, R410) -/

/-- Whether a generator stands at a row boundary with no strike of its own and no report on its way; a parked one stands where its
fault stopped it. What it has read ahead is read again (R234). -/
def Gen.still (y : Gen) : Bool := y.strike.isNone && y.unreported = 0 && (y.wrote = [] || y.park.isSome)

/-- Whether a command of the matrix queue has nothing under way: no row in the array, and of an MXLDW nothing read or written. -/
def MxCmd.still (m : MxCmd) : Bool :=
  m.strike.isNone && m.unreported = 0 && m.arr = [] && (m.kind ≠ 1 || (m.landed = [] && m.written = 0))

/-- Whether a core's engines are at rest (R234): no MXLDW runs, an MXRUN has come to its end or to a row that is not filled (R239),
generators stand at row boundaries, and network and tier commands already sent are complete. -/
def Core.enginesStill (k : Core) : Bool :=
  (k.eng.gens.all fun q => q.2.still) && k.mx.queue.all MxCmd.still && k.mayAdmit.isNone &&
    (k.eng.net.all fun m => !m.running) && k.eng.images.all fun m => m.strike.isNone && m.pos = 0

/-- Whether an eager atomic of a core is partly performed. -/
def Fabric.eagerOpen (f : Fabric) (c : Nat) : Bool :=
  f.units.reqs.any fun r => r.who.core = c && r.kind = .eager && r.someDone

/-- Whether an actor has no firing, or one trapped with its partial state. -/
def Actor.atRest (x : Actor) : Bool := match x.firing with | none => true | some y => y.phase = .trapped

/-! ### The core image (R323, R414) -/

/-- A block in progress as an image holds it: what it asked for is asked for again, and waits for response slots begin again. -/
def Exec.image (e : Exec) : Exec :=
  { e with inflight := [], waits := e.waits.filter fun w => match w.2 with | .slot _ => false | _ => true }

/-- An actor as an image holds it: a firing trapped with its partial state is kept, no other is in progress. -/
def Actor.image (x : Actor) : Actor :=
  { x with
    fence := none
    firing := x.firing.bind fun y => if y.phase = .trapped then some { y with exec := y.exec.image } else none }

/-- A generator as an image holds it: the row at which it stopped, nothing in hand. -/
def Gen.image (y : Gen) : Gen := { y with landed := [], entry := none, unreported := 0 }

/-- The saved state of a core: the active plane's configuration and state, the sequencer's block with its partial state, a PROGRAM
plane, the engines' queues. Arrivals at barriers that wait for units count as made, sources of tier misses try again. -/
def Core.image (k : Core) : Core :=
  let k := ((k.misses ++ k.missWait).flatMap Miss.srcs).foldl Core.retry k
  let k := (k.barWait.map Prod.snd).foldl Core.arrive k
  let prog := k.kindling = .program
  { k with
    incoming := none, bindExec := none
    kindling := if prog then .program else .empty, kplane := if prog then k.kplane else {}
    seq := { k.seq with exec := k.seq.exec.map Exec.image }
    counts := { k.counts with ld := 0, st := 0 }
    actors := k.actors.map fun (q : Nat × Actor) => (q.1, q.2.image)
    picks := [], barWait := [], tlb := [], askers := [], misses := [], missWait := [], credits := 256, passed := []
    wins := k.wins.map fun (q : Nat × Win) => (q.1, { q.2 with unrel := [] })
    eng := { k.eng with gens := k.eng.gens.map fun (q : Nat × Gen) => (q.1, q.2.image) }
    dbg := { k.dbg with frozen := false, gating := false, skid := [] }
    ends := k.ends.map fun (q : Nat × RouteEnd) =>
      (q.1, { out := q.2.out.filter (fun b => b.tag < 8), recv := q.2.recv.filter fun b => b.tag < 8 })
    marking := false, saving := false, cutDone := false }

/-! ### Pre-emption (R28, R313, R322, R414) -/

/-- Whether a firing can go no further because a member of its link set has been trapped by a marker. -/
def Core.stranded (k : Core) (a : Nat) (y : Firing) : Bool :=
  let mate (m : Nat) : Bool := match (k.actor m).firing with | some z => z.phase = .trapped && z.release = .restore | none => false
  let stuck := match k.blockOf (.actor 0 a) y.exec with
    | some b => b.instrs.all fun s => y.exec.done.contains s.1 || !arrived y.exec s.1 s.2
    | none => false
  y.pinned && (k.mates a).any mate && (y.phase = .committing || (y.phase = .running && y.exec.inflight = [] && stuck))

/-- A marker meets a firing (R28): one that waits is aborted, or when pinned trapped with its partial state; another goes on. -/
def Core.markFiring (k : Core) (a : Nat) : Core :=
  match (k.actor a).firing with
  | none => k
  | some y =>
    if y.phase = .running && y.exec.waits ≠ [] && !y.pinned then k.abort a
    else if (y.phase = .running && y.exec.waits ≠ [] && y.pinned) || k.stranded a y then k.trapPinned a .restore
    else k

/-- A marker at a PE: it passes once no firing there runs on. -/
def Core.markPe (k : Core) (pe : Nat) : Core :=
  let here := (skeys k.actors).filter fun a => a / 4 = pe
  let k := here.foldl Core.markFiring k
  if here.all fun a => (k.actor a).atRest then { k with passed := if k.passed.contains pe then k.passed else k.passed ++ [pe] } else k

/-- Whether no beat of a core's routes is on its way and its markers have left it: no beat stands in a track at a save (R347). -/
def Fabric.tracksClear (f : Fabric) (c : Nat) : Bool :=
  let k := f.core c
  ((k.routesAt false).all fun r => k.airBeats r = [] && ((f.peerOf k.regionId r).isNone || !(k.outBeats r).any fun b => 8 ≤ b.tag)) &&
    (k.routesAt true).all fun r => match f.senderOf k.regionId r with | some d => (f.core d).airBeats r = [] | none => true

/-- Whether everything that a core has in flight is settled (Table 17-8). -/
def Fabric.settled (f : Fabric) (c : Nat) : Bool :=
  let k := f.core c
  f.tracksClear c &&
  (k.actors.all fun q => q.2.atRest) && ((skeys k.plane.actors).all fun a => k.passed.contains (a / 4)) && k.enginesStill &&
    !f.eagerOpen c && k.credits = 256 && (f.units.stores.all fun u => u.core ≠ c) && !k.cutDone

/-- A core saved (R323): its image is kept under its group, its translations' counts go to the side table, its requests are
forgotten, and the core is idle. The image stands in the state of the region, not in the bytes of its save area (log entry
31). -/
def Fabric.saveCore (f : Fabric) (mem : Memory) (c : Nat) : Memory × Fabric :=
  let k := f.core c
  match k.group with
  | none => (mem, f)
  | some g =>
    let mem := f.flushCore mem c
    let f := f.modUnits fun u => { u with reqs := u.reqs.filter fun r => r.who.core ≠ c }
    let f := f.modRegion g.region fun r => { r with images := sset r.images g.group k.image }
    (mem, (f.modCore c fun k => { k.idle with mx := {} }).pruneHome)

/-- The overrun of a core's drain told to the host, once: more than 60 µs after the instant, with a network command or a page move of
its region outstanding (R322). -/
def Fabric.noteOverrun (f : Fabric) (c : Nat) : Fabric :=
  let k := f.core c
  let r := f.region k.regionId
  let busy := k.eng.net ≠ [] || f.units.transits.any fun t => t.region = k.regionId
  if !busy || r.overran.contains c || ptpNanos f.units.ptp ≤ r.drain + 60000 then f
  else
    (f.modRegion k.regionId fun r => { r with overran := r.overran ++ [c] }).modContext r.context fun x =>
      { x with notices := x.notices ++ [.overrun r.tag c] }

/-- PREEMPTION_MARKER: a core to which the markers of all its inputs have come begins its save. Then elements 0 to 255 are the PEs;
256 is the sequencer, which is saved last and with it the core. A BIND plane that is being filled is filled again from the start
(R313). -/
def Fabric.preempt (f : Fabric) (mem : Memory) (c el : Nat) : Memory × Fabric :=
  let k := f.core c
  let f := if el = 256 && k.saving then f.noteOverrun c else f
  if k.dbg.frozen || !(k.saving || k.marking) then (mem, f)
  else if !k.saving then (mem, if f.markersIn c 8 then f.beginSave c else f)
  else if el < 256 then (mem, f.modCore c fun k => k.markPe el)
  else if el ≠ 256 then (mem, f)
  else
    match k.incoming with
    | some g =>
      if !g.filled && !g.refused then (mem, f.beginFill c g)
      else if f.settled c then f.saveCore mem c
      else (mem, f)
    | none => if f.settled c then f.saveCore mem c else (mem, f)

/-- PREEMPTION_MARKER. -/
def execPreemptionMarker (core el : Nat) (s : State) : Host.Outcome State Fault Refusal :=
  memStep (fun m f => f.preempt m core el) s

/-! ### Snapshot cuts (R409 to R411) -/

/-- Whether an actor lets a snapshot marker pass: every running or pinned firing has committed (R410). -/
def Actor.passes (x : Actor) : Bool :=
  match x.firing with
  | none => true
  | some y => y.phase = .trapped || (y.phase = .running && y.exec.waits ≠ [] && !y.pinned)

/-- Whether a core's elements let a snapshot marker pass now: its sequencer stands between blocks. -/
def Fabric.passable (f : Fabric) (c : Nat) : Bool :=
  let k := f.core c
  let between := match k.seq.phase with | .run => false | .kiln _ => false | _ => true
  (k.actors.all fun q => q.2.passes) && between && k.enginesStill && !f.eagerOpen c && !k.dbg.frozen

/-- SNAPSHOT_MARKER (R410, R432): once the marker has come on every input the core is saved, the marker goes out on its routes,
RETIRED starts a new interval, and from here on it holds what it would hand over (R411). The commit log notes the passage with code
2,048. -/
def Fabric.snapshot (f : Fabric) (c : Nat) : Fabric :=
  let k := f.core c
  let reg := k.regionId
  if k.group.isNone || !(f.region reg).cutting || k.cutDone || !f.markersIn c 9 || !f.passable c then f
  else
    let img := k.image
    let f := f.modRegion reg fun r =>
      { r with
        fresh := sset r.fresh c { img with dbg := { img.dbg with retired := 0 } }
        commits := r.commits ++ [(c, 2048)] }
    (f.passMarker c 9).modCore c fun k => { k with cutDone := true, dbg := { k.dbg with retired := 0 } }

/-- SNAPSHOT_MARKER. -/
def execSnapshotMarker (core : Nat) (s : State) : Host.Outcome State Fault Refusal :=
  fabricStep (fun f => f.snapshot core) s

/-- SNAPSHOT_TIMER (R409): every 2^SNAP cycles. -/
def Fabric.snapTimer (f : Fabric) (reg : Nat) : Fabric :=
  let r := f.region reg
  if r.snap = 0 || r.snapAge < 2 ^ r.snap || !r.acts then f
  else (f.modRegion reg fun r => { r with snapAge := 0 }).beginCut reg

/-- SNAPSHOT_TIMER. -/
def execSnapshotTimer (region : Nat) (s : State) : Host.Outcome State Fault Refusal :=
  fabricStep (fun f => f.snapTimer region) s

/-- The commits of the new interval: those of each core after its marker, or all of those of a core that none has passed. -/
def newCommits : List (Nat × Nat) → List (Nat × Nat)
  | [] => []
  | (c, n) :: r => if n = 2048 || r.contains (c, 2048) then newCommits r else (c, n) :: newCommits r

/-- Whether a snapshot marker of a core is still on its way over a route that a lit core takes. -/
def Fabric.markerOut (f : Fabric) (c : Nat) : Bool :=
  let k := f.core c
  (k.routesAt false).any fun r => (f.peerOf k.regionId r).isSome &&
    ((k.outBeats r).any (fun b => b.tag = 9) || (k.airBeats r).any fun b => b.2.tag = 9)

/-- CUT_COMPLETE (R409, R411): every lit core of the region has passed, every marker has come to the core across, and what was
handed over before is performed; the saved state and the logs of the interval before are released. -/
def Fabric.cutComplete (f : Fabric) (reg : Nat) : Fabric :=
  let r := f.region reg
  let mine (k : Core) : Bool := k.group.isSome && k.regionId = reg
  if !r.cutting || (f.cores.any fun q => mine q.2 && (!q.2.cutDone || f.markerOut q.1)) || !f.unitsSettled reg || r.rollback then f
  else
    let f := f.modRegion reg fun r =>
      { r with
        cutting := false, complete := true, half := false, full := false, interval := r.interval + 1
        saved := r.fresh, savedImages := r.images, fresh := []
        undo := [], lines := [], inputs := [], rowsIn := [], commits := newCommits r.commits }
    { f with cores := f.cores.map fun (q : Nat × Core) => if mine q.2 then (q.1, { q.2 with cutDone := false }) else q }

/-- CUT_COMPLETE. -/
def execCutComplete (region : Nat) (s : State) : Host.Outcome State Fault Refusal :=
  fabricStep (fun f => f.cutComplete region) s

/-! ### Logs (R413, R433) -/

/-- UNDO_LOG_HALF (R413): the Kiln asks for a cut. How much of the save area an entry takes is not given, so the log may reach half at
any number of entries (log entry 31). -/
def Fabric.logHalf (f : Fabric) (reg : Nat) : Fabric :=
  let r := f.region reg
  if r.undo = [] || r.half || !r.acts then f else (f.modRegion reg fun r => { r with half := true }).beginCut reg

/-- UNDO_LOG_HALF. -/
def execUndoLogHalf (region : Nat) (s : State) : Host.Outcome State Fault Refusal :=
  fabricStep (fun f => f.logHalf region) s

/-- UNDO_LOG_FULL (R413, R433): the undo log after its half, the input log or the commit log fills; the interval is unrecoverable
until its cut completes. -/
def Fabric.logFull (f : Fabric) (reg : Nat) : Fabric :=
  let r := f.region reg
  if r.full || !(r.half || r.inputs ≠ [] || r.rowsIn ≠ [] || r.commits ≠ []) then f
  else f.modRegion reg fun r => { r with full := true }

/-- UNDO_LOG_FULL. -/
def execUndoLogFull (region : Nat) (s : State) : Host.Outcome State Fault Refusal :=
  fabricStep (fun f => f.logFull region) s

/-! ### Rollback (R412, R413, R434) -/

/-- The ember bits of a core cleared (R412, step 4). -/
def Core.clean (k : Core) : Core :=
  let t (x : Tok) : Tok := { x with ember := false }
  let beat (b : Beat) : Beat := { b with tok := t b.tok }
  { k with
    seq := { k.seq with exec := k.seq.exec.map fun e => e.setEmber false }
    actors := k.actors.map fun (q : Nat × Actor) =>
      (q.1, { q.2 with firing := q.2.firing.map fun y => { y with exec := y.exec.setEmber false } })
    rows := k.rows.map fun (q : Nat × Tok) => (q.1, t q.2)
    mx := { k.mx with
      acc := k.mx.acc.map fun (q : Nat × Tok) => (q.1, t q.2)
      wsEmber := [] }
    ends := k.ends.map fun (q : Nat × RouteEnd) => (q.1, { out := q.2.out.map beat, recv := q.2.recv.map beat })
    opers := k.opers.map fun (q : Nat × Oper) => (q.1, { q.2 with held := q.2.held.map t, buf := q.2.buf.map t }) }

/-- A group's record back in its die's queue, unless a gang schedules it. -/
def Fabric.requeue (f : Fabric) (g : Group) : Fabric :=
  if g.gang ≠ 0 then f
  else f.modUnits fun u => { u with queues := sset u.queues (recDie g.record) (sget [] u.queues (recDie g.record) ++ [g.record]) }

/-- V of a ganged group's record set again. -/
def Fabric.reviveRecord (f : Fabric) (g : Group) : Fabric :=
  if g.gang = 0 then f
  else
    let mine (v : Nat) : Bool := recImage v = recImage g.record && recGroup v = g.group && recGang v ≠ 0 && !recV v
    match f.units.table.find? fun q => mine q.2.toNat with
    | some q => f.modUnits fun u => { u with table := sset u.table q.1 (BitVec.ofNat 128 (q.2.toNat + 1)) }
    | none => f

/-- The debug state of a cut with what a rollback leaves as it stands: watchpoints, an armed RWC and armed injections (R273, R434). -/
def Debug.keep (d now : Debug) : Debug := { d with wps := now.wps, stop := now.stop, finj := now.finj }

/-- A core with the state saved at the cut: its site, a BIND plane, watchpoints, an armed RWC and injections stay as they stand. -/
def Core.restored (k img : Core) : Core :=
  let keep := k.kindling = .bind && img.kindling ≠ .program
  let r := img.clean
  { r with
    site := k.site, lastRegion := k.lastRegion, saving := k.saving
    incoming := if keep then k.incoming else none, bindExec := if keep then k.bindExec else none
    kindling := if keep then .bind else r.kindling, kplane := if keep then k.kplane else r.kplane
    dbg := r.dbg.keep k.dbg }

/-- The connections that slices hold for strikes of a core, with the slice: of strikes not yet raised, and of a WATCH pending or
served (R437). -/
def Core.holds (k : Core) : List (Nat × Nat × Nat) :=
  (k.dbg.remote.map fun x => (x.ctx, x.conn, x.slice)) ++ (k.seq.pending ++ k.seq.serving.toList).filterMap Trap.conn

/-- The connections held for strikes of a region's cores. -/
def Fabric.regionHolds (f : Fabric) (reg : Nat) : List (Nat × Nat × Nat) :=
  (f.cores.flatMap fun q => if q.2.group.isSome && q.2.regionId = reg then q.2.holds else []) ++
    (f.region reg).images.flatMap fun q => q.2.holds

/-- Connections let go by their slices, and others held. -/
def Fabric.swapHolds (f : Fabric) (off on : List (Nat × Nat × Nat)) : Fabric :=
  let f := off.foldl (fun f h => f.modConn h.1 h.2.1 fun y => { y with held := y.held.erase h.2.2 }) f
  on.foldl (fun f h => f.modConn h.1 h.2.1 fun y => { y with held := y.held ++ [h.2.2] }) f

/-- A saved core put back: in place; as an image of its group when it was pre-empted since (`out`), or another region holds the
core. A group lit there since, and one that was being bound, go back to their queue. -/
def Fabric.rollCore (f : Fabric) (reg : Nat) (out : Sparse Core) (p : Nat × Core) : Fabric :=
  let k := f.core p.1
  match p.2.group with
  | none => f
  | some g =>
    let f := f.reviveRecord g
    if shas out g.group || (k.group.isSome && k.regionId ≠ reg) then
      let img := p.2.clean
      let img := match sfind out g.group with | some now => { img with dbg := img.dbg.keep now.dbg } | none => img
      (f.modRegion reg fun r => { r with images := sset r.images g.group img }).requeue g
    else
      let f := match k.group with | some h => if h.group = g.group then f else f.requeue h | none => f
      let f := match k.incoming with | some h => if p.2.kindling = Kindling.program then f.requeue h else f | none => f
      f.modCore p.1 fun k => { k.restored p.2 with lastRegion := reg }

/-- A core lit since the cut, which the cut does not hold, emptied and its group queued again. -/
def Fabric.unlight (f : Fabric) (reg c : Nat) : Fabric :=
  let k := f.core c
  match k.group with
  | some g => if g.region = reg then (f.requeue g).modCore c fun k => { k.idle with mx := {} } else f
  | none => f

/-- The lines of an undo log restored through the current translation (R412, step 3). -/
def Fabric.undoLines (f : Fabric) (mem : Memory) (ctx : Nat) (undo : Sparse Tok) : Memory :=
  undo.foldl
    (fun m q => match translate m (f.context ctx) ctx (q.1 * 64) with
      | .ok t => m.store (t.phys (q.1 * 64)) (natBytes 64 q.2.bits.toNat)
      | .error _ => m) mem

/-- The state of a region after a rollback: its logs become the lists of the replay (R434). -/
def Region.rewind (r : Region) : Region :=
  { r with
    rollback := false, cutting := false, fresh := [], images := r.savedImages, half := false, full := false, idle := 0
    undo := [], lines := []
    replay := (r.commits.filter fun p => p.2 ≠ 2048) ++ r.replay
    commits := []
    redo := r.inputs.filter (·.kept) ++ r.redo
    inputs := r.inputs.filter fun x => !x.kept
    rowsBack := r.rowsIn ++ r.rowsBack, rowsIn := [] }

/-- A rollback to the last complete cut (R412): every element's state is discarded, the saved state, the logged lines and the logged
network rows take its place, and the sources start again. -/
def Fabric.rollback (f : Fabric) (mem : Memory) (reg : Nat) : Memory × Fabric :=
  let r := f.region reg
  let here := (f.cores.filter fun q => q.2.group.isSome && q.2.regionId = reg).map Prod.fst
  let holds := f.regionHolds reg
  let mem := here.foldl f.flushCore mem
  let mem := f.undoLines mem r.context r.undo
  let f := f.modUnits fun u =>
    { u with
      reqs := u.reqs.filter fun q => !here.contains q.who.core
      stores := u.stores.filter fun q => q.region ≠ reg }
  let f := f.pruneHome.modRegion reg Region.rewind
  let f := (here.filter fun c => !shas r.saved c).foldl (fun f c => f.unlight reg c) f
  let f := r.saved.foldl (fun f (p : Nat × Core) => f.rollCore reg r.images p) f
  (f.swapHolds holds (f.regionHolds reg)).redoDue mem reg

/-- A core of a region, for a stop that no core of its own raises. -/
def Fabric.firstCore (f : Fabric) (reg : Nat) : Nat :=
  match f.cores.find? fun q => q.2.group.isSome && q.2.regionId = reg with | some q => q.1 | none => 0

/-- A region stopped by the Kiln with an uncorrected record's cause (R403, R407, R413). -/
def Fabric.stopAll (f : Fabric) (reg : Nat) : Fabric :=
  f.modRegion reg fun r => { r with stop := match r.stop with | none => some (f.firstCore reg, { code := 0x80 }) | x => x }

/-- A region stopped by the Kiln with an uncorrected record, which nothing else has written (R407, R413; log entry 15). -/
def Fabric.stopRecorded (f : Fabric) (reg : Nat) : Fabric :=
  (f.record (f.firstCore reg) { unit := 0, sev := 2, seq := true }).stopAll reg

/-- REGION_ROLLBACK: one that has become impossible stops the region (R413). -/
def Fabric.regionRollback (f : Fabric) (mem : Memory) (reg : Nat) : Memory × Fabric :=
  let r := f.region reg
  if !r.rollback || !r.acts then (mem, f)
  else if r.complete && !r.full then f.rollback mem reg
  else (mem, (f.modRegion reg fun r => { r with rollback := false }).stopRecorded reg)

/-- REGION_ROLLBACK. -/
def execRegionRollback (region : Nat) (s : State) : Host.Outcome State Fault Refusal :=
  memStep (fun m f => f.regionRollback m region) s

/-! ### Stops and freezes (R272, R400, R431, R432) -/

/-- The cores of a region frozen. -/
def Fabric.freezeCores (f : Fabric) (reg : Nat) : Fabric :=
  { f with cores := f.cores.map fun (q : Nat × Core) =>
      if q.2.group.isSome && q.2.regionId = reg then (q.1, { q.2 with dbg := { q.2.dbg with frozen := true } }) else q }

/-- The value of a trap register among those that a trap gives. -/
def regValue (l : List (Nat × Word)) (n : Nat) : Nat := match l.find? fun p => p.1 = n with | some p => p.2.toNat | none => 0

/-- The stop record of a region (R400, R421, Table 21-2; log entry 72). -/
def Fabric.stopRow (f : Fabric) (reg c : Nat) (t : Trap) (free : Nat → Row) : Row :=
  let r := f.region reg
  let l := t.regs free
  let hidden := (f.context r.context).isSealed
  let addr := regValue l 0x025
  completionRow r.tag.toNat 3 0 0 r.context (if hidden then addr % 65536 else addr) (regValue l 0x021)
    (if hidden then 0 else regValue l 0x022 % 65536) (if hidden then 0 else regValue l 0x026 % 65536)
    (if hidden then 0 else regValue l 0x024 % 1024) c f.units.ptp.toNat

/-- REGION_STOP (R400): the cores freeze, and a stop record is on its way. -/
def Fabric.regionStop (f : Fabric) (reg : Nat) (free : Nat → Row) : Fabric :=
  let r := f.region reg
  match r.stop with
  | some (c, t) =>
    if r.stopped then f
    else ((f.modRegion reg fun r => { r with stopped := true }).freezeCores reg).complete r.context (f.stopRow reg c t free)
  | none => f

/-- REGION_STOP. -/
def execRegionStop (region : Nat) (s : State) : Host.Outcome State Fault Refusal :=
  .next { s with fab := s.fab.regionStop region (freeFrom s.run.free), run := { s.run with free := s.run.free + 6 } }

/-- CORE_FREEZE (R431): a core of a region that has stopped or is to freeze does so, and then its clocks are gated. -/
def Fabric.coreFreeze (f : Fabric) (c : Nat) : Fabric :=
  let k := f.core c
  if k.dbg.frozen then f.modCore c fun k => { k with dbg := { k.dbg with gating := true } }
  else if k.group.isSome && !(f.region k.regionId).acts then f.modCore c fun k => { k with dbg := { k.dbg with frozen := true } }
  else f

/-- CORE_FREEZE. -/
def execCoreFreeze (core : Nat) (s : State) : Host.Outcome State Fault Refusal :=
  fabricStep (fun f => f.coreFreeze core) s

/-- RWC_STOP (R272, R432): RETIRED has reached the armed stop, or passed it with the members of a link set; the core freezes, and
the Kiln freezes the others. -/
def Fabric.rwcStop (f : Fabric) (c : Nat) : Fabric :=
  let k := f.core c
  if !(k.dbg.stop.any fun n => n ≤ k.dbg.retired) || k.dbg.frozen || k.group.isNone || (f.region k.regionId).rollback then f
  else
    (f.modRegion k.regionId fun r => { r with frozen := true }).modCore c fun k =>
      { k with dbg := { k.dbg with frozen := true, stop := none } }

/-- RWC_STOP. -/
def execRwcStop (core : Nat) (s : State) : Host.Outcome State Fault Refusal :=
  fabricStep (fun f => f.rwcStop core) s

/-- A core going on after a freeze: the replies of its skid buffer are delivered in order (R431). -/
def Fabric.thaw (f : Fabric) (c : Nat) : Fabric :=
  let skid := (f.core c).dbg.skid
  let f := f.modCore c fun k => { k with dbg := { k.dbg with frozen := false, gating := false, skid := [] } }
  (skid.foldl (fun f p => match f.req p.1 with | some r => f.respond r p.2 | none => f) f).settleSent c

/-- A frozen or stopped region resumed (R447): a stop whose cause remains stops it again, as an uncorrected error does and a trap
that a halted sequencer still holds. -/
def Fabric.resume (f : Fabric) (reg : Nat) : Fabric :=
  let r := f.region reg
  let here := (f.cores.filter fun q => q.2.group.isSome && q.2.regionId = reg).map Prod.fst
  let f := f.modRegion reg fun r => { r with stop := none, stopped := false, frozen := false }
  let f := here.foldl Fabric.thaw f
  let f := match r.stop with
    | some (c, t) => if t.code = 0x80 then f.stopRegion c t else f
    | none => f
  here.foldl
    (fun f c => match (f.core c).seq.phase, (f.core c).seq.pending with
      | .halted, t :: _ => f.stopRegion c t
      | _, _ => f) f

end Sys2Proof.Machine
end

