-- ==== Sys2Proof/Machine/Manage.lean ====
section
/-!
DEFINITION. The management context (R445 to R447), the administrator's connection (R445) and attestation (R449).
-/

namespace Sys2Proof.Machine

/-! ### Page tables written by the Kiln (R287, R288) -/

/-- Entries of a table of a level (Table 9-4). -/
def tableEntries (level : Nat) : Nat := tableBytes level / 8

/-- Whether a table of a level holds no leaf. -/
def emptyTable (m : Memory) : Nat → Nat → Bool
  | 0, _ => true
  | l + 1, table =>
    (List.range (tableEntries (l + 1))).all fun i =>
      let x := m.readNat (table + 8 * i) 8
      !bitOf x 0 || (!bitOf x 1 && emptyTable m l (field x 51 8 * 256))

/-- The leaves below a table of a level: address of the entry, level, the entry. -/
def leavesOf (m : Memory) : Nat → Nat → List (Nat × Nat × Nat)
  | 0, _ => []
  | l + 1, table =>
    (List.range (tableEntries (l + 1))).flatMap fun i =>
      let p := table + 8 * i
      let x := m.readNat p 8
      if !bitOf x 0 then [] else if bitOf x 1 then [(p, l + 1, x)] else leavesOf m l (field x 51 8 * 256)

/-- A leaf of level `target` entered for an address below a table, tables taken from the pool at `next` as they are needed: the
memory and the pool's next address. An error is the STATUS of the request: 2 where a page is mapped there already, 3 when the pool
is spent. -/
def enterLeaf (va leaf target stop : Nat) : Nat → Memory → Nat → Nat → Except Nat (Memory × Nat)
  | 0, _, _, _ => .error 2
  | l + 1, m, next, table =>
    let p := table + 8 * indexAt (l + 1) va
    let x := m.readNat p 8
    if l + 1 = target then
      if !bitOf x 0 || (!bitOf x 1 && emptyTable m l (field x 51 8 * 256)) then .ok (m.writeNat p 8 leaf, next) else .error 2
    else if !bitOf x 0 then
      let n := tableBytes l
      let a := (next + n - 1) / n * n
      if stop < a + n then .error 3
      else enterLeaf va leaf target stop l (m.writeNat p 8 (a + 1)) (a + n) a
    else if bitOf x 1 then .error 2
    else enterLeaf va leaf target stop l m next (field x 51 8 * 256)

/-- Whether `n` granules from `lo` of the peat tier are free. -/
def Units.peatFree (u : Units) (lo n : Nat) : Bool :=
  lo + n ≤ u.peatCap && !u.failedAt (0x8000000000000 + lo * 65536) && u.peat.all fun p => p.1 + p.2 ≤ lo || lo + n ≤ p.1

/-- The frame of a leaf scrubbed and free again. -/
def Fabric.freeFrame (f : Fabric) (mem : Memory) (level e : Nat) : Memory × Fabric :=
  let a := field e 51 16 * 65536
  let n := pageBytes level
  (mem.scrub a n,
   f.modUnits fun u =>
     if bitOf e 4 then { u with peat := u.peat.filter fun p => 0x8000000000000 + p.1 * 65536 ≠ a }
     else u.give (granuleOf a) (n / 65536))

/-! ### Requests and responses (R446) -/

/-- OP, CONTEXT, TAG, ARG0, ARG1 and KEY of a management request (Table 21-3). -/
def reqOp (m : Nat) : Nat := field m 39 32
def reqCtx (m : Nat) : Nat := field m 63 48
def reqTag (m : Nat) : Nat := field m 127 64
def reqArg0 (m : Nat) : Nat := field m 191 128
def reqArg1 (m : Nat) : Nat := field m 255 192
def reqKey (m : Nat) : Nat := field m 511 256

/-- Whether a request keeps the map of Table 21-3: MAGIC, reserved fields, OP, and KEY where the operation has none. -/
def requestOk (m : Nat) : Bool :=
  let op := reqOp m
  field m 31 0 = 0x4D4700B7 && field m 47 40 = 0 && 1 ≤ op && op ≤ 13 &&
    (op = 1 || op = 3 || op = 4 || (op = 8 && field m 511 268 = 0) || reqKey m = 0)

/-- The response row (Table 21-4); `addrs` are the four RMA addresses of OPEN. -/
def responseRow (m status value : Nat) (addrs : List Nat) : Row :=
  BitVec.ofNat 512
    (0x4D5200B7 + reqOp m <<< 32 + status <<< 40 + reqCtx m <<< 48 + reqTag m <<< 64 + (value % 2 ^ 64) <<< 128 +
      (ofVals 64 addrs).toNat <<< 256)

/-- What the Kiln does with a request: its STATUS and VALUE, the addresses of OPEN, and the state after it. -/
structure Reply where
  status : Nat
  value : Nat := 0
  addrs : List Nat := []
  mem : Memory
  fab : Fabric

/-- The request at the head of context 0's window taken up (R445): one that breaks its map, or comes before a key is enrolled, is
refused; `act` answers a request of its operation, none while the Kiln has still to wait. -/
def Fabric.manage (f : Fabric) (mem : Memory) (op : Nat) (act : Nat → Memory → Fabric → Option Reply) : Memory × Fabric :=
  match (f.context 0).cmd with
  | [] => (mem, f)
  | row :: _ =>
    let m := row.toNat
    if !f.units.serves || !f.isOpen 0 || (f.context 0).cplHeld ≠ [] then (mem, f)
    else
      let reply : Option Reply :=
        if !requestOk m then some { status := 1, mem := mem, fab := f }
        else if reqOp m ≠ op then none
        else if f.units.admin.isNone && op ≠ 1 then some { status := 4, mem := mem, fab := f }
        else act m mem f
      match reply with
      | none => (mem, f)
      | some r =>
        (r.mem, (r.fab.modContext 0 fun x => { x with cmd := x.cmd.drop 1 }).complete 0 (responseRow m r.status r.value r.addrs))

/-- A management operation. -/
def manageStep (op : Nat) (act : Nat → Memory → Fabric → Option Reply) (s : State) : Host.Outcome State Fault Refusal :=
  memStep (fun m f => f.manage m op act) s

/-- A request refused. -/
def refused (status : Nat) (mem : Memory) (f : Fabric) : Option Reply := some { status := status, mem := mem, fab := f }

/-- A request on an open tenant context: 1 for context 0, 2 for one that is not open (log entry 34). -/
def onContext (m : Nat) (mem : Memory) (f : Fabric) (go : Nat → Option Reply) : Option Reply :=
  let x := reqCtx m
  if x = 0 then refused 1 mem f else if !f.isOpen x then refused 2 mem f else go x

/-! ### Keys and contexts -/

/-- ENROL (R447): once; a second one is not permitted (log entry 34). -/
def execEnrol (s : State) : Host.Outcome State Fault Refusal :=
  manageStep 1 (fun m mem f =>
    if f.units.admin.isSome then refused 4 mem f
    else some { status := 0, mem := mem, fab := f.modUnits fun u => { u with admin := some (BitVec.ofNat 256 (reqKey m)) } }) s

/-- OPEN (R447): the Kiln takes a run of free granules at `place`: the page-table pool, whose first granule is the root, and behind
it the side table, twice as long (R297). The RMA addresses of the response are free values (log entry 34). -/
def openReply (place : Nat) (addrs : List Nat) (m : Nat) (mem : Memory) (f : Fabric) : Option Reply :=
  let x := reqCtx m
  let n := field (reqArg1 m) 31 0
  if x = 0 || n = 0 then refused 1 mem f
  else if f.isOpen x then refused 2 mem f
  else if !f.units.hasRun (3 * n) 1 then refused 3 mem f
  else if !f.units.freeAt place (3 * n) then none
  else
    let base := place * 65536
    let c : Context :=
      { root := base, ptBase := base, ptNext := base + 65536, ptEnd := base + n * 65536, side := base + n * 65536
        cmdCap := field (reqArg0 m) 11 0 + 1, cplCap := field (reqArg0 m) 27 16 + 1 }
    some { status := 0, value := base, addrs := addrs, mem := mem.scrub base (3 * n * 65536)
           fab := f.modUnits fun u => { u.take place (3 * n) with contexts := sset u.contexts x c } }

/-- OPEN. -/
def execOpenCtx (place : Nat) (s : State) : Host.Outcome State Fault Refusal :=
  let addrs := (List.range 4).map fun i => (freeFrom s.run.free i).toNat % 2 ^ 64
  let q := s.fab.manage s.mem 2 (openReply place addrs)
  .next { s with mem := q.1, fab := q.2, run := { s.run with free := s.run.free + 4 } }

/-- SEAL (R447): not once the context has a mapped page or a region. -/
def execSealCtx (s : State) : Host.Outcome State Fault Refusal :=
  manageStep 3 (fun m mem f => onContext m mem f fun x =>
    if !emptyTable mem 4 (f.context x).root || f.units.regions.any fun q => q.2.context = x then refused 2 mem f
    else some { status := 0, mem := mem
                fab := f.modContext x fun c => { c with isSealed := true, build := BitVec.ofNat 256 (reqKey m) } }) s

/-- CKEY (R447): `auth` tells that the connection is encrypted. -/
def execCkey (auth : Bool) (s : State) : Host.Outcome State Fault Refusal :=
  manageStep 4 (fun m mem f => onContext m mem f fun x =>
    if !auth then refused 4 mem f
    else if !(f.context x).isSealed then refused 2 mem f
    else some { status := 0, mem := mem, fab := f.modContext x fun c => { c with ckey := some (BitVec.ofNat 256 (reqKey m)) } }) s

/-- The leaf entry that a MAP asks for (R447): bits [9:2] of ARG1, SEAL that of the context. -/
def mapLeaf (arg1 : Nat) (isSealed : Bool) (frame : Nat) : Nat :=
  let a := field arg1 9 2
  3 + (a - (if bitOf a 3 then 8 else 0)) * 4 + (if isSealed then 32 else 0) + frame / 65536 * 65536

/-- MAP (R447) with the granule that the Kiln gives, of HBM or of the peat tier. -/
def mapReply (frame : Nat) (m : Nat) (mem : Memory) (f : Fabric) : Option Reply :=
  onContext m mem f fun x =>
    let c := f.context x
    let va := reqArg0 m
    let arg := reqArg1 m
    let level := field arg 1 0 + 1
    let size := pageBytes level
    let n := size / 65536
    let tier := bitOf arg 4
    if level = 4 || va % size ≠ 0 || 2 ^ 56 ≤ va || field arg 7 6 = 3 || (tier && level = 3) then refused 1 mem f
    else
      let base := if tier then 0x8000000000000 + frame * 65536 else frame * 65536
      let leaf := mapLeaf arg c.isSealed base
      match enterLeaf va leaf level c.ptEnd 4 mem c.ptNext c.root with
      | .error st => refused st mem f
      | .ok (mem', next) =>
        let some_ := if tier then (peatRun f.units.peat f.units.peatCap n).isSome else f.units.hasRun n n
        let here := frame % n = 0 && (if tier then f.units.peatFree frame n else f.units.freeAt frame n)
        if !some_ then refused 3 mem f
        else if !here then none
        else
          let mem' := mem'.scrub base size
          let mem' := if tier then mem' else mem'.setTags x base size leaf
          let f := f.modContext x fun c => { c with ptNext := next }
          some { status := 0, value := if c.isSealed then 0 else base, mem := mem'
                 fab := f.modUnits fun u => if tier then { u with peat := u.peat ++ [(frame, n)] } else u.take frame n }

/-- MAP. -/
def execMapPage (frame : Nat) (s : State) : Host.Outcome State Fault Refusal := manageStep 5 (mapReply frame) s

/-- UNMAP (R447): a page in transit is not unmapped (log entry 34). -/
def execUnmap (s : State) : Host.Outcome State Fault Refusal :=
  manageStep 6 (fun m mem f => onContext m mem f fun x =>
    let va := reqArg0 m
    if 2 ^ 56 ≤ va then refused 1 mem f
    else match (f.context x).leaf mem va with
      | none => refused 1 mem f
      | some (l, p, e) =>
        let page := va / pageBytes l * pageBytes l
        if f.inTransit x page then refused 2 mem f
        else
          let q := f.dropPage (mem.writeNat p 8 0) x page (pageBytes l)
          let q := (q.2.settlePage x page (pageBytes l)).freeFrame q.1 l e
          some { status := 0, mem := q.1, fab := q.2 }) s

/-- CONNECT (R263, R447): a connection that is open already is refused (log entry 34). -/
def execConnect (s : State) : Host.Outcome State Fault Refusal :=
  manageStep 7 (fun m mem f => onContext m mem f fun x =>
    let n := field (reqArg0 m) 7 0
    if shas (f.context x).conns n then refused 2 mem f
    else some { status := 0, mem := mem
                fab := f.modContext x fun c => { c with conns := sset c.conns n { peer := BitVec.ofNat 64 (reqArg1 m) } } }) s

/-- Whether a gang schedule entry keeps Table 10-6. -/
def gangEntryOk (e : Nat) : Bool :=
  field e 7 1 = 0 &&
    (!bitOf e 0 || (1000 ≤ field e 63 32 && 100 ≤ field e 31 16 && field e 31 16 < field e 63 32 && 1 ≤ field e 15 8))

/-- The cores that wait for an instant of a gang whose entry is no longer valid are free again (R319, R324). -/
def Fabric.freeHolds (f : Fabric) (gang e : Nat) : Fabric :=
  if bitOf e 0 then f
  else { f with cores := f.cores.map fun (q : Nat × Core) => if q.2.gangHold = some gang then (q.1, { q.2 with gangHold := none }) else q }

/-- GANG (R319, R447). -/
def execGangEntry (s : State) : Host.Outcome State Fault Refusal :=
  manageStep 8 (fun m mem f =>
    let g := field (reqKey m) 11 0
    let e := reqArg1 m <<< 64 + reqArg0 m
    if g = 0 || !gangEntryOk e then refused 1 mem f
    else some { status := 0, mem := mem
                fab := (f.modUnits fun u =>
                  { u with gangs := sset u.gangs g (BitVec.ofNat 128 e), judged := sset u.judged g 0, switched := sset u.switched g 0 }).freeHolds
                  g e }) s

/-! ### Regions -/

/-- The live region of a context that a TAG names: the oldest (R447). -/
def Fabric.tagged (f : Fabric) (ctx tag : Nat) : Option Nat :=
  (f.units.regions.find? fun q => q.2.context = ctx && q.2.tag.toNat = tag).map Prod.fst

/-- A request on a region: a TAG that names none is a bad argument (log entry 34). -/
def onRegion (m : Nat) (mem : Memory) (f : Fabric) (go : Nat → Option Reply) : Option Reply :=
  onContext m mem f fun x => match f.tagged x (reqArg0 m) with | none => refused 1 mem f | some r => go r

/-- FREEZE (R431, R447). -/
def execFreezeRegion (s : State) : Host.Outcome State Fault Refusal :=
  manageStep 9 (fun m mem f => onRegion m mem f fun r =>
    some { status := 0, mem := mem, fab := (f.modRegion r fun x => { x with frozen := true }).freezeCores r }) s

/-- RESUME (R447): of a region that is neither frozen nor stopped, 2. -/
def execResumeRegion (s : State) : Host.Outcome State Fault Refusal :=
  manageStep 10 (fun m mem f => onRegion m mem f fun r =>
    if (f.region r).acts then refused 2 mem f else some { status := 0, mem := mem, fab := f.resume r }) s

/-- ROLLBACK (R412, R447): without a complete cut to go back to, 2 (log entry 34). -/
def execRollbackRegion (s : State) : Host.Outcome State Fault Refusal :=
  manageStep 11 (fun m mem f => onRegion m mem f fun r =>
    if !(f.region r).complete || (f.region r).full then refused 2 mem f
    else
      let f := f.modRegion r fun x => { x with stop := none, stopped := false, frozen := false }
      let q := f.rollback mem r
      some { status := 0, mem := q.1, fab := q.2 }) s

/-- END (R315, R447): once the units that the region has committed are performed. -/
def execEndRegion (s : State) : Host.Outcome State Fault Refusal :=
  manageStep 12 (fun m mem f => onRegion m mem f fun r =>
    if !f.unitsSettled r then none
    else
      let q := f.endRegion mem r 0
      some { status := 0, mem := q.1, fab := q.2 }) s

/-- A context removed: its regions ended, its translations dropped, its pages unmapped and scrubbed, and what held its tables
freed (R447). -/
def Fabric.closeContext (f : Fabric) (mem : Memory) (x : Nat) : Memory × Fabric :=
  let regs := (f.units.regions.filter fun q => q.2.context = x).map Prod.fst
  let q := regs.foldl (fun q r => q.2.endRegion q.1 r 0) (mem, f)
  let c := q.2.context x
  let leaves := leavesOf q.1 4 c.root
  let q := q.2.dropWhere q.1 (fun _ => true) fun t => t.ctx = x
  let q := leaves.foldl (fun q l => q.2.freeFrame q.1 l.2.1 l.2.2) q
  let n := c.ptEnd - c.ptBase
  (q.1.scrub c.ptBase (3 * n),
   q.2.modUnits fun u =>
     { u.give (granuleOf c.ptBase) (granuleOf (3 * n)) with contexts := sdel u.contexts x })

/-- CLOSE (R447). -/
def execCloseCtx (s : State) : Host.Outcome State Fault Refusal :=
  manageStep 13 (fun m mem f => onContext m mem f fun x =>
    if f.units.regions.any fun q => q.2.context = x && !f.unitsSettled q.1 then none
    else
      let q := f.closeContext mem x
      some { status := 0, mem := q.1, fab := q.2 }) s

/-! ### The administrator and attestation (R445, R449) -/

/-- ADMIN_CONNECTION_SETUP (R445): the host proves possession of the enrolled key over a nonce (log entry 4). -/
def Fabric.adminSetup (f : Fabric) (key nonce proof_ : List Byte) : Fabric :=
  match f.units.admin with
  | none => f
  | some d =>
    if f.units.serves && (Config.shake256 key).setWidth 256 = d && Config.slhVerify key nonce proof_ then
      f.modUnits fun u => { u with adminOpen := true }
    else f

/-- ADMIN_CONNECTION_SETUP. -/
def execAdminConnectionSetup (key nonce proof_ : List (BitVec 8)) (s : State) : Host.Outcome State Fault Refusal :=
  fabricStep (fun f => f.adminSetup key nonce proof_) s

/-- An attestation report without its signature: nonce, boot and firmware measurements, and for a sealed context those of its images
(R449; log entry 4). -/
def Fabric.reportBytes (f : Fabric) (ctx : Nat) (nonce : BitVec 512) : List Byte :=
  let x := f.context ctx
  toBytes 64 nonce ++ toBytes 64 Config.bootMeasure ++ toBytes 64 (f.units.firmware.getD 0) ++
    (if x.isSealed then x.measured.flatMap (toBytes 64) else [])

/-- ATTESTATION_READ (R449): the signed report is what the read of the attestation window returns. -/
def Fabric.attest (f : Fabric) (ctx : Nat) (nonce : BitVec 512) : Fabric :=
  if f.units.serves && ctx ≠ 0 && f.isOpen ctx then
    let r := f.reportBytes ctx nonce
    f.modContext ctx fun x => { x with reports := x.reports ++ [r ++ Config.deviceSign r] }
  else f

/-- ATTESTATION_READ. -/
def execAttestationRead (ctx : Nat) (nonce : BitVec 512) (s : State) : Host.Outcome State Fault Refusal :=
  fabricStep (fun f => f.attest ctx nonce) s

end Sys2Proof.Machine
end

