-- ==== Sys2Proof/Machine/Boot.lean ====
section
/-!
DEFINITION. Bring-up (R2, R448), the expanders (R441), the clock and its throttling (R7, R451) and the PTP clock (R441).
-/

namespace Sys2Proof.Machine

/-! ### Bring-up (R448) -/

/-- The module after its firmware has been verified: the measurement is kept, context 0 is open with windows of 64 rows, and cores 0
to 31 of die 0 run at 470 MHz (R2, R445). -/
def Units.reduced (u : Units) (firmware : List Byte) : Units :=
  { u with
    service := .reduced, firmware := some (Config.shake256 firmware), enabled := List.range 32, clock := 8
    contexts := sset u.contexts 0 { cmdCap := 64, cplCap := 64 } }

/-- POWER_ON_BOOT: firmware whose signature fails leaves the module without service. -/
def execPowerOnBoot (firmware signature : List (BitVec 8)) (s : State) : Host.Outcome State Fault Refusal :=
  fabricStep (fun f =>
    if f.units.service ≠ .none then f
    else f.modUnits fun u =>
      if Config.slhVerify Config.vendorKey firmware signature then u.reduced firmware else { u with service := .dead }) s

/-- Whether the cores that training and harvesting leave may be those of the module: none twice, and those of reduced service among
them; and whether the expanders found are at most eight of up to 1 TiB (R441). -/
def trained (enabled expanders : List Nat) : Bool :=
  decide enabled.Nodup && enabled.all (· < 1024) && (List.range 32).all enabled.contains && expanders.length ≤ 8 &&
    expanders.all (· ≤ 2 ^ 24)

/-- FULL_SERVICE_START: every enabled core serves, and the clock rises to 940 MHz. -/
def execFullServiceStart (enabled expanders : List Nat) (s : State) : Host.Outcome State Fault Refusal :=
  fabricStep (fun f =>
    if f.units.service ≠ .reduced || !trained enabled expanders then f
    else f.modUnits fun u => { u with service := .full, enabled := enabled, expanders := expanders, clock := 16 }) s

/-! ### Expanders (R441) -/

/-- A page move of a failed expander ended: its frame or peat run is free again, its commands leave their queues, an uncorrected
record is on its way and the region stops. The manual gives the record no UNIT: it is a free value (log entry 35). -/
def Fabric.failMove (f : Fabric) (free : Row) (t : Transit) : Fabric :=
  let n := t.size / 65536
  let f := f.modUnits fun u =>
    { u with
      transits := u.transits.erase t
      peat := if t.inward then u.peat else u.peat.filter fun p => 0x8000000000000 + p.1 * 65536 ≠ t.frame }
  let f := if t.inward then f.modRegion t.region fun r => { r with pool := r.pool ++ (List.range n).map fun i => granuleOf t.frame + i }
    else f
  let f := f.endMoves t.ctx (if t.inward then 0x351 else 0x352) t.page
  (f.record (f.firstCore t.region) { unit := free.toNat % 14, sev := 2, seq := true, op := if t.inward then 0x351 else 0x352 }).stopAll
    t.region

/-- EXPANDER_FAILURE (R441): the moves of the expander's pages end. -/
def Fabric.expanderFails (f : Fabric) (mem : Memory) (port : Nat) (free : Nat → Row) : Fabric :=
  if f.units.expanders.length ≤ port then f
  else
    let f := f.modUnits fun u => { u with failed := if u.failed.contains port then u.failed else u.failed ++ [port] }
    let bad := f.units.transits.filter fun t => f.units.failedAt (t.peatAt mem)
    bad.zipIdx.foldl (fun f p => f.failMove (free p.2) p.1) f

/-- EXPANDER_FAILURE. -/
def execExpanderFailure (port : Nat) (s : State) : Host.Outcome State Fault Refusal :=
  .next { s with
    fab := s.fab.expanderFails s.mem port (freeFrom s.run.free)
    run := { s.run with free := s.run.free + s.fab.units.transits.length } }

/-! ### Power and temperature (R451) -/

/-- The step of the clock that service allows: 8 for 470 MHz in reduced service, 16 for 940 MHz (R2, R448). -/
def Units.topStep (u : Units) : Nat := if u.service = .full then 16 else 8

/-- THROTTLE_STEP: the clock changes by one step, down to 4 or up to the rate of the service; each open tenant context has a record
of KIND 5. -/
def Fabric.throttle (f : Fabric) (step : Nat) : Fabric :=
  let u := f.units
  if !u.serves || step < 4 || u.topStep < step || (step + 1 ≠ u.clock && step ≠ u.clock + 1) then f
  else
    let f := f.modUnits fun u => { u with clock := step }
    (skeys u.contexts).foldl
      (fun f x => if x = 0 then f else f.complete x (completionRow 0 5 step 0 x 0 0 0 0 0 0 u.ptp.toNat)) f

/-- THROTTLE_STEP. -/
def execThrottleStep (step : Nat) (s : State) : Host.Outcome State Fault Refusal := fabricStep (fun f => f.throttle step) s

/-- A region stopped by no trap: its stop record is on its way (R400). -/
def Fabric.stopNow (f : Fabric) (free : Nat → Row) (reg : Nat) : Fabric :=
  (f.modRegion reg fun r => { r with stop := match r.stop with | none => some (f.firstCore reg, { code := 0 }) | x => x }).regionStop reg free

/-- THERMAL_STOP (R451): every region stops and every clock is gated. -/
def Fabric.thermalStop (f : Fabric) (free : Nat → Row) : Fabric :=
  if f.units.service = .gated || f.units.service = .none then f
  else
    let f := (skeys f.units.regions).zipIdx.foldl (fun f p => f.stopNow (fun i => free (6 * p.2 + i)) p.1) f
    { f.modUnits fun u => { u with service := .gated, paused := true } with
      cores := f.cores.map fun (q : Nat × Core) => (q.1, { q.2 with dbg := { q.2.dbg with frozen := true, gating := true } }) }

/-- THERMAL_STOP. -/
def execThermalStop (s : State) : Host.Outcome State Fault Refusal :=
  .next { s with
    fab := s.fab.thermalStop (freeFrom s.run.free)
    run := { s.run with free := s.run.free + 6 * s.fab.units.regions.length } }

/-! ### Time (R441) -/

/-- PTP_CLOCK_DISCIPLINE: IEEE 1588 time, seconds and nanoseconds, from the ports. -/
def execPtpClockDiscipline (time : BitVec 64) (s : State) : Host.Outcome State Fault Refusal :=
  fabricStep (fun f =>
    if field time.toNat 31 0 < 1000000000 then f.modUnits fun u => { u with ptp := time, frac := 0 } else f) s

end Sys2Proof.Machine
end

