-- ==== Sys2Proof/Machine/Network.lean ====
section
/-!
DEFINITION. The tier and network queue at work (R263 to R267, R230), CPYR's rows (R251, R376), and accesses that arrive from the
network (R300, R382, R385, R386, R433, R437).
-/

namespace Sys2Proof.Machine

/-! ### Connections -/

/-- A request sent over a connection under its next sequence number (R438). -/
def Fabric.send (f : Fabric) (ctx n : Nat) (m : NetMsg) : Fabric :=
  f.modConn ctx n fun x => { x with out := x.out ++ [m], sseq := x.sseq + 1 }

/-- The connection of a command, and its remote address. -/
def NetCmd.conn (m : NetCmd) : Nat := elem 32 m.a 0
/-- The remote address of row `r` of a command. -/
def NetCmd.remote (m : NetCmd) (r : Nat) : Nat := vaAdd (elem 64 m.a 1 % 2 ^ 56) (64 * r : Nat)
/-- Whether a command sends rows: NSEND or NRED. -/
def NetCmd.sends (m : NetCmd) : Bool := m.op = 0x358 || m.op = 0x35A
/-- Whether a command has rows still to send. -/
def NetCmd.unsent (m : NetCmd) : Bool := m.sends && !m.ended && m.sent < m.total

/-- A command of the network queue replaced by its new value. -/
def Core.putNet (k : Core) (m : NetCmd) : Core :=
  { k with eng := { k.eng with net := k.eng.net.map fun x => if x.id = m.id then m else x } }

/-! ### Local reads of NSEND and NRED (R264, R266) -/

/-- The rows of a command as a copy of its region (R246, R247). -/
def NetCmd.plan (m : NetCmd) : GenCmd := { op := 0x340, desc := m.desc, win := m.win, flags := 0, a := m.b, b := 0, order := m.id }

/-- The command whose rows are read and sent now: the first with rows to send that no strike has stopped and whose connection
no earlier command still uses. -/
def netSender (conns : List Nat) : List NetCmd → Option NetCmd
  | [] => none
  | m :: r =>
    if !m.unsent then netSender conns r
    else if m.running && !(m.strike.any (·.stopped)) && !conns.contains m.conn then some m
    else netSender (m.conn :: conns) r

/-- Whether a line of a run is in hand. -/
def NetCmd.holds (m : NetCmd) (n : Nat × Nat) : Bool := m.landed.any fun x => x.row = n.1 && x.va = n.2

/-- The rows that a command may have in hand. -/
def NetCmd.ahead (m : NetCmd) : List Nat := (List.range (min 64 (m.total - m.sent))).map (m.sent + ·)

/-- The first row that wants a line, with the line's run. -/
def NetCmd.wants (m : NetCmd) (va : Nat) : Option (Nat × Nat) :=
  m.ahead.findSome? fun r => ((m.plan.needs r).find? fun n => n.2 = va && !m.holds n).map fun n => (r, n.1)

/-- The lines of a row that no row before it, from the next one on, has read for it: with them its access is performed (R436). -/
def NetCmd.owns (m : NetCmd) (r : Nat) : List (Nat × Nat) :=
  (m.plan.needs r).filter fun n => (List.range (r - m.sent)).all fun j => !(m.plan.needs (m.sent + j)).contains n

/-- The row accesses of a command that have begun and are not performed. -/
def NetCmd.openRows (m : NetCmd) : List Nat :=
  (m.landed.map Landed.own).eraseDups.filter fun r => m.sent ≤ r && !(m.owns r).all m.holds

/-- Whether every line of a row is in hand. -/
def NetCmd.ready (m : NetCmd) (r : Nat) : Bool := (m.plan.needs r).all m.holds

/-- The message that a row makes: NSEND writes it, NRED reduces its elements. -/
def NetCmd.message (m : NetCmd) (r : Nat) : NetMsg :=
  let run := m.plan.runOf r 0 0
  { op := if m.op = 0x35A then .reduce (m.flags % 4) else .write, va := m.remote r,
    row := m.plan.copyRow (landedByte m.landed run) r, n := (m.plan.sources r).flatten.length, ty := m.ty }

/-- The command with a row sent; a row that carries the ember bit is discarded (R404). -/
def NetCmd.afterSend (m : NetCmd) (marked : Bool) : NetCmd :=
  let r := m.sent
  { m with
    sent := r + 1, acked := if marked then m.acked + 1 else m.acked
    landed := m.landed.filter fun x => m.plan.runOf (r + 1) 0 0 ≤ x.row }

/-- Rows sent while the next one is ready, `n` of them at most. -/
def Fabric.sendRows : Nat → Fabric → Nat → NetCmd → Fabric
  | 0, f, c, m => f.modCore c fun k => k.putNet m
  | n + 1, f, c, m =>
    if !m.unsent || !m.ready m.sent then f.modCore c fun k => k.putNet m
    else
      let marked := m.landed.any fun x => x.data.ember && (m.plan.needs m.sent).contains (x.row, x.va)
      let f := if marked then f else f.send (f.core c).contextId m.conn (m.message m.sent)
      Fabric.sendRows n f c (m.afterSend marked)

/-- A command ended by a fault of its local reads (R263). -/
def Fabric.failNet (f : Fabric) (c : Nat) (m : NetCmd) (code va : Nat) : Fabric :=
  (f.modCore c fun k => k.putNet { m with ended := true, landed := [] }).postTrap c (engineTrap code m.op 0 0xFFFC va)

/-- A line of a command landed for row `r`: with its last line the row's access is performed (R436), and rows go out in order. -/
def Fabric.netRead (f : Fabric) (mem : Memory) (c : Nat) (m : NetCmd) (t : Trans) (va r run : Nat) (free : Row) :
    Memory × Fabric :=
  let k := f.core c
  let tok := f.engineSees mem c m.block t va free
  let mem := f.countRow mem k.contextId t false
  let m : NetCmd := { m with landed := m.landed ++ [⟨run, va, tok, r⟩] }
  let d : Nat × Option Strike × Fabric := if (m.owns r).all m.holds then
      f.rowDone k.regionId 0 m.unreported m.strike ((m.owns r).flatMap fun n => lineBytes n.2)
    else (m.unreported, m.strike, f)
  ((d.2.2.sendRows 65 c { m with unreported := d.1, strike := d.2.1 }).countAccess k.regionId va).redoLine mem k.regionId (va / 64)

/-- SLICE_ACCESS of a line of the tier and network queue. -/
def Fabric.netLine (f : Fabric) (mem : Memory) (c va : Nat) (free : Row) : Memory × Fabric :=
  let k := f.core c
  match netSender [] k.eng.net with
  | none => (mem, f)
  | some m =>
    match m.wants va with
    | none => (mem, f)
    | some (r, run) =>
      let may := m.openRows.contains r || f.mayTouch k.regionId 0 m.unreported m.openRows.length m.strike
      if k.dbg.frozen || k.cutDone || !may then (mem, f)
      else match translate mem (f.context k.contextId) k.contextId va with
        | .error code => (mem, f.failNet c m code va)
        | .ok t =>
          match f.engineFault t m.desc.layout false va with
          | some code => (mem, f.failNet c m code va)
          | none =>
            if f.lineHeld (lineOf (t.phys va)) || !f.units.here (.line c .net va) then (mem, f)
            else (f.sink (.line c .net va)).netRead mem c m t va r run free

/-! ### Start, answers, completion (R230, R263 to R267) -/

/-- ENGINE_COMMAND_START of the tier and network queue: the next command in order. An NGET asks for its rows once the earlier
commands of its connection have sent theirs; a row without lines is sent at once. -/
def Fabric.startNet (f : Fabric) (c : Nat) : Fabric :=
  let k := f.core c
  match k.eng.net.find? fun m => !m.running with
  | none => f
  | some m =>
    let busy := k.eng.net.any fun x => x.id < m.id && x.unsent && x.conn = m.conn
    if k.dbg.frozen || k.saving || k.cutDone || (m.op = 0x359 && busy) then f
    else
      let m' := { m with running := true }
      let f := f.modCore c fun k => k.putNet m'
      if m.op = 0x359 then
        f.send k.contextId m.conn { op := .read, va := m.remote 0, row := 0, n := m.total }
      else f

/-- The rows of the sender that have no lines go out in their turn. -/
def Fabric.sendReady (f : Fabric) (c : Nat) : Fabric :=
  match netSender [] (f.core c).eng.net with
  | some m => if (f.core c).dbg.frozen || (f.core c).cutDone then f else f.sendRows 65 c m
  | none => f

/-- NETWORK_ACK_RECEIVE (R264): a connection answers in order, so its earliest command with unacknowledged rows has one more
acknowledged. -/
def Core.netAck (k : Core) (conn : Nat) : Core :=
  match k.eng.net.find? fun m => m.sends && m.conn = conn && m.acked < m.sent with
  | some m => if k.dbg.frozen then k else k.putNet { m with acked := m.acked + 1 }
  | none => k

/-- NETWORK_ACK_RECEIVE. -/
def execNetworkAckReceive (core : CoreConn) (s : State) : Host.Outcome State Fault Refusal :=
  fabricStep (fun f => (f.modCore core.core fun k => k.netAck core.conn).sendReady core.core) s

/-- Whether a command awaits an answer over a connection. -/
def NetCmd.awaits (m : NetCmd) (conn : Nat) : Bool :=
  m.conn = conn && ((m.sends && m.acked < m.sent) || (m.op = 0x359 && m.running && !m.ended && m.acked < m.total))

/-- REMOTE_REFUSAL_RECEIVE (R263): the peer refuses the earliest unanswered row of a connection; a refused NGET has no more rows to
come. -/
def Fabric.netRefused (f : Fabric) (c conn : Nat) (scope : Bool) : Fabric :=
  let k := f.core c
  match k.eng.net.find? fun m => m.awaits conn with
  | none => f
  | some m =>
    if k.dbg.frozen || (scope && m.op ≠ 0x35A) then f
    else
      let m' := if m.sends then { m with acked := m.acked + 1 } else { m with ended := true }
      (f.modCore c fun k => k.putNet m').postTrap c
        (engineTrap (if scope then 0x32 else 0x34) m.op 0 0xFFFC (m.remote m.acked))

/-- REMOTE_REFUSAL_RECEIVE. -/
def execRemoteRefusalReceive (core : CoreConn) (scope : Bool) (s : State) : Host.Outcome State Fault Refusal :=
  fabricStep (fun f => f.netRefused core.core core.conn scope) s

/-- The first NGET of a connection that has rows to come, once there is room for one (R265). -/
def Core.netGetter (k : Core) (conn : Nat) : Option NetCmd :=
  (k.eng.net.find? fun m => m.op = 0x359 && m.awaits conn).filter fun m => decide (0 < k.freeRows m.win) && !k.restoring m.win

/-- NGET_ROW_ARRIVAL (R265): the row fills the window; it is logged with its window. Rows of the interval
before a rollback come again first (R412). -/
def Fabric.ngetRow (f : Fabric) (c conn : Nat) (row : BitVec 512) : Fabric :=
  let k := f.core c
  match k.netGetter conn with
  | none => f
  | some m =>
    if k.dbg.frozen then f
    else
      let here (x : Nat × Nat × Row) : Bool := x.1 = c && x.2.1 = m.win
      let t := match (f.region k.regionId).rowsBack.find? here with | some x => x.2.2 | none => row
      let f := f.modCore c fun k => (k.fillWin m.win ⟨t, false⟩).putNet { m with acked := m.acked + 1 }
      f.modRegion k.regionId fun r =>
        { r with rowsIn := r.rowsIn ++ [(c, m.win, t)], rowsBack := r.rowsBack.eraseP here, idle := 0 }

/-- NGET_ROW_ARRIVAL. -/
def execNgetRowArrival (core : CoreConn) (row : BitVec 512) (s : State) : Host.Outcome State Fault Refusal :=
  fabricStep (fun f => f.ngetRow core.core core.conn row) s

/-- Whether a command of the tier and network queue has ended. -/
def Fabric.netDone (f : Fabric) (ctx : Nat) (m : NetCmd) : Bool :=
  match m.op with
  | 0x351 | 0x352 =>
    m.running && (f.moves ctx (elem 64 m.a 0)).all fun t => t.inward ≠ (m.op = 0x351)
  | 0x359 => m.ended || (m.running && m.acked = m.total)
  | 0x360 => m.running
  | _ => (m.ended || m.sent = m.total) && m.acked = m.sent && m.strike.isNone

/-- The translations that an XINV drops: those of the context's pages among the A.e1 that begin at A.e0. -/
def NetCmd.covers (m : NetCmd) (ctx : Nat) (t : Trans) : Bool :=
  t.ctx = ctx && t.va < elem 64 m.a 0 + elem 64 m.a 1 * t.size && elem 64 m.a 0 < t.va + t.size

/-- ENGINE_COMMAND_COMPLETE of the tier and network queue: the first command that has ended leaves it, CP falling; an XINV
drops its entries in its scope (R267). -/
def Fabric.completeNet (f : Fabric) (mem : Memory) (c : Nat) : Memory × Fabric :=
  let k := f.core c
  match k.eng.net.find? (f.netDone k.contextId) with
  | none => (mem, f)
  | some m =>
    if k.dbg.frozen then (mem, f)
    else
      let f := f.modCore c fun k =>
        { k with
          eng := { k.eng with net := k.eng.net.filter fun x => x.id ≠ m.id }
          counts := { k.counts with cp := k.counts.cp - 1 } }
      if m.op = 0x360 then
        let scope := m.flags % 4
        f.dropWhere mem (fun d => if scope = 0 then d = c else if scope = 1 then dieOf d = dieOf c else true) (m.covers k.contextId)
      else (mem, f)

/-! ### CPYR (R251, R376) -/

/-- Whether the units of a window's filler are performed (R376): an actor's, or the sequencer's. -/
def Fabric.fillerDone (f : Fabric) (c w : Nat) : Bool :=
  let x := (f.core c).plane.party w true
  f.units.stores.all fun u =>
    u.core ≠ c || u.performed ||
      (match field x 31 28 with
       | 1 => !u.whos.contains (.actor c (field x 19 12 * 4 + field x 9 8))
       | 0 => !u.whos.contains (.seq c)
       | _ => true)

/-- CPYR_ROW_ARRIVAL: the oldest row of the source window fills the destination and is shrunk; a destination that the network
does not fill rejects it, and the command stops. -/
def Fabric.cpyrRow (f : Fabric) (c i : Nat) : Fabric :=
  let k := f.core c
  let y := k.gen i
  match y.cur with
  | none => f
  | some q =>
    let d := elem 32 q.a 0 * 128 + elem 32 q.a 1
    let w := elem 32 q.a 2
    let kd := f.core d
    if q.op ≠ 0x342 || y.stopped || k.dbg.frozen || kd.dbg.frozen || k.cutDone || kd.cutDone || elem 32 q.a 3 ≤ y.row ||
        k.readable q.win = 0 ||
        kd.group.isNone || !f.fillerDone c q.win then f
    else if kd.notParty w true (partyIdent 5 0) then
      (f.modCore c fun k => (k.endGen i true).pruneStrws).postTrap c (engineTrap 0x10 q.op i 0xFFFE 0xFF42)
    else if kd.freeRows w = 0 || kd.restoring w then f
    else
      let t := k.row (rowAt (k.winCfg q.win) (k.win q.win).head 0)
      ((f.modCore d fun kd => kd.fillWin w t).modCore c fun k =>
        ((k.shrinkWin q.win 1).modGen i fun y => { y with row := y.row + 1 }).crossed (768 + i)).progress k.regionId

/-- CPYR_ROW_ARRIVAL. -/
def execCpyrRowArrival (core gen : Nat) (s : State) : Host.Outcome State Fault Refusal :=
  fabricStep (fun f => f.cpyrRow core gen) s

/-! ### Arrivals (R300, R382, R385) -/

/-- What refuses an arrival, or its translation (R300). -/
def Fabric.arrive (f : Fabric) (mem : Memory) (ctx va : Nat) (write atomic : Bool) : Except MsgKind Trans :=
  match translate mem (f.context ctx) ctx va with
  | .error _ => .error .refused
  | .ok t =>
    if !bitOf t.attr 9 || (write && bitOf t.attr 2) || bitOf t.attr 4 || f.inTransit ctx va then .error .refused
    else if atomic && !bitOf t.attr 3 then .error .scope
    else .ok t

/-- Whether an arrival of a connection must wait: the connection is not open, it has not come to its slice, a slice holds it or
still applies a row that it has brought, a replay runs in a region of the context, or the line is held for a unit (R351, R364, R434,
R437). -/
def Fabric.mustWait (f : Fabric) (mem : Memory) (ctx conn va : Nat) : Bool :=
  match sfind (f.context ctx).conns conn with
  | none => true
  | some x =>
    (f.regionsOf ctx).any (fun r => (f.region r).replay ≠ [] || (f.region r).redo ≠ []) || !f.units.here (.arrival ctx conn va) ||
      (match translate mem (f.context ctx) ctx va with
       | .ok t =>
         let slice := sliceOf (lineOf (t.phys va))
         f.lineHeld (lineOf (t.phys va)) || f.connHeld ctx conn slice ||
           x.rowsIn.any fun r => match translate mem (f.context ctx) ctx r.va with
             | .ok t => sliceOf (lineOf (t.phys r.va)) = slice
             | .error _ => false
       | .error _ => false)

/-- An arrival that writes, in the input logs of the context's regions, with the line's value kept (R375, R433). -/
def Fabric.logArrival (f : Fabric) (mem : Memory) (ctx pa : Nat) (x : Logged) : Fabric :=
  (f.regionsOf ctx).foldl
    (fun f r => (f.pastNote mem r x.va pa).modRegion r fun g =>
      { g with inputs := g.inputs ++
          [{ x with before := sget 0 g.lines (x.va / 64), kept := shas g.undo (x.va / 64) }] }) f

/-- A write or atomic that has arrived performed at its slice (R382, R386), matched by remote watchpoints (R427), logged (R433) and,
as movement of the context's regions (R416), noted. -/
def Fabric.performArrival (f : Fabric) (mem : Memory) (ctx : Nat) (t : Trans) (x : Logged) : Memory × Fabric :=
  let pa := t.phys x.va
  let f := f.remoteMatch ctx x.conn (if x.op = 0 then 1 else 2) pa ((List.range x.n).map (x.va + ·)) x.seq
  let f := (f.regionsOf ctx).foldl Fabric.progress (f.logArrival mem ctx pa x)
  f.keyless mem 0 pa x.n x.op x.ty x.data x.cmp

/-- The number of a connection's next arrival. -/
def Fabric.rseqOf (f : Fabric) (ctx conn : Nat) : Nat :=
  match sfind (f.context ctx).conns conn with | some x => x.rseq | none => 0

/-- An arrival taken by its slice and numbered on its connection. -/
def Fabric.numberArrival (f : Fabric) (ctx conn va : Nat) : Fabric :=
  (f.sink (.arrival ctx conn va)).modConn ctx conn fun x => { x with rseq := x.rseq + 1 }

/-- The answer to an arrival. -/
def Fabric.answer (f : Fabric) (ctx conn : Nat) (m : NetMsg) : Fabric := f.modConn ctx conn fun x => { x with out := x.out ++ [m] }

/-- A refused arrival answered. -/
def Fabric.refuseArrival (f : Fabric) (ctx conn va : Nat) (m : MsgKind) : Fabric :=
  (f.numberArrival ctx conn va).answer ctx conn { op := m, va := va, row := 0, n := 0 }

/-- An accepted arrival counted in the side table (R297). -/
def Fabric.remoteCount (f : Fabric) (mem : Memory) (ctx : Nat) (t : Trans) : Memory :=
  mem.addCounts (f.context ctx) { t with reads := 0, writes := 0, remote := 1 }

/-- NETWORK_WRITE_ARRIVAL: bytes within one line. -/
def Fabric.writeArrival (f : Fabric) (mem : Memory) (ctx conn va : Nat) (bytes : List (BitVec 8)) : Memory × Fabric :=
  if bytes = [] || 64 < va % 64 + bytes.length || 2 ^ 56 ≤ va || f.mustWait mem ctx conn va then (mem, f)
  else match f.arrive mem ctx va true false with
    | .error m => (mem, f.refuseArrival ctx conn va m)
    | .ok t =>
      let q := (f.numberArrival ctx conn va).performArrival (f.remoteCount mem ctx t) ctx t
        { conn := conn, seq := f.rseqOf ctx conn, va := va, n := bytes.length, op := 0, ty := 15, data := bytesNat bytes, cmp := 0, before := 0 }
      (q.1, q.2.answer ctx conn { op := .done, va := va, row := 0, n := 0 })

/-- NETWORK_WRITE_ARRIVAL. -/
def execNetworkWriteArrival (ctx conn va : Nat) (bytes : List (BitVec 8)) (s : State) : Host.Outcome State Fault Refusal :=
  memStep (fun m f => f.writeArrival m ctx conn va bytes) s

/-- NETWORK_READ_ARRIVAL: `n` bytes within one line; the answer carries them, unless they carry the ember bit, which nothing sends
(R404). -/
def Fabric.readArrival (f : Fabric) (mem : Memory) (ctx conn va n : Nat) : Memory × Fabric :=
  if n = 0 || 64 < va % 64 + n || 2 ^ 56 ≤ va || f.mustWait mem ctx conn va then (mem, f)
  else match f.arrive mem ctx va false false with
    | .error m => (mem, f.refuseArrival ctx conn va m)
    | .ok t =>
      let mem := f.remoteCount mem ctx t
      let g := (f.numberArrival ctx conn va).remoteMatch ctx conn 0 (t.phys va) ((List.range n).map (va + ·)) (f.rseqOf ctx conn)
      let g := (f.regionsOf ctx).foldl Fabric.progress g
      (mem, if mem.marked (t.phys va) n then g
        else g.answer ctx conn { op := .done, va := va, row := ofBytes (mem.read (t.phys va) n), n := n })

/-- NETWORK_READ_ARRIVAL. -/
def execNetworkReadArrival (ctx conn va n : Nat) (s : State) : Host.Outcome State Fault Refusal :=
  memStep (fun m f => f.readArrival m ctx conn va n) s

/-- Whether an opcode and type name an operation of Table 6-10 on a word of 4 or 8 bytes. -/
def remoteOp (op : Nat) (ty : BitVec 4) : Bool :=
  0x200 ≤ op && op ≤ 0x209 &&
    (if op = 0x201 || op = 0x204 then ty = 14 else (4 ≤ ty.toNat && ty.toNat ≤ 7) || (op = 0x208 && ty = 14))

/-- NETWORK_ATOMIC_ARRIVAL (R300, R386): applied to the naturally aligned word; the answer carries its old value, unless that
carries the ember bit. -/
def Fabric.atomicArrival (f : Fabric) (mem : Memory) (ctx conn va : Nat) (op : Nat) (ty : BitVec 4) (b c : Nat) :
    Memory × Fabric :=
  let w := tyBytes ty
  if !remoteOp op ty || va % w ≠ 0 || 2 ^ 56 ≤ va || f.mustWait mem ctx conn va then (mem, f)
  else match f.arrive mem ctx va true true with
    | .error m => (mem, f.refuseArrival ctx conn va m)
    | .ok t =>
      let mem := f.remoteCount mem ctx t
      let old := mem.readNat (t.phys va) w
      let q := (f.numberArrival ctx conn va).performArrival mem ctx t
        { conn := conn, seq := f.rseqOf ctx conn, va := va, n := w, op := op, ty := ty, data := b % 2 ^ (8 * w),
          cmp := c % 2 ^ (8 * w), before := 0 }
      (q.1, if mem.marked (t.phys va) w then q.2
        else q.2.answer ctx conn { op := .done, va := va, row := BitVec.ofNat 512 old, n := w, ty := ty })

/-- NETWORK_ATOMIC_ARRIVAL. -/
def execNetworkAtomicArrival (ctx conn va : Nat) (op : BitVec 10) (ty : BitVec 4) (b c : BitVec 64) (s : State) :
    Host.Outcome State Fault Refusal :=
  memStep (fun m f => f.atomicArrival m ctx conn va op.toNat ty b.toNat c.toNat) s

/-- The opcode of the atomic that an NRED applies (R266). -/
def redOp (op : Nat) (ty : BitVec 4) : Nat :=
  match op with
  | 0 => if ty = 14 then 0x201 else 0x200
  | 1 => if ty = 14 then 0x204 else 0x203
  | _ => 0x202

/-- The atomic of an NRED row's next element. -/
def RowIn.atomic (x : RowIn) (conn : Nat) : Logged :=
  let w := tyBytes x.ty
  { conn := conn, seq := x.seq, va := x.va + x.next * w, n := w, op := redOp x.op x.ty, ty := x.ty,
    data := elem (8 * w) x.row x.next, cmp := 0, before := 0 }

/-- The next element of an NRED row applied as an atomic of its slice (R266, R438); the row is acknowledged with its last. -/
def Fabric.nredElement (f : Fabric) (mem : Memory) (ctx conn : Nat) (x : RowIn) (t : Trans) : Memory × Fabric :=
  let last := decide (x.n ≤ x.next + 1)
  let f := f.modConn ctx conn fun y =>
    { y with rowsIn := if last then y.rowsIn.erase x else y.rowsIn.map fun z => if z = x then { x with next := x.next + 1 } else z }
  let q := f.performArrival mem ctx t (x.atomic conn)
  (q.1, if last then q.2.answer ctx conn { op := .done, va := x.va, row := 0, n := 0 } else q.2)

/-- An NRED row that a connection has brought and that is still being applied: its atomics go on unless its slice holds the
connection (R437). -/
def Fabric.nredGoOn (f : Fabric) (mem : Memory) (ctx conn : Nat) (x : RowIn) : Memory × Fabric :=
  let wait := (f.regionsOf ctx).any fun r => (f.region r).replay ≠ [] || (f.region r).redo ≠ []
  match f.arrive mem ctx x.va true true with
  | .ok t =>
    let line := lineOf (t.phys x.va)
    if wait || f.lineHeld line || f.seqHeld ctx conn (sliceOf line) x.seq then (mem, f) else f.nredElement mem ctx conn x t
  | .error m =>
    (mem, (f.modConn ctx conn fun y => { y with rowsIn := y.rowsIn.erase x }).answer ctx conn { op := m, va := x.va, row := 0, n := 0 })

/-- NRED_ROW_ARRIVAL (R266, R300, R438): a row arrives once and its first element is applied; each further such event of the same
row applies its next element, in ascending address. -/
def Fabric.nredArrival (f : Fabric) (mem : Memory) (ctx conn va op : Nat) (ty : BitVec 4) (n : Nat) (row : Row) :
    Memory × Fabric :=
  let rows := match sfind (f.context ctx).conns conn with | some x => x.rowsIn | none => []
  match rows.find? fun x => x.va = va && x.op = op && x.ty = ty && x.n = n && x.row = row with
  | some x => f.nredGoOn mem ctx conn x
  | none =>
    if n = 0 || 64 < n * tyBytes ty || va % 64 ≠ 0 || 2 ^ 56 ≤ va || !(ty = 4 || ty = 5 || ty = 14) || 2 < op ||
        (op = 2 && ty = 14) || f.mustWait mem ctx conn va then (mem, f)
    else match f.arrive mem ctx va true true with
      | .error m => (mem, f.refuseArrival ctx conn va m)
      | .ok t =>
        let x : RowIn := { va := va, op := op, ty := ty, n := n, row := row, seq := f.rseqOf ctx conn }
        ((f.numberArrival ctx conn va).modConn ctx conn fun y => { y with rowsIn := y.rowsIn ++ [x] }).nredElement
          (f.remoteCount mem ctx t) ctx conn x t

/-- NRED_ROW_ARRIVAL. -/
def execNredRowArrival (ctx conn va : Nat) (op : BitVec 2) (ty : BitVec 4) (n : Nat) (row : BitVec 512) (s : State) :
    Host.Outcome State Fault Refusal :=
  memStep (fun m f => f.nredArrival m ctx conn va op.toNat ty n row) s

end Sys2Proof.Machine
end

