-- ==== Sys2Proof/Machine/Dataflow.lean ====
section
/-!
DEFINITION. The router operators (R218 to R222) and the circuits between the ends of a route (R255, R344 to R347, R376).
-/

namespace Sys2Proof.Machine

/-! ### Inputs and outputs -/

/-- The data token at the head of an input; an input without a route takes no part, and a token read from it is free (log entry
23). -/
def Core.inData (k : Core) (op inp : Nat) (free : Row) : Option Tok :=
  match k.inRoute op inp with
  | none => some ⟨free, false⟩
  | some r => match k.inNext r with | some b => if b.tag = 0 then some b.tok else none | none => none

/-- The core with the head of an input consumed. -/
def Core.consume (k : Core) (op inp : Nat) : Core :=
  match k.inRoute op inp with | some r => k.modIn r fun l => l.drop 1 | none => k

/-- The core with a beat emitted on an output. -/
def Core.emit (k : Core) (op out : Nat) (b : Beat) : Core :=
  match k.outRoute op out with | some (r, _) => k.modOut r fun l => l ++ [b] | none => k

/-! ### Operators -/

/-- The core with an operator's state changed. -/
def Core.modOper (k : Core) (op : Nat) (g : Oper → Oper) : Core := { k with opers := smod {} k.opers op g }

/-- The configuration of an operator that may step: lit, not frozen, not stopped by a mismatch. -/
def Core.operRuns (k : Core) (op code : Nat) : Option OperCfg :=
  if k.dbg.frozen || k.group.isNone || (k.oper op).stuck then none
  else (sfind k.plane.opers op).bind fun c => if c.op = code then some c else none

/-- A data beat; `p` is a token that decided it, whose mark it shares (R404). -/
def dataBeat (t p : Tok) : Beat := ⟨0, ⟨t.bits, t.ember || p.ember⟩⟩

/-- The core stepped by an operator, its region's move counted; `none` is no step. -/
def Fabric.operStep (f : Fabric) (c : Nat) (r : Option Core) : Fabric :=
  match r with
  | none => f
  | some k => (f.modCore c fun _ => k).modRegion (f.core c).regionId fun r => { r with idle := 0 }

/-- A step of an operator that may read free values. -/
def operEvent (c : Nat) (g : Core → Row → Row → Option Core) (s : State) : Host.Outcome State Fault Refusal :=
  let n := s.run.free
  .next { s with
    fab := s.fab.operStep c (g (s.fab.core c) (Config.freeValue n) (Config.freeValue (n + 1)))
    run := { s.run with free := n + 2 } }

/-- STEER_STEP (Table 7-8). -/
def Core.steer (k : Core) (op : Nat) (f0 f1 : Row) : Option Core := do
  let _ ← k.operRuns op 0x2C5
  let d ← k.inData op 0 f0
  let p ← k.inData op 1 f1
  let arm := if predTrue p then 0 else 1
  if k.hasSpace op arm && k.hasSpace op 2 then
    some ((((k.consume op 0).consume op 1).emit op arm (dataBeat d p)).emit op 2 ⟨0, p⟩)
  else none

/-- STEER_STEP. -/
def execSteerStep (core op : Nat) (s : State) : Host.Outcome State Fault Refusal :=
  operEvent core (fun k a b => k.steer op a b) s

/-- MERGE_STEP (Table 7-8). -/
def Core.merge (k : Core) (op : Nat) (f0 f1 : Row) : Option Core := do
  let _ ← k.operRuns op 0x2C6
  let p ← k.inData op 2 f1
  let arm := if predTrue p then 0 else 1
  let d ← k.inData op arm f0
  if k.hasSpace op 0 then some (((k.consume op 2).consume op arm).emit op 0 (dataBeat d p)) else none

/-- MERGE_STEP. -/
def execMergeStep (core op : Nat) (s : State) : Host.Outcome State Fault Refusal :=
  operEvent core (fun k a b => k.merge op a b) s

/-- CARRY_STEP (Table 7-8): phase 0 INIT, 1 LOOP. -/
def Core.carry (k : Core) (op : Nat) (f0 f1 : Row) : Option Core := do
  let _ ← k.operRuns op 0x2C7
  if (k.oper op).phase = 0 then
    let d ← k.inData op 0 f0
    if k.hasSpace op 0 then some (((k.consume op 0).emit op 0 ⟨0, d⟩).modOper op fun o => { o with phase := 1 }) else none
  else
    let p ← k.inData op 2 f1
    if !predTrue p then some ((k.consume op 2).modOper op fun o => { o with phase := 0 })
    else
      let d ← k.inData op 1 f0
      if k.hasSpace op 0 then some (((k.consume op 2).consume op 1).emit op 0 (dataBeat d p)) else none

/-- CARRY_STEP. -/
def execCarryStep (core op : Nat) (s : State) : Host.Outcome State Fault Refusal :=
  operEvent core (fun k a b => k.carry op a b) s

/-- INVARIANT_STEP (Table 7-8): EMPTY while nothing is held. -/
def Core.keepValue (k : Core) (op : Nat) (f0 f1 : Row) : Option Core := do
  let _ ← k.operRuns op 0x2C8
  match (k.oper op).held with
  | none =>
    let d ← k.inData op 0 f0
    if k.hasSpace op 0 then some (((k.consume op 0).emit op 0 ⟨0, d⟩).modOper op fun o => { o with held := some d }) else none
  | some v =>
    let p ← k.inData op 1 f1
    if !predTrue p then some ((k.consume op 1).modOper op fun o => { o with held := none })
    else if k.hasSpace op 0 then some ((k.consume op 1).emit op 0 (dataBeat v p)) else none

/-- INVARIANT_STEP. -/
def execInvariantStep (core op : Nat) (s : State) : Host.Outcome State Fault Refusal :=
  operEvent core (fun k a b => k.keepValue op a b) s

/-- The count of a range with a step (R220, R221); a step of 0 gives none. -/
def rangeCount (start end_ step : Int) : Nat :=
  if step = 0 then 0 else (-((start - end_) / step)).toNat

/-- Element `i` of a row read as s32. -/
def s32At (r : Row) (i : Nat) : Int := signedOf 32 (elem 32 r i)

/-- The count of level `j` of a counter chain. -/
def OperCfg.count (c : OperCfg) (j : Nat) : Nat :=
  let b := c.b
  let start := s32At b (3 * j); let stop := s32At b (3 * j + 1); let step := s32At b (3 * j + 2)
  if 0 < step then rangeCount start stop step else rangeCount (-start) (-stop) (-step)

/-- What a counter chain emits next from the iterations of its open passes, outermost first: an index token (none) or the
end-of-dimension token of a level, with the iterations after it; `n` bounds the passes opened on the way (R220). -/
def OperCfg.chainNext (c : OperCfg) : Nat → List Nat → Option Nat × List Nat
  | 0, ix => (none, ix)
  | n + 1, ix =>
    let levels := elem 32 c.a 0
    let j := ix.length - 1
    let i := ix.getLast?.getD 0
    let bump (l : List Nat) : List Nat := match l.getLast? with | some x => l.dropLast ++ [x + 1] | none => []
    if c.count j ≤ i then (some (levels - j), bump ix.dropLast)
    else if j + 1 < levels then c.chainNext n (ix ++ [0])
    else (none, bump ix)

/-- The iterations that an index token is emitted for. -/
def OperCfg.chainOpen (c : OperCfg) : Nat → List Nat → List Nat
  | 0, ix => ix
  | n + 1, ix => if ix.length < elem 32 c.a 0 then c.chainOpen n (ix ++ [0]) else ix

/-- The index token of a counter chain's iterations (R220). -/
def OperCfg.chainToken (c : OperCfg) (ix : List Nat) : Row :=
  let at_ (j : Nat) : Int := s32At c.b (3 * j) + (ix.getD j 0 : Int) * s32At c.b (3 * j + 2)
  let n := elem 32 c.a 0
  let flags := ((List.range n).map fun j =>
    (if ix.getD j 0 = 0 then 2 ^ (2 * j) else 0) + (if ix.getD j 0 + 1 = c.count j then 2 ^ (2 * j + 1) else 0)).sum
  ofElems 32 16 fun e => if e < n then wrapTo 32 (at_ e) else if e = 4 then flags else 0

/-- CHAIN_INDEX_EMIT (R220): a credit token that waits is taken; a run is begun by a trigger, or once from lighting; else the next
token is emitted. `phase` 1 is a run without trigger that is over. -/
def Core.chain (k : Core) (op : Nat) : Option Core := do
  let c ← k.operRuns op 0x2C9
  let creditIn := (k.inRoute op 1).isSome
  let k := match k.inHead op 1 with
    | some b => if b.tag = 0 then (k.consume op 1).modOper op fun o => { o with credit := o.credit + 1 } else k
    | none => k
  let o := k.oper op
  if !o.started then
    match k.inRoute op 0 with
    | some _ =>
      match k.inHead op 0 with
      | some b =>
        if b.tag = 0 then some ((k.consume op 0).modOper op fun o => { o with started := true, ix := [0] }) else some k
      | none => some k
    | none => if o.phase = 1 then some k else some (k.modOper op fun o => { o with started := true, ix := [0] })
  else if !k.hasSpace op 0 then some k
  else
    match c.chainNext 5 o.ix with
    | (some level, ix) =>
      some ((k.emit op 0 ⟨level, {}⟩).modOper op fun o =>
        { o with ix := ix, started := ix ≠ [], phase := if ix = [] && (k.inRoute op 0).isNone then 1 else o.phase })
    | (none, ix) =>
      if creditIn && o.credit + elem 32 c.a 2 ≤ o.sent then some k
      else
        some ((k.emit op 0 ⟨0, ⟨c.chainToken (c.chainOpen 5 o.ix), false⟩⟩).modOper op fun o =>
          { o with ix := ix, sent := o.sent + 1 })

/-- CHAIN_INDEX_EMIT. -/
def execChainIndexEmit (core op : Nat) (s : State) : Host.Outcome State Fault Refusal :=
  operEvent core (fun k _ _ => (k.chain op).bind fun k' => if k' = k then none else some k') s

/-- The count of a loop generator's bound (R221). -/
def loopCount (b : Row) : Nat :=
  let step := s32At b 2
  if 0 < step then rangeCount (s32At b 0) (s32At b 1) step
  else rangeCount (-(s32At b 0)) (-(s32At b 1)) (-step)

/-- LOOP_INDEX_EMIT (R221): the next bound is consumed, or the next index or the end token of the bound is emitted. -/
def Core.loopStep (k : Core) (op : Nat) (free : Row) : Option Core := do
  let c ← k.operRuns op 0x2CA
  let o := k.oper op
  if !o.started then
    let b ← k.inData op 0 free
    some ((k.consume op 0).modOper op fun o =>
      { o with started := true, bound := b.bits, ix := [0], held := some ⟨0, b.ember⟩ })
  else if !k.hasSpace op 0 then none
  else
    let i := o.ix.headD 0
    let n := loopCount o.bound
    let ember := match o.held with | some t => t.ember | none => false
    if n ≤ i then
      some ((k.emit op 0 ⟨field c.arg 2 0, {}⟩).modOper op fun o => { o with started := false, ix := [], held := none })
    else
      let v := s32At o.bound 0 + (i : Int) * s32At o.bound 2
      let flags := (if i = 0 then 1 else 0) + (if i + 1 = n then 2 else 0)
      let t := ofElems 32 16 fun e => if e = 0 then wrapTo 32 v else if e = 4 then flags else 0
      some ((k.emit op 0 ⟨0, ⟨t, ember⟩⟩).modOper op fun o => { o with ix := [i + 1] })

/-- LOOP_INDEX_EMIT. -/
def execLoopIndexEmit (core op : Nat) (s : State) : Host.Outcome State Fault Refusal :=
  operEvent core (fun k a _ => k.loopStep op a) s

/-- CORNER_TURN_STEP (R222): phase 0 fills, 1 drains; a control token behind a part of a block completes it with zeros. -/
def Core.turn (k : Core) (op : Nat) (free : Row) : Option Core := do
  let _ ← k.operRuns op 0x2CB
  let o := k.oper op
  if o.phase = 0 then
    match k.inHead op 0, k.inRoute op 0 with
    | some b, _ =>
      if b.tag = 0 then
        let buf := o.buf ++ [b.tok]
        some ((k.consume op 0).modOper op fun o => { o with buf := buf, phase := if buf.length = 16 then 1 else 0, ix := [0] })
      else if o.buf = [] then none
      else some (k.modOper op fun o => { o with buf := o.buf ++ List.replicate (16 - o.buf.length) {}, phase := 1, ix := [0] })
    | none, some _ => none
    | none, none =>
      let buf := o.buf ++ [⟨free, false⟩]
      some (k.modOper op fun o => { o with buf := buf, phase := if buf.length = 16 then 1 else 0, ix := [0] })
  else if !k.hasSpace op 0 then none
  else
    let j := o.ix.headD 0
    let t : Tok := ⟨ofElems 32 16 fun e => elem 32 (o.buf.getD e {}).bits j, o.buf.any (·.ember)⟩
    some ((k.emit op 0 ⟨0, t⟩).modOper op fun o =>
      if j = 15 then { o with phase := 0, buf := [], ix := [] } else { o with ix := [j + 1] })

/-- CORNER_TURN_STEP. -/
def execCornerTurnStep (core op : Nat) (s : State) : Host.Outcome State Fault Refusal :=
  operEvent core (fun k a _ => k.turn op a) s

/-- Whether an operator has nothing of its own still to emit before a control token passes it. -/
def Core.operIdle (k : Core) (op code : Nat) : Bool :=
  let o := k.oper op
  if code = 0x2C9 || code = 0x2CA then !o.started else if code = 0x2CB then o.phase = 0 && o.buf = [] else true

/-- CONTROL_TOKEN_PASS (R218): identical control tokens on every attached input pass as one on every attached output; differing
ones stop the operator with CTRL_MISMATCH. -/
def Fabric.controlPass (f : Fabric) (c op : Nat) : Fabric :=
  let k := f.core c
  match sfind k.plane.opers op with
  | none => f
  | some cfg =>
    let sh := operPorts cfg.op
    let ins := (List.range sh.1).filter fun i => (k.inRoute op i).isSome
    let heads := ins.map (k.inHead op)
    let tags := heads.filterMap fun h => h.map (·.tag)
    if k.dbg.frozen || k.group.isNone || (k.oper op).stuck || !k.operIdle op cfg.op || ins = [] || heads.any (·.isNone) ||
        tags.any (· = 0) then f
    else if tags.all (· = tags.headD 0) then
      if (List.range sh.2).all (k.hasSpace op) then
        let k := ins.foldl (fun k i => k.consume op i) k
        f.operStep c (some ((List.range sh.2).foldl (fun k o => k.emit op o ⟨tags.headD 0, {}⟩) k))
      else f
    else
      (f.modCore c fun k => k.modOper op fun o => { o with stuck := true }).postTrap c
        { code := 0x11, async := true, addr := op, src := .engine }

/-- CONTROL_TOKEN_PASS. -/
def execControlTokenPass (core op : Nat) (s : State) : Host.Outcome State Fault Refusal :=
  fabricStep (fun f => f.controlPass core op) s

/-! ### Circuits -/

/-- The next row or control token of a landing window taken into the outbound buffer of its circuit (R255, R371, R376). -/
def Fabric.takeBeat (f : Fabric) (c route : Nat) : Option Fabric := do
  let k := f.core c
  let e ← sfind k.plane.ends (route * 2)
  let w := e.obj
  if e.kind ≠ 0 || e.depth ≤ (k.outBeats route).length then none
  else
    let n := k.win w
    match n.ctl.find? fun p => p.1 = 0 with
    | some (_, level) =>
      some (f.modCore c fun k =>
        (k.modWin w fun n => { n with ctl := n.ctl.erase (0, level) }).modOut route fun l => l ++ [⟨level, {}⟩])
    | none =>
      if k.readable w = 0 || !f.fillerDone c w then none
      else
        let t := k.row (rowAt (k.winCfg w) n.head 0)
        some (f.modCore c fun k => (k.shrinkWin w 1).modOut route fun l => l ++ [⟨0, t⟩])

/-- A beat of a route that reaches its receive buffer. A marker on a back edge asks nothing of its core; what comes ahead of a
snapshot marker to a core that has passed is part of that core's saved state (R410). -/
def Fabric.landBeat (f : Fabric) (c d route : Nat) (b : Beat) : Fabric :=
  let k := f.core c
  if 8 ≤ b.tag && f.isBack k.regionId route then f
  else
    let f := f.modCore d fun k => k.modIn route fun l => l ++ [b]
    let ahead := !k.cutDone || (k.outBeats route).any (fun x => x.tag = 9) || (k.airBeats route).any fun x => x.2.tag = 9
    if (f.core d).cutDone && ahead then
      f.modRegion k.regionId fun r => { r with fresh := r.fresh.map fun q =>
        if q.1 = d then (d, q.2.modIn route fun l => l ++ [b]) else q }
    else f

/-- Whether the head of an outbound buffer may be sent: behind a marker that has been sent nothing is until the core across passes,
or until the sender is lit again (R347). -/
def Fabric.maySend (f : Fabric) (c d : Nat) (b : Beat) : Bool :=
  8 ≤ b.tag || (!(f.core c).saving && (!(f.core c).cutDone || (f.core d).cutDone))

/-- The head of an outbound buffer sent over its circuit, when a credit is held: the receive buffer has one entry for each latch of
the path plus 2 (R346). On a path that crosses die edges the beat has then to cross their lanes. -/
def Fabric.sendBeat (f : Fabric) (c route : Nat) : Option Fabric := do
  let k := f.core c
  let b ← (k.outBeats route).head?
  let d ← f.peerOf k.regionId route
  if f.units.paused || f.recvDepth k.regionId route ≤ ((f.core d).inBeats route).length + (k.airBeats route).length ||
      !f.maySend c d b then none
  else
    let f := f.modCore c fun k => (k.modOut route fun l => l.drop 1).crossed (256 + route)
    if f.edgesOf k.regionId route = 0 then f.landBeat c d route b
    else f.modCore c fun k => { k with ends := smod {} k.ends (route * 2) fun e => { e with air := e.air ++ [(0, b)] } }

/-- CIRCUIT_BEAT_SEND (R346): a beat is sent, or one is taken from the landing window; where both could happen, which comes is
free. -/
def Fabric.circuitSend (f : Fabric) (c route : Nat) (free : Row) : Fabric :=
  if (f.core c).dbg.frozen || (f.core c).group.isNone then f
  else
    let r := match f.sendBeat c route, f.takeBeat c route with
      | some g, some h => some (if free.getLsbD 0 then g else h)
      | some g, none => some g
      | none, h => h
    match r with
    | some g => g.modRegion (f.core c).regionId fun r => { r with idle := 0 }
    | none => f

/-- CIRCUIT_BEAT_SEND. -/
def execCircuitBeatSend (core route : Nat) (s : State) : Host.Outcome State Fault Refusal :=
  .next { s with
    fab := s.fab.circuitSend core route (Config.freeValue s.run.free)
    run := { s.run with free := s.run.free + 1 } }

/-- CIRCUIT_BEAT_RECEIVE (R346): a beat moves from the receive buffer into its landing window, which returns a credit; a control
beat occupies no row (R344). -/
def Core.receiveBeat (k : Core) (route : Nat) : Option Core := do
  let e ← sfind k.plane.ends (route * 2 + 1)
  let b ← k.inNext route
  let k' := k.modIn route fun l => l.drop 1
  if e.kind ≠ 0 || k.dbg.frozen || k.restoring e.obj then none
  else if b.tag ≠ 0 then some (k'.modWin e.obj fun n => { n with ctl := n.ctl ++ [(n.f, b.tag)] })
  else if k.freeRows e.obj = 0 then none
  else some (k'.fillWin e.obj b.tok)

/-- CIRCUIT_BEAT_RECEIVE. -/
def execCircuitBeatReceive (core route : Nat) (s : State) : Host.Outcome State Fault Refusal :=
  fabricStep (fun f => f.operStep core ((f.core core).receiveBeat route)) s

end Sys2Proof.Machine
end

