-- ==== Sys2Proof/Machine/Fences.lean ====
section
/-!
DEFINITION. FENCE and XFENCE (R190, R191), with what the engine classes have performed at a scope (R366, Table 15-1).
-/

namespace Sys2Proof.Machine

/-- Whether the accesses of a generator's command are performed at a scope (log entry 7): beyond core scope every line of its rows,
and for a CPYR every row moved; at core scope all its lines may have been sent once its last row is in hand. -/
def Core.genPerformed (k : Core) (y : Gen) (q : GenCmd) (scope : Nat) : Bool :=
  match q.total with
  | none => false
  | some n =>
    if q.op = 0x342 then decide (n ≤ y.row)
    else if scope = 0 then decide (n ≤ y.row + (k.rowsAhead y q).length)
    else (List.range (n - y.row)).all fun j => if q.writes then y.rowWritten q (y.row + j) else y.rowLanded q (y.row + j)

/-- Whether the rows of a window image are performed at a scope; at core scope all may have been sent once their number is known. -/
def Image.performedAt (m : Image) (scope : Nat) : Bool :=
  if scope = 0 then m.save || decide (0 < m.pos) else decide (m.total ≤ m.pos)

/-- Whether the operand reads of a matrix command are performed: an MXRUN's rows, an MXLDW's lines; of a chained half they are its
copy's, and an MXTHR, MXSTAT, MXPEEK or MXSEL has none. -/
def MxCmd.readsDone (m : MxCmd) : Bool :=
  match m.kind with
  | 0 => m.chain.isSome || decide (m.count ≤ m.admitted)
  | 1 => (List.range (m.recCount - m.written)).all fun i => (m.recLines (m.written + i)).all (m.holds (m.written + i))
  | _ => true

/-- Whether a network command has been performed at a scope: left the port, or at system scope answered to its last row. -/
def NetCmd.performedAt (m : NetCmd) (scope : Nat) : Bool :=
  m.op < 0x358 || 0x35A < m.op || m.ended ||
    (if scope = 3 then m.running && decide (m.acked = m.total) else if m.op = 0x359 then m.running else decide (m.sent = m.total))

/-- Whether every access of an engine class by the commands of a core that entered before number `n` is performed at a scope. -/
def Core.enginesDone (k : Core) (cls scope n : Nat) : Bool :=
  match cls with
  | 1 =>
    (k.eng.gens.all fun p => p.2.queue.all (fun g => n ≤ g.order) &&
        (match p.2.cur with | some g => n ≤ g.order || k.genPerformed p.2 g scope | none => true)) &&
      k.eng.images.all fun i => n ≤ i.id || i.performedAt scope
  | 2 => k.mx.queue.all fun m => n ≤ m.id || m.readsDone
  | _ => k.eng.net.all fun m => n ≤ m.id || m.performedAt scope

/-- Whether every access of class `cls` of a core that was issued before number `n` is performed at a scope. -/
def Fabric.classDone (f : Fabric) (c cls scope n : Nat) : Bool :=
  if cls = 0 || cls = 3 then f.accessesDone c cls scope n else (f.core c).enginesDone cls scope n

/-- FENCE (R191). -/
def execFence (d : DFields) (s : State) : Host.Outcome State Fault Refusal :=
  issueStep (.fence d) (fun x f =>
    let scope := d.imm.toNat % 4
    let c := x.who.core
    match (f.core c).blockOf x.who x.exec with
    | none => f
    | some b =>
      let n := x.bound f
      let ok := match x.who with
        | .actor _ _ => f.unitsDone x.who scope && f.lowerDone b x.exec x.slot scope isEager
        | _ =>
          f.classDone c 0 scope n && f.classDone c 3 scope n &&
            f.lowerDone b x.exec x.slot scope fun i => requestIn 0 i || requestIn 3 i
      if ok then x.fenced scope true f else x.hold f) s

/-- XFENCE (R191): class X of imm16[3:0] against class Y, at the scope of imm16[9:8]. -/
def execXfence (d : DFields) (s : State) : Host.Outcome State Fault Refusal :=
  issueStep (.xfence d) (fun x f =>
    let cls := d.imm.toNat % 16
    let scope := d.imm.toNat / 256 % 4
    match (f.core x.who.core).blockOf x.who x.exec with
    | none => f
    | some b =>
      if f.classDone x.who.core cls scope (x.bound f) && f.lowerDone b x.exec x.slot scope (requestIn cls) then
        x.fenced scope (cls = 0 || cls = 3) f
      else x.hold f) s

end Sys2Proof.Machine
end

