-- ==== Sys2Proof/Machine/Lines.lean ====
section
/-!
DEFINITION. Window images in transfer (R167 to R171, R453), and the events that name an engine: a line performed (R362), a
command entered, started and completed (R230), the reports of a watched command and its strike raised (R436, R437).
-/

namespace Sys2Proof.Machine

/-! ### Window images (R168 to R171) -/

/-- Opcode of a transfer. -/
def Image.op (m : Image) : Nat := if m.save then 0x186 else 0x187

/-- A transfer replaced by its new value. -/
def Core.putImage (k : Core) (m : Image) : Core :=
  { k with eng := { k.eng with images := k.eng.images.map fun x => if x.id = m.id then m else x } }

/-- A transfer ended, CP falling. -/
def Core.endImage (k : Core) (id : Nat) : Core :=
  { k with
    eng := { k.eng with images := k.eng.images.filter fun x => x.id ≠ id }
    counts := { k.counts with cp := k.counts.cp - 1 } }

/-- A transfer ended by a fault (R169, R171); while a strike of its own is not raised the access waits (R428). -/
def Fabric.failImage (f : Fabric) (c : Nat) (m : Image) (code va : Nat) : Fabric :=
  if m.strike.isSome then f
  else (f.modCore c fun k => k.endImage m.id).postTrap c (engineTrap code m.op 0xFF 0xFFFE va)

/-- Whether an image's header may be restored into a window (R170, steps 1 to 3). -/
def Core.headerOk (k : Core) (w : Nat) (h : Row) : Bool :=
  rowBits h 31 0 = 0x575900B7 && rowBits h 47 32 = 0 && rowBits h 103 96 = 0 && rowBits h 79 64 ≤ (k.winCfg w).cap &&
    rowBits h 159 128 = k.plane.party w true && rowBits h 191 160 = k.plane.party w false

/-- A row of an image written; one that carries the ember bit is discarded (R404). -/
def Fabric.saveRow (f : Fabric) (mem : Memory) (c : Nat) (m : Image) (t : Trans) (va : Nat) : Memory × Fabric :=
  let reg := (f.core c).regionId
  let row := m.rows.getD m.pos {}
  let bytes := (lineBytes va).zipIdx.map fun p => (p.1, 255, elem 8 row.bits p.2)
  let q := if row.ember then (mem, f) else f.engineWrite mem reg t va bytes
  let d := Fabric.rowDone q.2 reg 1 m.unreported m.strike (lineBytes va)
  (f.countRow q.1 (f.core c).contextId t true, d.2.2.modCore c fun k =>
    { k.putImage { m with pos := m.pos + 1, unreported := d.1, strike := d.2.1 } with credits := k.credits - 1 })

/-- A row of an image read; the header tells how many follow, and a header that does not fit ends the transfer, after the WATCH of a
strike that its own read makes. -/
def Fabric.restRow (f : Fabric) (mem : Memory) (c : Nat) (m : Image) (t : Trans) (va : Nat) (free : Row) : Memory × Fabric :=
  let k := f.core c
  let tok := f.engineSees mem c m.block t va free
  let mem := f.countRow mem k.contextId t false
  let d := f.rowDone k.regionId 0 m.unreported m.strike (lineBytes va)
  let m := { m with
    pos := m.pos + 1, rows := m.rows ++ [tok], unreported := d.1, strike := d.2.1
    total := if m.pos = 0 then 1 + rowBits tok.bits 79 64 else m.total
    failed := m.pos = 0 && !k.headerOk m.win tok.bits }
  let f := d.2.2.modCore c fun k => k.putImage m
  let f := if m.failed then f.failImage c m 0x22 m.va else f
  (f.countAccess k.regionId va).redoLine mem k.regionId (va / 64)

/-- SLICE_ACCESS of a row of a transfer: its rows go in order. -/
def Fabric.imageLine (f : Fabric) (mem : Memory) (c id va : Nat) (free : Row) : Memory × Fabric :=
  let k := f.core c
  match k.eng.images.find? fun x => x.id = id with
  | none => (mem, f)
  | some m =>
    let kind := if m.save then 1 else 0
    if m.failed || m.total ≤ m.pos || vaAdd m.va (64 * m.pos : Nat) ≠ va || k.dbg.frozen || (k.saving && m.pos = 0) || (m.save &&
        (k.credits = 0 || k.cutDone)) ||
        !f.mayTouch k.regionId kind m.unreported 0 m.strike then (mem, f)
    else match translate mem (f.context k.contextId) k.contextId va with
      | .error code => (mem, f.failImage c m code va)
      | .ok t =>
        match f.accessFault t m.save va with
        | some code => (mem, f.failImage c m code va)
        | none =>
          if f.lineHeld (lineOf (t.phys va)) || !f.units.here (.line c (.image id) va) then (mem, f)
          else if m.save then (f.sink (.line c (.image id) va)).saveRow mem c m t va
          else (f.sink (.line c (.image id) va)).restRow mem c m t va free

/-- The block in progress of an actor changed, trapped or not. -/
def Core.modExecAny (k : Core) (a : Nat) (g : Exec → Exec) : Core :=
  k.modActor a fun y => { y with firing := y.firing.map fun z => { z with exec := g z.exec } }

/-- A firing of the restored window's reader: aborted, or when pinned trapped with its partial state, to go on against the
restored window (R170, R453). -/
def Core.restoreReader (k : Core) (w n : Nat) : Core :=
  let x := k.plane.party w false
  let a := field x 19 12 * 4 + field x 9 8
  match field x 31 28, (k.actor a).firing with
  | 1, some g =>
    if g.phase ≠ .running then k
    else if g.pinned then
      (k.trapPinned a .wrest).modExecAny a fun e =>
        { e with snap := { e.snap with f0 := sset e.snap.f0 w n, head0 := sset e.snap.head0 w 0 } }
    else k.abort a
  | _, _ => k

/-- A window rebuilt from an image (R170, step 5). -/
def Core.placeRows (k : Core) (w : Nat) (rows : List Tok) : Core :=
  let k := k.restoreReader w rows.length
  let k := k.modWin w fun x => { x with head := 0, f := rows.length, unrel := [], ctl := [] }
  rows.zipIdx.foldl (fun k p => k.setRow (rowAt (k.winCfg w) 0 p.2) p.1) k

/-- ENGINE_COMMAND_COMPLETE of a window image. -/
def Fabric.completeImage (f : Fabric) (c id : Nat) : Fabric :=
  let k := f.core c
  match k.eng.images.find? fun x => x.id = id with
  | none => f
  | some m =>
    if k.dbg.frozen || (m.pos < m.total && !m.failed) || m.strike.isSome then f
    else if m.failed then f.failImage c m 0x22 m.va
    else if m.save then f.modCore c fun k => k.endImage id
    else
      let rows := m.rows.tail
      if crc32c (rows.flatMap fun t => toBytes 64 t.bits) ≠ rowBits (m.rows.getD 0 {}).bits 223 192 then f.failImage c m 0x22 m.va
      else f.modCore c fun k => (k.placeRows m.win rows).endImage id

/-! ### SLICE_ACCESS -/

/-- SLICE_ACCESS (R362): one free value is drawn for a read of the streaming class (R375). -/
def Fabric.sliceAccess (f : Fabric) (mem : Memory) (x : Access) (free : Row) : Memory × Fabric :=
  match x with
  | .req id lane => f.sliceReq mem id lane free
  | .part unit line => (mem, f.partArrives unit line)
  | .line c (.gen i) va => f.genLine mem c i va free
  | .line c (.image id) va => f.imageLine mem c id va free
  | .line c .mxldw va => f.loadLine mem c va free
  | .line c .net va => f.netLine mem c va free

/-- SLICE_ACCESS. -/
def execSliceAccess (x : Access) (s : State) : Host.Outcome State Fault Refusal :=
  let q := s.fab.sliceAccess s.mem x (Config.freeValue s.run.free)
  .next { s with mem := q.1, fab := q.2, run := { s.run with free := s.run.free + 1 } }

/-! ### Entry, start and completion of commands (R230) -/

/-- ENGINE_QUEUE_ENTRY: the command that waits for room, the lowest slot's first, makes its checks again and enters, or goes on
waiting. -/
def Fabric.queueEntry (f : Fabric) (mem : Memory) (c : Nat) : Fabric :=
  let k := f.core c
  let who : Agent := .seq c
  match k.exec who with
  | none => f
  | some e =>
    let slots := e.waits.filterMap fun w => if w.2 = .queue then some w.1 else none
    match leastOf slots with
    | none => f
    | some slot =>
      match (k.blockOf who e).bind fun b => b.instrAt slot with
      | none => f
      | some i =>
        if k.dbg.frozen then f
        else
          let f := f.modCore c fun k => k.endWait who slot
          match (f.core c).exec who with
          | some e => engineGo mem i (gather who slot i e) f
          | none => f

/-- ENGINE_QUEUE_ENTRY. -/
def execEngineQueueEntry (core : Nat) (s : State) : Host.Outcome State Fault Refusal :=
  fabricStep (fun f => f.queueEntry s.mem core) s

/-- ENGINE_COMMAND_START: generators and the tier and network queue start their next command; a window image and an MXLDW run
from their entry. -/
def execEngineCommandStart (core : Nat) (eng : Eng) (s : State) : Host.Outcome State Fault Refusal :=
  fabricStep (fun f =>
    match eng with
    | .gen i => f.modCore core fun k => k.startGen i
    | .net => (f.startNet core).sendReady core
    | .image _ => f
    | .mxldw => f) s

/-- ENGINE_COMMAND_COMPLETE (R52). -/
def execEngineCommandComplete (core : Nat) (eng : Eng) (s : State) : Host.Outcome State Fault Refusal :=
  memStep (fun m f =>
    match eng with
    | .gen i => (m, f.modCore core fun k => k.completeGen i)
    | .net => f.completeNet m core
    | .image id => (m, f.completeImage core id)
    | .mxldw => (m, f.modCore core Core.completeLoad)) s

/-! ### Strikes of the copy engine (R428, R436, R437) -/

/-- SKID_REPORT: a report reaches its command's engine. -/
def Core.skidReport (k : Core) (eng : Eng) : Core :=
  if k.dbg.frozen then k
  else match eng with
    | .gen i => k.modGen i fun y => let r := reported y.unreported y.strike; { y with unreported := r.1, strike := r.2 }
    | .image id =>
      (match k.eng.images.find? fun x => x.id = id with
       | some m => let r := reported m.unreported m.strike; k.putImage { m with unreported := r.1, strike := r.2 }
       | none => k)
    | .mxldw =>
      (match k.mx.queue.find? fun m => 0 < m.unreported with
       | some m => let r := reported m.unreported m.strike; k.putMx { m with unreported := r.1, strike := r.2 }
       | none => k)
    | .net =>
      (match k.eng.net.find? fun m => 0 < m.unreported with
       | some m => let r := reported m.unreported m.strike; k.putNet { m with unreported := r.1, strike := r.2 }
       | none => k)

/-- Whether an engine has an access whose report is on its way. -/
def Core.reports (k : Core) (eng : Eng) : Bool :=
  match eng with
  | .gen i => 0 < (k.gen i).unreported
  | .image id => k.eng.images.any fun x => x.id = id && 0 < x.unreported
  | .mxldw => k.mx.queue.any fun m => 0 < m.unreported
  | .net => k.eng.net.any fun m => 0 < m.unreported

/-- SKID_REPORT. -/
def execSkidReport (core : Nat) (eng : Eng) (s : State) : Host.Outcome State Fault Refusal :=
  fabricStep (fun f => f.modCore core fun k => if k.reports eng then k.skidReport eng else k) s

/-- A strike that is to be raised: the core of its command, the engine and the command's number (0 where the engine has but one),
opcode, TRAP_SLOT's low byte, TRAP_PE, the generator for GEN. -/
structure Raising where
  core : Nat
  eng : Eng
  id : Nat
  op : Nat
  low : Nat
  pe : Nat
  gen : Nat
  strike : Strike

/-- Whether a strike's skid is final: its command has stopped and it is not yet raised. -/
def Strike.final (s : Strike) : Bool := s.stopped && !s.raised

/-- The strikes of a core's commands whose skid is final. -/
def Core.finals (k : Core) (c : Nat) : List Raising :=
  (k.eng.gens.filterMap fun q => match q.2.strike, q.2.cur with
    | some s, some m =>
      if s.final && q.2.openRows m = [] then some ⟨c, .gen q.1, 0, m.op, q.1, 0xFFFE, q.1, s⟩ else none
    | _, _ => none) ++
  (k.eng.images.filterMap fun m => match m.strike with
    | some s => if s.final then some ⟨c, .image m.id, m.id, m.op, 0xFF, 0xFFFE, 0, s⟩ else none
    | none => none) ++
  (k.mx.queue.filterMap fun m => match m.strike with
    | some s => if s.final then some ⟨c, .mxldw, m.id, m.op, 0xFF, 0xFFFD, 0, s⟩ else none
    | none => none) ++
  (k.eng.net.filterMap fun m => match m.strike with
    | some s => if s.final && m.openRows = [] then some ⟨c, .net, m.id, m.op, 0xFF, 0xFFFC, 0, s⟩ else none
    | none => none)

/-- The strike of a command marked as raised. -/
def Core.markRaised (k : Core) (eng : Eng) (id : Nat) : Core :=
  let on (s : Option Strike) : Option Strike := s.map fun x => if x.final then { x with raised := true } else x
  match eng with
  | .gen i => k.modGen i fun y => { y with strike := on y.strike }
  | .image id =>
    { k with eng := { k.eng with images := k.eng.images.map fun x => if x.id = id then { x with strike := on x.strike } else x } }
  | .mxldw =>
    { k with mx := { k.mx with queue := k.mx.queue.map fun m => if m.id = id then { m with strike := on m.strike } else m } }
  | .net =>
    { k with eng := { k.eng with net := k.eng.net.map fun m => if m.id = id then { m with strike := on m.strike } else m } }

/-- The strike of the lowest watchpoint in a list. -/
def leastStrike (l : List Raising) : Option Raising :=
  l.foldl (fun m x => match m with | some y => if x.strike.wp < y.strike.wp then some x else m | none => some x) none

/-- WATCH_RAISE (R428, R437): the WATCH of a copy-engine strike, then of a remote one whose skid is closed, in ascending watchpoint
number. -/
def Fabric.watchRaise (f : Fabric) (c : Nat) : Fabric :=
  let l := (f.cores.flatMap fun q => q.2.finals q.1).filter fun x => x.strike.wcore = c
  if (f.core c).dbg.frozen then f
  else match leastStrike l with
    | some x =>
      let s := x.strike
      let t (wp addr : Nat) : Trap :=
        { engineTrap 0x60 x.op x.low x.pe addr with info := some (wpInfo 0 0 s.skid x.gen s.kind 1 wp) }
      let f := f.modCore x.core fun k => k.markRaised x.eng x.id
      let f := f.postTrap c { t s.wp s.addr with holder := some (x.core, x.eng, x.id) }
      (s.others.map fun o => o.1).eraseDups.foldl
        (fun f d => match s.others.find? fun o => o.1 = d with
          | some o => f.postTrap d (t o.2.1 o.2.2)
          | none => f) f
    | none =>
      let all := (f.core c).dbg.remote
      match (all.filter f.strikeClosed).foldl (fun m x => match m with
        | some y => if x.strike.wp < y.strike.wp then some x else m
        | none => some x) none with
      | none => f
      | some x =>
        let f := f.modCore c fun k => { k with dbg := { k.dbg with remote := all.erase x } }
        f.postTrap c
          { code := 0x60, async := true, addr := x.strike.addr, pe := 0xFFFB, src := .engine, conn := some (x.ctx, x.conn, x.slice),
            info := some (wpInfo x.req x.conn x.strike.skid 0 x.strike.kind 2 x.strike.wp) }

/-- WATCH_RAISE. -/
def execWatchRaise (core : Nat) (s : State) : Host.Outcome State Fault Refusal :=
  fabricStep (fun f => f.watchRaise core) s

end Sys2Proof.Machine
end

