-- ==== Sys2Proof/Machine/Links.lean ====
section
/-!
DEFINITION. Units under way: their injection and landing (R349 to R352), the retry of links (R353), links declared dead (R354), and
the reroute with the losses that it reports and resolves (R355, R356, Table 13-6).
-/

namespace Sys2Proof.Machine

/-! ### Units and their places (R350, Table 13-3) -/

/-- The home site of an address of a context; none of one that is not mapped to HBM. -/
def Fabric.homeOf (f : Fabric) (mem : Memory) (ctx va : Nat) : Option Nat :=
  match translate mem (f.context ctx) ctx va with
  | .ok t => if inHbm (t.phys va) then some (homeAt (lineOf (t.phys va))) else none
  | .error _ => none

/-- The lines of an engine that are under way or have landed. -/
def Fabric.engineLines (f : Fabric) (c : Nat) (e : Eng) : List Nat :=
  f.units.flits.filterMap fun g => match g.what with | .line d x va => if d = c && x = e then some va else none | _ => none

/-- Whether an engine's next command is to touch a line. -/
def Core.engineWants (k : Core) (e : Eng) (va : Nat) : Bool :=
  match e with
  | .gen i => (k.gen i).cur.any fun q => (k.wants (k.gen i) q va).isSome
  | .image id => k.eng.images.any fun m => m.id = id && m.pos < m.total && vaAdd m.va (64 * m.pos : Nat) = va
  | .mxldw => (activeLoad [] k.mx.queue).any fun m => (m.wants va).isSome
  | .net => (netSender [] k.eng.net).any fun m => (m.wants va).isSome

/-- Whether a line that an engine is to touch is a write of a row. -/
def Core.lineWrites (k : Core) (e : Eng) : Bool :=
  match e with
  | .gen i => (k.gen i).cur.any GenCmd.writes
  | .image id => k.eng.images.any fun m => m.id = id && m.save
  | .mxldw => false
  | .net => false

/-- Row writes of a core's engines under way, each with a store credit. -/
def Fabric.writesOut (f : Fabric) (c : Nat) : Nat :=
  let k := f.core c
  (f.units.flits.filter fun g => match g.what with | .line d e va => d = c && k.lineWrites e && k.engineWants e va | _ => false).length

/-- Whether a line of an engine finds its place reserved: a row write a store credit, and no cut holds it (R352, R411); a generator's
read one of 64 lines in flight and of its landing buffer, which the row next to be placed may exceed (R333; log entry 19). -/
def Fabric.lineRoom (f : Fabric) (c : Nat) (e : Eng) (va : Nat) : Bool :=
  let k := f.core c
  if k.lineWrites e then !k.cutDone && f.writesOut c < k.credits
  else match e with
    | .gen i =>
      let y := k.gen i
      let n := (f.engineLines c e).length
      let next := y.cur.any fun q => (k.wants y q va).any fun r => r.1 = y.row
      n < 64 && (next || n + y.landed.length < 64)
    | _ => true

/-- Arrivals from an IO die that have their place in the edge engine's arrival buffer. -/
def Fabric.arrivalsOut (f : Fabric) (src : Nat) : Nat :=
  (f.units.flits.filter fun g => g.src = src && match g.what with | .arrival _ _ _ => true | _ => false).length

/-- Whether an arrival of a connection is under way or has landed; the next one follows it. -/
def Fabric.arrivalOut (f : Fabric) (ctx conn : Nat) : Bool :=
  f.units.flits.any fun g => match g.what with | .arrival x n _ => x = ctx && n = conn | _ => false

/-- The site and port from which units of a kind come. -/
def srcOf (site port : Nat) : Nat := site * 2 + port

/-- The site at which a connection's arrivals come in: that of an IO die. -/
def portSite (ctx conn : Nat) : Nat := gateway (8 + Config.portDie ctx conn % 2)

/-- The flit of a unit that its source may send now (R350, R352): wanted by what sends it, with its place reserved and, of a store, in
the order of its port (R367). PEs and the sequencer send from port 0 of their site, engines from port 1. -/
def Fabric.flitOf (f : Fabric) (mem : Memory) (x : LinkUnit) : Option Flit :=
  let flit (src dst vc : Nat) : Flit := { what := x, src := src, dst := dst, vc := vc, sseq := sget 0 f.units.mesh.sseq src }
  let still (c : Nat) (g : Flit) : Option Flit := if (f.core c).dbg.frozen then none else some g
  match x with
  | .ask id lane => do
    let r ← f.req id
    let l ← r.unsent.find? fun l => l.idx = lane
    let p ← l.pa
    if r.kind = .store || r.kind = .deferred then none
    else still r.who.core (flit (srcOf (f.coreAt r.who.core) 0) (homeAt (lineOf p.1)) 0)
  | .reply id lane => do
    let r ← f.req id
    let l ← r.lanes.find? fun l => l.idx = lane && l.got.isSome
    let p ← l.pa
    some (flit (srcOf (homeAt (lineOf p.1)) 0) (f.coreAt r.who.core) 1)
  | .line c e va =>
    if (f.core c).engineWants e va && f.lineRoom c e va then
      (f.homeOf mem (f.core c).contextId va).bind fun h => still c (flit (srcOf (f.coreAt c) 1) h 0)
    else none
  | .part id line => do
    let u ← f.units.stores.find? fun u => u.id = id
    if !(laneLines u.lanes).contains line || u.arrived.contains line || f.behindUnit u.core id [line] then none
    else still u.core (flit (srcOf (f.coreAt u.core) 0) (homeAt line) 0)
  | .ack id => do
    let u ← f.units.stores.find? fun u => u.id = id
    let line ← (laneLines u.lanes).head?
    if u.performed then some (flit (srcOf (homeAt line) 0) (f.coreAt u.core) 1) else none
  | .beat _ _ => none
  | .config s => if s < 1296 then some (flit (srcOf (gateway 8) 0) s 2) else none
  | .arrival ctx conn va =>
    let s := portSite ctx conn
    if shas (f.context ctx).conns conn && !f.arrivalOut ctx conn && f.arrivalsOut (srcOf s 0) < 512 then
      some (flit (srcOf s 0) ((f.homeOf mem ctx va).getD s) 0)
    else none

/-! ### Routers (R349, R352) -/

/-- A flit at an input of a router: in its buffer, or lost when its next hop is a dead link (R355). -/
def Fabric.enterRouter (f : Fabric) (s port : Nat) (g : Flit) : Fabric :=
  f.modUnits fun u =>
    if u.deadLinks.contains (linkOf s (u.mesh.out s g)) then { u with lost := u.lost ++ [g] }
    else { u with mesh := u.mesh.push (bufKey s port g.vc) g }

/-- A unit injected at the site of its source: not under way already, nothing but configuration while the routers pause (R355), with
room in the local input buffer; it takes the next SSEQ of its source. -/
def Fabric.inject (f : Fabric) (mem : Memory) (s : Nat) (x : LinkUnit) : Fabric :=
  match f.flitOf mem x with
  | none => f
  | some g =>
    let held := f.units.paused && match x with | .config _ => false | _ => true
    if g.src / 2 ≠ s || held || f.units.carries x || bufCap g.vc ≤ (f.units.mesh.buf (bufKey s 4 g.vc)).length then f
    else
      (f.modUnits fun u => { u with mesh := { u.mesh with sseq := sset u.mesh.sseq g.src (g.sseq + 1) } }).enterRouter s 4 g

/-- A flit at the head of a router's buffers taken by an output, when the output may take it. -/
def Fabric.takeFlit (f : Fabric) (s out : Nat) (x : LinkUnit) (room : Nat → Bool) : Option (Flit × Fabric) :=
  let m := f.units.mesh
  match (m.heads s out).find? fun h => h.2.what = x with
  | some (key, g) =>
    if m.mayTake s out f.units.cycle g.vc room then
      some (g, f.modUnits fun u => { u with mesh := u.mesh.takeFrom s out u.cycle key g.vc room })
    else none
  | none => none

/-- A unit landed at its destination, where what it was sent to takes it up; a configuration unit has done its work then, and one that
nothing awaits any longer is discarded (R26). -/
def Fabric.land (f : Fabric) (s : Nat) (x : LinkUnit) : Fabric :=
  match f.takeFlit s 4 x fun _ => true with
  | none => f
  | some (g, f) =>
    let keep := f.awaited x && match x with | .config _ => false | _ => true
    if keep then f.modUnits fun u => { u with mesh := { u.mesh with home := u.mesh.home ++ [g] } } else f

/-! ### Retry (R353) -/

/-- A link of the module. -/
def Units.link (u : Units) (n : Nat) : Link := sget {} u.links n

/-- The fabric with one link changed. -/
def Fabric.modLink (f : Fabric) (n : Nat) (g : Link → Link) : Fabric :=
  f.modUnits fun u => { u with links := smod {} u.links n g }

/-- Whether a unit is a circuit beat. -/
def LinkUnit.isBeat (x : LinkUnit) : Bool := match x with | .beat _ _ => true | _ => false

/-- Flits of a virtual channel on their way into an input of a router. -/
def Units.coming (u : Units) (t port vc : Nat) : Nat :=
  (u.links.flatMap fun q =>
    if farEnd (linkEnds q.1).1 (linkEnds q.1).2 = some (t, port) then
      q.2.crossing.filter fun e => e.flit.vc = vc && !LinkUnit.isBeat e.flit.what
    else []).length

/-- Whether the input buffer beyond an output of a router has room for a flit of a virtual channel. -/
def Units.roomBeyond (u : Units) (s out vc : Nat) : Bool :=
  match farEnd s out with
  | some (t, port) => (u.mesh.buf (bufKey t port vc)).length + u.coming t port vc < bufCap vc
  | none => false

/-- The lanes that the path of a route on a core crosses. -/
def Fabric.lanesOf (f : Fabric) (c route : Nat) : List Nat :=
  match (f.region (f.core c).regionId).path route with | some p => RoutePath.lanes p | none => []

/-- The next new unit on a link: a flit of its router, or a circuit beat that stands before the lane. -/
def Fabric.takeUnit (f : Fabric) (n : Nat) (x : LinkUnit) : Option (Flit × Fabric) :=
  let e := linkEnds n
  match x with
  | .beat c route =>
    let here := ((f.core c).airBeats route).filter fun b => (f.lanesOf c route)[b.1]? = some n
    let sent := (f.units.link n).crossing.filter fun y => y.flit.what = x
    if sent.length < here.length then some ({ what := x, src := srcOf (f.coreAt c) 0 }, f) else none
  | x => f.takeFlit e.1 e.2 x (f.units.roomBeyond e.1 e.2)

/-- The beats of a route that cross die edges changed. -/
def Core.modAir (k : Core) (route : Nat) (g : List (Nat × Beat) → List (Nat × Beat)) : Core :=
  { k with ends := smod {} k.ends (route * 2) fun e => { e with air := g e.air } }

/-- The first circuit beat of a route that stands before a lane passes it: before the next lane of its path, lost where that is dead,
or at its receive buffer behind the last one. -/
def Fabric.passLane (f : Fabric) (c route n : Nat) : Fabric :=
  let lanes := f.lanesOf c route
  match ((f.core c).airBeats route).find? fun b => lanes[b.1]? = some n with
  | none => f
  | some b =>
    let off := f.modCore c fun k => k.modAir route fun l => l.erase b
    match lanes[b.1 + 1]? with
    | none => (match f.peerOf (f.core c).regionId route with | some d => off.landBeat c d route b.2 | none => off)
    | some n' =>
      if f.units.deadLinks.contains n' then
        off.modUnits fun u => { u with lost := u.lost ++ [{ what := .beat c route, src := srcOf (f.coreAt c) 0 }] }
      else f.modCore c fun k => k.modAir route fun l => l.map fun y => if y = b then (b.1 + 1, b.2) else y

/-- A unit accepted at the far end of its link. -/
def Fabric.deliver (f : Fabric) (n : Nat) (g : Flit) : Fabric :=
  match g.what, farEnd (linkEnds n).1 (linkEnds n).2 with
  | .beat c route, _ => f.passLane c route n
  | _, some (t, port) => f.enterRouter t port g
  | _, none => f

/-- A unit at the receiver: the expected one is accepted; a bad one, or a gap in LSEQ, is discarded with a NAK, and what follows is
discarded until the expected one comes. -/
def Link.receive (l : Link) (lseq : Nat) (good : Bool) : Link :=
  if good && lseq = l.expect then { l with expect := (l.expect + 1) % 256, refusing := false }
  else if l.refusing then l
  else { l with refusing := true, nak := true }

/-- The next entry to replay sent again, which counts for it (R354). -/
def Link.replay (l : Link) : Link :=
  { l with
    cursor := l.cursor + 1
    buf := l.buf.zipIdx.map fun q => if q.2 = l.cursor then { q.1 with replays := q.1.replays + 1 } else q.1 }

/-- A new unit sent: it takes the next LSEQ and an entry of the 32. -/
def Link.send (l : Link) (g : Flit) : Link :=
  { l with buf := l.buf ++ [⟨l.next, g, 0⟩], cursor := l.cursor + 1, next := (l.next + 1) % 256 }

/-- A unit that has been sent, `l` being its link then, at the receiver. -/
def Fabric.received (f : Fabric) (n : Nat) (l : Link) (lseq : Nat) (g : Flit) (good : Bool) : Fabric :=
  let f := f.modLink n fun _ => l.receive lseq good
  if good && lseq = l.expect then f.deliver n g else f

/-- The next unit over a link: the entry to replay, else a new one while the retry buffer has room. -/
def Fabric.cross (f : Fabric) (n : Nat) (x : LinkUnit) (good : Bool) : Fabric :=
  let l := f.units.link n
  if l.dead || (farEnd (linkEnds n).1 (linkEnds n).2).isNone then f
  else match l.buf[l.cursor]? with
    | some e => if e.flit.what = x then f.received n l.replay e.lseq e.flit good else f
    | none =>
      if 32 ≤ l.buf.length then f
      else match f.takeUnit n x with
        | some (g, f) => f.received n (l.send g) l.next g good
        | none => f

/-- LINK_UNIT_RECEIVE: of output 5 of a site, a unit injected there; of output 4, its router's local port, one that lands; of another
output, one that crosses the link. `good` tells that its check passed. -/
def Fabric.unitReceive (f : Fabric) (mem : Memory) (n : Nat) (x : LinkUnit) (good : Bool) : Fabric :=
  let e := linkEnds n
  if e.2 = 5 then f.inject mem e.1 x else if e.2 = 4 then f.land e.1 x else f.cross n x good

/-- LINK_UNIT_RECEIVE. -/
def execLinkUnitReceive (link : Nat) (what : LinkUnit) (good : Bool) (s : State) : Host.Outcome State Fault Refusal :=
  memStep (fun m f => (m, f.unitReceive m link what good)) s

/-- The entries that a cumulative acknowledgement names freed. -/
def Link.ack (l : Link) : Link :=
  let n := l.accepted
  if n = 0 then l else { l with buf := l.buf.drop n, cursor := l.cursor - n, stall := 0 }

/-- LINK_ACK_RECEIVE. -/
def execLinkAckReceive (link : Nat) (s : State) : Host.Outcome State Fault Refusal :=
  fabricStep (fun f => if (f.units.link link).dead then f else f.modLink link Link.ack) s

/-- A replay from the LSEQ that a NAK names. -/
def Link.nakked (l : Link) : Link := if !l.nak then l else { l with nak := false, cursor := l.accepted }

/-- LINK_NAK_RECEIVE. -/
def execLinkNakReceive (link : Nat) (s : State) : Host.Outcome State Fault Refusal :=
  fabricStep (fun f => if (f.units.link link).dead then f else f.modLink link Link.nakked) s

/-- A replay from the oldest unacknowledged unit after 256 cycles without progress. -/
def Link.timeout (l : Link) : Link := if l.buf = [] || l.stall < 256 then l else { l with cursor := 0, stall := 0 }

/-- LINK_RETRY_TIMEOUT. -/
def execLinkRetryTimeout (link : Nat) (s : State) : Host.Outcome State Fault Refusal :=
  fabricStep (fun f => if (f.units.link link).dead then f else f.modLink link Link.timeout) s

/-! ### Dead links (R354, R355) -/

/-- The other direction of a link. -/
def reverseLink (n : Nat) : Option Nat :=
  let e := linkEnds n
  (farEnd e.1 e.2).map fun t =>
    if e.2 < 16 then linkOf t.1 t.2 else linkOf t.1 (16 + (t.2 - 8) * 66 + (e.2 - 16) % 66)

/-- The circuit beats of a core that stand before a lane, as lost units, and the core without them. -/
def Fabric.beatsBefore (f : Fabric) (c n : Nat) : List Flit :=
  (f.core c).ends.flatMap fun q =>
    (q.2.air.filter fun b => (f.lanesOf c (q.1 / 2))[b.1]? = some n).map fun _ =>
      { what := .beat c (q.1 / 2), src := srcOf (f.coreAt c) 0 }

/-- One direction of a link dead: what lies in its retry buffer, what its router would send over it, and the beats before it are
lost. -/
def Fabric.directionDies (f : Fabric) (n : Nat) : Fabric :=
  let l := f.units.link n
  let e := linkEnds n
  let m := f.units.mesh
  let next (g : Flit) : Bool := m.out e.1 g = e.2
  let mine (q : Nat × List Flit) : Bool := q.1 / 64 = e.1
  let waiting := m.bufs.flatMap fun q => if mine q then q.2.filter next else []
  let left (q : Nat × List Flit) : Option (Nat × List Flit) :=
    if mine q then (match q.2.filter (fun g => !next g) with | [] => none | l => some (q.1, l)) else some q
  let beats := f.cores.flatMap fun q => f.beatsBefore q.1 n
  let cut (c : Nat) (q : Nat × RouteEnd) : Nat × RouteEnd :=
    (q.1, { q.2 with air := q.2.air.filter fun b => (f.lanesOf c (q.1 / 2))[b.1]? ≠ some n })
  let f' := f.modUnits fun u =>
    { u with
      mesh := { u.mesh with bufs := u.mesh.bufs.filterMap left }
      links := sset u.links n { l with dead := true, buf := [], cursor := 0, nak := false }
      lost := u.lost ++ l.buf.map Sent.flit ++ waiting ++ beats
      deadLinks := u.deadLinks ++ [n], paused := true }
  { f' with cores := f'.cores.map fun (q : Nat × Core) => (q.1, { q.2 with ends := q.2.ends.map (cut q.1) }) }

/-- A link declared dead in both directions; the routers stop injecting. -/
def Fabric.linkDies (f : Fabric) (n : Nat) : Fabric :=
  (n :: (reverseLink n).toList).foldl (fun f n => if (f.units.link n).dead then f else f.directionDies n) f

/-- LINK_DEAD (R354): eight replays of a unit without acknowledgement. -/
def execLinkDead (link : Nat) (s : State) : Host.Outcome State Fault Refusal :=
  fabricStep (fun f => if (f.units.link link).buf.any fun e => 8 ≤ e.replays then f.linkDies link else f) s

/-- PHY_TRAINING_LOSS (R354): of a link that exists. -/
def execPhyTrainingLoss (link : Nat) (s : State) : Host.Outcome State Fault Refusal :=
  fabricStep (fun f => if (reverseLink link).isNone then f else f.linkDies link) s

/-! ### Losses (R356, Table 13-6) -/

/-- A region asked to roll back, or stopped where it cannot (R403, R413). -/
def Fabric.rollOrStop (f : Fabric) (reg : Nat) : Fabric :=
  let r := f.region reg
  if r.complete && !r.full then f.modRegion reg fun r => { r with rollback := true } else f.stopAll reg

/-- The region that the loss of a unit leaves to be rolled back, if it does. -/
def Fabric.lossRolls (f : Fabric) (x : LinkUnit) : Option Nat :=
  let ofCore (c : Nat) : Option Nat := some (f.core c).regionId
  let ofReq (id : Nat) : Option Nat := (f.req id).bind fun r =>
    let c := r.who.core
    let live := (f.issuer r).isSome
    let rolls := r.kind = .eager || match r.who with
      | .actor c a => live && (f.core c).isPinned a
      | w => live && ((f.core c).exec w).any (·.acted)
    if rolls then ofCore c else none
  let ofUnit (id : Nat) : Option Nat := (f.units.stores.find? fun u => u.id = id).map StoreUnit.region
  match x with
  | .ask id _ => ofReq id
  | .reply id _ => ofReq id
  | .line c e _ => if (f.core c).lineWrites e then ofCore c else none
  | .part id _ => ofUnit id
  | .ack id => ofUnit id
  | .beat c _ => ofCore c
  | .config _ => none
  | .arrival _ _ _ => none

/-- A load whose request or response is lost: it is given up, and its firing or block runs again (R26, R27). -/
def Fabric.lostLoad (f : Fabric) (id : Nat) : Fabric :=
  match f.req id with
  | none => f
  | some r =>
    let live := (f.issuer r).isSome
    let f := f.closeReq r
    match r.who with
    | .actor c a => if live then f.upset c a else f
    | w => if live then (f.modCore w.core Core.dropBlock).proceed w.core else f

/-- A lost unit resolved by its kind: the region rolls back; or a firing or block runs again, an engine reads the line again, a
configuration unit is sent again, and the sender of an arrival is told. A pinned firing's results take the ember bit (R27). -/
def Fabric.resolveLoss (f : Fabric) (x : LinkUnit) : Fabric :=
  let again (f : Fabric) (id : Nat) : Fabric :=
    let firing : Bool := match f.req id with | some r => r.kind ≠ .eager && (f.issuer r).isSome && !Agent.isBlock r.who | none => false
    if firing then f.lostLoad id else match f.lossRolls x with | some reg => f.rollOrStop reg | none => f.lostLoad id
  match x with
  | .ask id _ => again f id
  | .reply id _ => again f id
  | .arrival ctx conn va => f.answer ctx conn { op := .lost, va := va, row := 0, n := 0 }
  | x => match f.lossRolls x with | some reg => f.rollOrStop reg | none => f

/-- The core that stands on the site of a source. -/
def Fabric.coreOn (f : Fabric) (site : Nat) : Option Nat :=
  if 8 ≤ site / 162 then none else (List.range 128).findSome? fun i =>
    let c := site / 162 * 128 + i
    if f.coreAt c = site then some c else none

/-- The record of a source's losses: UNIT 12, the first and the last SSEQ lost. A source that has lost beats alone, which carry no
number, has free values there (log entry 32). A record of an IO die stands in the bank of the die at whose edge it lies. -/
def Fabric.lossRecord (f : Fabric) (lost : List Flit) (free : Nat → Row) (src n : Nat) : Fabric :=
  let mine := lost.filter fun g => g.src = src
  let seqs := (mine.filter fun g => !LinkUnit.isBeat g.what).map Flit.sseq
  let site := src / 2
  let die := site / 162
  let home := if die = 8 then (0, 161) else if die = 9 then (3, 161) else (die, site % 162)
  let ends := match seqs with
    | [] => ((free (2 * n)).toNat, (free (2 * n + 1)).toNat)
    | x :: l => (l.foldl min x, l.foldl max x)
  let rolls := (mine.filterMap fun g => f.lossRolls g.what).eraseDups
  let sev := if rolls = [] then 0 else if rolls.all fun r => (f.region r).complete && !(f.region r).full then 1 else 2
  f.record ((f.coreOn site).getD 1024)
    { unit := 12, sev := sev, info := (ends.1 % 65536) <<< 48 + (ends.2 % 65536) <<< 32, home := some home }

/-! ### The reroute (R355) -/

/-- Whether every unit in flight has been delivered or lost. -/
def Fabric.allStill (f : Fabric) : Bool :=
  (f.units.mesh.bufs.all fun q => q.2 = []) && (f.units.links.all fun q => q.2.crossing = []) &&
    f.cores.all fun q => q.2.ends.all fun e => e.2.air = []

/-- Whether routing tables bring a flit from a router to its destination in at most so many hops. -/
def Mesh.reaches (m : Mesh) (dst : Nat) : Nat → Nat → Bool
  | 0, _ => false
  | n + 1, s =>
    let out := m.out s { what := .config dst, dst := dst }
    if out = 4 then s = dst else match farEnd s out with | some t => m.reaches dst n t.1 | none => false

/-- Whether routing tables send nothing over a link. -/
def Mesh.avoids (m : Mesh) (n : Nat) : Bool :=
  let e := linkEnds n
  (List.range 1620).all fun dst =>
    (match sfind m.tables (e.1 * 2048 + dst) with | some o => o | none => defaultOut e.1 dst ((e.2 - 16) % 66)) ≠ e.2

/-- The routing tables with entries rewritten: router, destination, output. -/
def Mesh.rewrite (m : Mesh) (l : List (Nat × Nat × Nat)) : Mesh :=
  { m with tables := l.foldl (fun t e => sset t (e.1 * 2048 + e.2.1) e.2.2) m.tables }

/-- The regions with the paths of their routes laid anew. -/
def Units.relay (u : Units) (l : List (Nat × List RoutePath)) : Units :=
  { u with regions := u.regions.map fun q => match l.find? fun p => p.1 = q.1 with
      | some p => (q.1, { q.2 with paths := p.2 })
      | none => q }

/-- The site where a path begins; none of a route within one core. -/
def RoutePath.start (p : RoutePath) : Option Nat :=
  match p.hops with
  | .seg die x y _ _ _ :: _ => some (siteAt die x y)
  | .edge die _ _ :: _ => some (gateway die)
  | [] => none

/-- Whether a path leads the same route as another between the same places, `move` telling where those stand now. -/
def RoutePath.replaces (q p : RoutePath) (move : Nat → Nat) : Bool :=
  q.route = p.route && q.back = p.back &&
    match RoutePath.start p with
    | none => decide (q.hops = [])
    | some s => pathEnd (move s) q.hops = (pathEnd s p.hops).map move

/-- Whether new paths of regions lead the routes of the old ones, and all paths may stand. -/
def Units.relaysAll (u : Units) (l : List (Nat × List RoutePath)) : Bool :=
  (l.all fun p =>
    let old := (sget {} u.regions p.1).paths
    old.length = p.2.length && (old.zip p.2).all fun q => RoutePath.replaces q.2 q.1 id) &&
    (u.relay l).regions.all fun q => (u.relay l).mayLay q.1 q.2.paths

/-- REROUTE_COMPLETE (R355, R356): every unit in flight is settled, the routing tables and the paths of routes are written anew and
avoid the dead links; the losses are recorded, one record a source, and resolved, and injection goes on. -/
def Fabric.reroute (f : Fabric) (tables : List (Nat × Nat × Nat)) (paths : List (Nat × List RoutePath)) (free : Nat → Row) :
    Fabric :=
  let m := f.units.mesh.rewrite tables
  if !f.units.paused || !f.allStill || !f.units.deadLinks.all m.avoids || !(tables.all fun e => m.reaches e.2.1 256 e.1) ||
      !f.units.relaysAll paths then f
  else
    let lost := f.units.lost
    let f := f.modUnits fun u => { u.relay paths with mesh := m }
    let f := (lost.map Flit.src).eraseDups.zipIdx.foldl (fun f p => f.lossRecord lost free p.1 p.2) f
    let f := lost.foldl (fun f g => f.resolveLoss g.what) f
    (f.modUnits fun u => { u with lost := [], paused := false }).pruneHome

/-- REROUTE_COMPLETE. The Kiln's tables and paths are those of State's plan, after which another is drawn (log entry 58). -/
def execRerouteComplete (s : State) : Host.Outcome State Fault Refusal :=
  .next { s with
    fab := s.fab.reroute s.run.plan.tables s.run.plan.paths (freeFrom s.run.free)
    run := { s.run with free := s.run.free + 2 * s.fab.units.lost.length + 1, plan := Config.plan s.run.free } }

end Sys2Proof.Machine
end

