-- ==== Sys2Proof/Machine/LoadStore.lean ====
section
/-!
DEFINITION. The loads, stores, gathers, scatters and prefetch of R179 to R185: each forms its addresses, is checked and
translated, and becomes a request or a buffered store.
-/

namespace Sys2Proof.Machine

/-- LD (R181: 64 bytes to both targets). -/
def execLd (m : MFields) (s : State) : Host.Outcome State Fault Refusal :=
  issueStep (.ld m) (fun x f => f.loadIssue x false) s

/-- LD2 (R181: two accesses, one for each target). -/
def execLd2 (m : MFields) (s : State) : Host.Outcome State Fault Refusal :=
  issueStep (.ld2 m) (fun x f => f.loadIssue x false) s

/-- LDS (R181: SIZE bytes, extended by type). -/
def execLds (m : MFields) (s : State) : Host.Outcome State Fault Refusal :=
  issueStep (.lds m) (fun x f => f.loadIssue x false) s

/-- GATH (R181: enabled lanes, or one element). -/
def execGath (m : MFields) (s : State) : Host.Outcome State Fault Refusal :=
  issueStep (.gath m) (fun x f => f.loadIssue x false) s

/-- ST (R182: 64 bytes of B). -/
def execSt (m : MFields) (s : State) : Host.Outcome State Fault Refusal :=
  issueStep (.st m) (fun x f => f.storeIssue x) s

/-- STS (R182: the low SIZE bytes of B.e0, saturated with mod[2]). -/
def execSts (m : MFields) (s : State) : Host.Outcome State Fault Refusal :=
  issueStep (.sts m) (fun x f => f.storeIssue x) s

/-- SCAT (R182: enabled lanes of B, the highest lane winning). -/
def execScat (m : MFields) (s : State) : Host.Outcome State Fault Refusal :=
  issueStep (.scat m) (fun x f => f.storeIssue x) s

/-- PREF (R183): a line asked into a slice cache changes no architectural state; only a misaligned address is a fault. -/
def execPref (m : MFields) (s : State) : Host.Outcome State Fault Refusal :=
  issueStep (.pref m) (fun x f =>
    let va := scalarVa x.a m.low
    if va % 64 ≠ 0 then x.fault 0x0A va 0 f else x.noResult f) s

end Sys2Proof.Machine
end

