-- ==== Sys2Proof/Machine/Recovery.lean ====
section
/-!
DEFINITION. Error records and retired cores (R403 to R407), the deadlock detector, and what the Kiln does with the walker's
finding (R416 to R420, R422, R423).
-/

namespace Sys2Proof.Machine

/-! ### Error records (R406, R407) -/

/-- V, SEV, LASTING, SITE and TIME of a record (Table 17-5). -/
def recordV (e : BitVec 256) : Bool := e.getLsbD 63
def recordSev (e : BitVec 256) : Nat := field e.toNat 61 60
def recordLasting (e : BitVec 256) : Bool := e.getLsbD 57
def recordSite (e : BitVec 256) : Nat := field e.toNat 124 117
def recordTime (e : BitVec 256) : Nat := field e.toNat 191 128

/-- The entry that a new record takes: the lowest free one, else the oldest of the lowest rank when that is not above its own. -/
def Bank.entryFor (b : Bank) (e : BitVec 256) : Option Nat :=
  let at_ (i : Nat) : BitVec 256 := sget 0 b.entries i
  match (List.range 16).find? fun i => !recordV (at_ i) with
  | some i => some i
  | none =>
    let before (i j : Nat) : Bool :=
      recordSev (at_ i) < recordSev (at_ j) || (recordSev (at_ i) = recordSev (at_ j) && recordTime (at_ i) < recordTime (at_ j))
    let i := (List.range 16).foldl (fun m i => if before i m then i else m) 0
    if recordSev (at_ i) ≤ recordSev e then some i else none

/-- A record entered in a bank, OVW set when it overwrites one; dropped and counted when every entry ranks above it (R406). -/
def Bank.enter (b : Bank) (e : BitVec 256) : Bank :=
  match b.entryFor e with
  | some i => { b with entries := sset b.entries i (if recordV (sget 0 b.entries i) then e ||| (1 <<< 62 : BitVec 256) else e) }
  | none => { b with drops := b.drops + 1 }

/-- The tokens that a slot's result reaches take the ember bit: operand buffers, and what its targets fill or write (R403). -/
def Core.markResult (k : Core) (who : Agent) (slot : Nat) (i : Instr) : Core :=
  let on (e : Exec) (key : Nat) : Exec :=
    { e with bufs := e.bufs.map fun p => match p.2 with
      | .tok t => if p.1 = key then (p.1, .tok { t with ember := true }) else p
      | .null => p }
  let eff (e : Exec) : Exec :=
    { e with effects := e.effects.map fun p =>
        if p.1 ≠ slot then p
        else (p.1, match p.2 with
          | .fill a t => .fill a { t with ember := true }
          | .held n t => .held n { t with ember := true }
          | .greg n t => .greg n { t with ember := true }
          | .mtk n t => .mtk n { t with ember := true }
          | x => x) }
  let one (k : Core) (n t : Nat) : Core :=
    match t / 128, who with
    | 0, _ => k
    | 5, .actor c a => (match k.linkPeer a slot n (t % 4) with
      | some (m, key) => k.modExec (.actor c m) fun e => on e key
      | none => k)
    | 5, _ => k
    | 6, _ => k
    | 7, _ => k
    | kind, _ => k.modExec who fun e => on e ((t % 128) * 4 + (kind - 1))
  let c := commonFields i
  (one (one k 0 c.t1) 1 c.t2).modExec who eff

/-- The place of a storage error on a core marked: the row, word or beat read takes the ember bit (R403, R404). -/
def Core.markPlace (k : Core) (p : Place) : Core :=
  match p with
  | .cells _ row => k.setAcc row { k.acc row with ember := true }
  | .acc _ row => k.setAcc row { k.acc row with ember := true }
  | .window _ row => k.setRow row { k.row row with ember := true }
  | .weight _ w => { k with mx := { k.mx with wsEmber := (w :: k.mx.wsEmber).eraseDups } }
  | .beat _ r i =>
    let on (l : List Beat) : List Beat := l.zipIdx.map fun q => if q.2 = i then { q.1 with tok := { q.1.tok with ember := true } } else q.1
    { k with ends := k.ends.map fun q => if q.1 = r then (q.1, { q.2 with out := on q.2.out, recv := on q.2.recv }) else q }
  | _ => k

/-- What a record of an error at a place holds (Table 17-5); none where nothing can be found there. -/
def Fabric.findingAt (f : Fabric) (p : Place) (w : Report) : Option (Nat × Finding) :=
  let ecc (unit at_ : Nat) : Finding := { unit := unit, sev := 0, seq := true, info := w.syndrome % 256 * 2 ^ 56 + at_ % 2 ^ 52 }
  let line (c unit pa way : Nat) : Option (Nat × Finding) :=
    let s := sliceOf (lineOf pa)
    some (c, { ecc unit pa with home := some (s / 16, sliceSite (s % 16)), way := way })
  match p with
  | .result who slot =>
    let k := f.core who.core
    (k.exec who).bind fun e => (k.blockOf who e).bind fun b => (b.instrAt slot).bind fun i =>
      if !e.done.contains slot || 3 < w.unit then none
      else
        let count : Word := match who with | .actor _ a => (k.actor a).count | _ => k.seq.count
        some (who.core,
          { unit := w.unit, sev := 0, exp := w.exp, seq := match who with | .actor _ _ => false | _ => true
            pe := match who with | .actor _ a => a / 4 | _ => 0
            actor := match who with | .actor _ a => a % 4 | _ => 0
            slot := slot, op := (opcodeOf i).getD 0, lane := w.lane % 16, el := w.el % 64
            pred := if w.unit = 3 then 0 else w.pred % 8, obs := if w.unit = 3 then 0 else w.obs % 8, info := count.toNat })
  | .group c =>
    ((f.core c).mx.queue.find? fun m => m.arr ≠ []).map fun m =>
      (c, { unit := 4, sev := 0, exp := w.exp, pe := w.pe % 256, op := m.op, lane := w.lane % 16, el := w.el % 64, pred := w.pred % 8
            obs := w.obs % 8, info := (f.core c).seq.count.toNat })
  | .cells c _ =>
    some (c, { unit := 4, sev := 0, exp := w.exp, pe := w.pe % 256, lane := w.lane % 16, el := w.el % 64, pred := w.pred % 8
               obs := w.obs % 8, info := (f.core c).seq.count.toNat })
  | .acc c row => some (c, ecc 7 row)
  | .window c row => some (c, ecc 5 row)
  | .weight c word => some (c, ecc 6 word)
  | .code c => some (c, ecc 8 0)
  | .cache c pa way => line c 9 pa way
  | .hbm c pa => if inHbm pa then line c 10 pa 0 else none
  | .beat c route _ => some (c, ecc 11 (route / 2))

/-- An error found (R403, Table 17-4): a result's firing or block runs again or is marked; a group result is computed again before
its row is written; a single bit of a store is corrected in place; else what was read is marked and the region rolls back. -/
def Fabric.errorFound (f : Fabric) (mem : Memory) (p : Place) (single : Bool) (w : Report) : Memory × Fabric :=
  match f.findingAt p w with
  | none => (mem, f)
  | some (c, g) =>
    match p with
    | .result who slot =>
      let i := ((f.core c).exec who).bind fun e => ((f.core c).blockOf who e).bind fun b => b.instrAt slot
      (mem, f.blockError who (i.any isConfigOp) g fun f =>
        f.modCore c fun k => match i with | some i => k.markResult who slot i | none => k)
    | .group _ => (mem, f.record c g)
    | .cells _ _ => (mem, ((f.record c { g with sev := f.deferredSev c }).modCore c fun k => k.markPlace p).askRollback c)
    | _ =>
      if single then (mem, f.record c g)
      else
        let mem := match p with
          | .cache _ pa _ => { mem with poison := (lineOf pa :: mem.poison).eraseDups }
          | .hbm _ pa => { mem with poison := (lineOf pa :: mem.poison).eraseDups }
          | _ => mem
        (mem, ((f.record c { g with sev := f.deferredSev c }).modCore c fun k => k.markPlace p).askRollback c)

/-- ERROR_RECORD_WRITE: the next record on its way to a die's bank enters it, the Kiln frees an entry that it has consumed, or an
error is found, whose record is then on its way. -/
def Fabric.recordWrite (f : Fabric) (mem : Memory) (die : Nat) (what : RecordEvent) : Memory × Fabric :=
  let b := sget {} f.units.banks die
  let put (b : Bank) : Fabric := f.modUnits fun u => { u with banks := sset u.banks die b }
  match what, b.coming with
  | .coming, e :: r => (mem, put ({ b with coming := r }.enter e))
  | .coming, [] => (mem, f)
  | .consumed i, _ =>
    (mem, if i < 16 && shas b.entries i then
        put { b with entries := sset b.entries i (BitVec.ofNat 256 ((sget 0 b.entries i).toNat &&& (2 ^ 256 - 1 - 2 ^ 63))) }
      else f)
  | .found p single w, _ => f.errorFound mem p single w

/-- ERROR_RECORD_WRITE. -/
def execErrorRecordWrite (die : Nat) (what : RecordEvent) (s : State) : Host.Outcome State Fault Refusal :=
  memStep (fun m f => f.recordWrite m die what) s

/-- Whether a path begins or ends at a site. -/
def RoutePath.touches (p : RoutePath) (site : Nat) : Bool :=
  match RoutePath.start p with | some s => s = site || pathEnd s p.hops = some site | none => false

/-- The paths of a region with those that touch a site replaced, each by the new path of its route to where the site has moved; none
where one is missing, does not lead there, or has no room, or where another route would move (R348). -/
def Units.movePaths (u : Units) (reg old new : Nat) (paths : List RoutePath) : Option (List RoutePath) :=
  let was := (sget {} u.regions reg).paths
  let move (s : Nat) : Nat := if s = old then new else s
  let now := was.map fun p => if RoutePath.touches p old then (paths.find? fun q => q.route = p.route).getD p else p
  let right := (was.zip now).all fun q => !RoutePath.touches q.1 old || RoutePath.replaces q.2 q.1 move
  if right && (paths.all fun q => was.any fun p => p.route = q.route && RoutePath.touches p old) && u.mayLay reg now then some now else none

/-- CORE_RETIRE (R348, R407): once a cut of its region has completed since it was declared lasting, a core's group goes on at a spare
site, to which the paths of its routes are laid again; with none left on the die its region stops. -/
def Fabric.retireCore (f : Fabric) (c site : Nat) (paths : List RoutePath) : Fabric :=
  let k := f.core c
  let b := sget {} f.units.banks (dieOf c)
  match b.lasting.find? fun p => p.1 = c with
  | none => f
  | some (_, n) =>
    let rest := b.lasting.filter fun p => p.1 ≠ c
    let set (b : Bank) (f : Fabric) : Fabric := f.modUnits fun u => { u with banks := sset u.banks (dieOf c) b }
    if f.spares (dieOf c) = [] then
      let f := set { b with lasting := rest } f
      if k.group.isSome then f.stopRecorded k.regionId else f
    else if !(f.spares (dieOf c)).contains site || (k.group.isSome && (f.region k.regionId).interval ≤ n) then f
    else
      let old := f.site c
      let reg := k.regionId
      match f.units.movePaths reg (f.coreAt c) (dieOf c * 162 + site) paths with
      | none => f
      | some now =>
      let f := set { b with lasting := rest, gone := b.gone ++ [old] } f
      let f := if k.group.isSome then
          f.modRegion reg fun r => { r with sites := r.sites ++ [dieOf c * 256 + old], paths := now }
        else f
      f.modCore c fun k => { k with site := some site }

/-- CORE_RETIRE. -/
def execCoreRetire (core : Nat) (site : NewSite) (s : State) : Host.Outcome State Fault Refusal :=
  fabricStep (fun f => f.retireCore core site.site site.paths) s

/-! ### The detector (R416, R418) -/

/-- Whether no beat is held before a full landing window: no fill waits there. -/
def Core.landingsFree (k : Core) : Bool :=
  k.plane.ends.all fun q => q.1 % 2 = 0 || q.2.kind ≠ 0 || k.inBeats (q.1 / 2) = [] || k.freeRows q.2.obj ≠ 0

/-- Whether a core has no engine command and no fill that waits, and its sequencer has halted with no firing in progress. -/
def Core.quiet (k : Core) : Bool :=
  k.seq.phase = .halted && (k.actors.all fun q => q.2.firing.isNone) && (k.eng.gens.all fun q => q.2.cur.isNone && q.2.queue = []) &&
    k.mx.queue = [] && k.eng.net = [] && k.eng.images = [] && k.landingsFree

/-- Whether a region is idle (R418): its detector does not count. -/
def Fabric.regionIdle (f : Fabric) (reg : Nat) : Bool :=
  (f.cores.all fun q => !(q.2.group.isSome && q.2.regionId = reg) || q.2.quiet) && f.units.transits.all fun t => t.region ≠ reg

/-- DEADLOCK_DETECTOR_EXPIRY. -/
def Fabric.detectorExpiry (f : Fabric) (reg : Nat) : Fabric :=
  let r := f.region reg
  if !r.running || !r.acts || r.walking || r.idle < r.dlock || f.regionIdle reg then f
  else f.modRegion reg fun r => { r with walking := true }

/-- DEADLOCK_DETECTOR_EXPIRY. -/
def execDeadlockDetectorExpiry (region : Nat) (s : State) : Host.Outcome State Fault Refusal :=
  fabricStep (fun f => f.detectorExpiry region) s

/-! ### Reports (R420, R423) -/

/-- Report rows written from an address on, up to the first whose page is not mapped, writable and resident. -/
def Fabric.writeReport (f : Fabric) (mem : Memory) (reg va : Nat) : List Row → Memory × Fabric
  | [] => (mem, f)
  | row :: rest =>
    let ctx := (f.region reg).context
    match translate mem (f.context ctx) ctx va with
    | .error _ => (mem, f)
    | .ok t =>
      if bitOf t.attr 2 || bitOf t.attr 4 || f.inTransit ctx va then (mem, f)
      else
        let q := (f.undoNote mem reg va (t.phys va)).keyless mem reg (t.phys va) 64 0 15 row.toNat 0
        q.2.writeReport q.1 reg (va + 64) rest

/-- A member of a cycle let go (R420, step 2): a waiting firing is aborted, or when pinned trapped with its partial state. -/
def Core.breakFiring (k : Core) (a : Nat) : Core :=
  match (k.actor a).firing with
  | some y =>
    if y.phase = .running && y.exec.waits ≠ [] then (if y.pinned then k.trapPinned a .deadlock else k.abort a) else k
  | none => k

/-- A waiting sequencer block abandoned (R420, step 3). -/
def Fabric.abandonBlock (f : Fabric) (c : Nat) : Fabric :=
  match (f.core c).exec (.seq c) with
  | some e => if e.waits = [] then f else f.modCore c Core.dropBlock
  | none => f

/-- The DEADLOCK trap (R420): TRAP_ADDR the report's first row, TRAP_PE the first member's PE_ID, 0xFFFF for one that is no actor
(log entry 33). -/
def Fabric.deadlockTrap (f : Fabric) (report : Nat) (members : List Node) : Trap :=
  let groupOn (c : Nat) : Nat := match (f.core c).group with | some g => g.group | none => 0
  { code := 0x70, addr := report, src := .engine
    pe := match members with | n :: _ => (if n.elem = 0 then n.pe else 0xFFFF) | [] => 0xFFFF
    dead := (members.filter fun n => n.elem = 0).map fun n => (groupOn n.core, n.pe * 4 + n.index) }

/-- What the Kiln does on a deadlock (R420). -/
def Fabric.deadlock (f : Fabric) (mem : Memory) (reg : Nat) (l : List Step) : Memory × Fabric :=
  let r := f.region reg
  let members := l.map Step.node
  let q := f.writeReport mem reg r.report (reportRows r.context r.repRows true l)
  let f := (members.filter fun n => n.elem = 0).foldl (fun f n => f.modCore n.core fun k => k.breakFiring (n.pe * 4 + n.index)) q.2
  match leastOf (members.map Node.core) with
  | none => (q.1, f)
  | some c => (q.1, ((f.abandonBlock c).postTrap c (f.deadlockTrap r.report members)).proceed c)

/-- STALL_WALK_DONE (R417, R418): a cycle is a deadlock; the longest chain is a stall, reported when it differs from the last one. -/
def Fabric.walkDone (f : Fabric) (mem : Memory) (reg : Nat) : Memory × Fabric :=
  let r := f.region reg
  if !r.walking then (mem, f)
  else
    let f := f.modRegion reg fun r => { r with walking := false, idle := 0 }
    if !r.acts then (mem, f)
    else
      let w := f.walkRegion reg
      if w.1 then f.deadlock mem reg w.2
      else
        let rows := reportRows r.context r.repRows false w.2
        if rows = [] || rows = r.lastStall then (mem, f)
        else (f.modRegion reg fun r => { r with lastStall := rows }).writeReport mem reg r.report rows

/-- STALL_WALK_DONE. -/
def execStallWalkDone (region : Nat) (s : State) : Host.Outcome State Fault Refusal :=
  memStep (fun m f => f.walkDone m region) s

end Sys2Proof.Machine
end

