-- ==== Sys2Proof/Machine/Dispatch.lean ====
section
/-!
DEFINITION. The dispatch from an instruction to its meaning: one arm per constructor, each one direct call.
-/

namespace Sys2Proof.Machine

/-- The effect of an instruction or an event on the machine. -/
def exec (i : Instr) (s : State) : Host.Outcome State Fault Refusal :=
  match i with
  | .add f => Sys2Proof.Machine.execAdd f s
  | .sub f => Sys2Proof.Machine.execSub f s
  | .mul f => Sys2Proof.Machine.execMul f s
  | .mulh f => Sys2Proof.Machine.execMulh f s
  | .mad f => Sys2Proof.Machine.execMad f s
  | .quo f => Sys2Proof.Machine.execQuo f s
  | .rem f => Sys2Proof.Machine.execRem f s
  | .neg f => Sys2Proof.Machine.execNeg f s
  | .abs f => Sys2Proof.Machine.execAbs f s
  | .min f => Sys2Proof.Machine.execMin f s
  | .max f => Sys2Proof.Machine.execMax f s
  | .clamp f => Sys2Proof.Machine.execClamp f s
  | .adds f => Sys2Proof.Machine.execAdds f s
  | .subs f => Sys2Proof.Machine.execSubs f s
  | .dot4 f => Sys2Proof.Machine.execDot4 f s
  | .and f => Sys2Proof.Machine.execAnd f s
  | .or f => Sys2Proof.Machine.execOr f s
  | .xor f => Sys2Proof.Machine.execXor f s
  | .andn f => Sys2Proof.Machine.execAndn f s
  | .not f => Sys2Proof.Machine.execNot f s
  | .shl f => Sys2Proof.Machine.execShl f s
  | .shr f => Sys2Proof.Machine.execShr f s
  | .sra f => Sys2Proof.Machine.execSra f s
  | .rotl f => Sys2Proof.Machine.execRotl f s
  | .clz f => Sys2Proof.Machine.execClz f s
  | .popc f => Sys2Proof.Machine.execPopc f s
  | .bfx f => Sys2Proof.Machine.execBfx f s
  | .bfi f => Sys2Proof.Machine.execBfi f s
  | .cmpeq f => Sys2Proof.Machine.execCmpeq f s
  | .cmpne f => Sys2Proof.Machine.execCmpne f s
  | .cmplt f => Sys2Proof.Machine.execCmplt f s
  | .cmple f => Sys2Proof.Machine.execCmple f s
  | .sel f => Sys2Proof.Machine.execSel f s
  | .mov f => Sys2Proof.Machine.execMov f s
  | .movi f => Sys2Proof.Machine.execMovi f s
  | .movh f => Sys2Proof.Machine.execMovh f s
  | .lit f => Sys2Proof.Machine.execLit f s
  | .nop f => Sys2Proof.Machine.execNop f s
  | .fadd f => Sys2Proof.Machine.execFadd f s
  | .fsub f => Sys2Proof.Machine.execFsub f s
  | .fmul f => Sys2Proof.Machine.execFmul f s
  | .fma f => Sys2Proof.Machine.execFma f s
  | .fnma f => Sys2Proof.Machine.execFnma f s
  | .fmin f => Sys2Proof.Machine.execFmin f s
  | .fmax f => Sys2Proof.Machine.execFmax f s
  | .fabs f => Sys2Proof.Machine.execFabs f s
  | .fneg f => Sys2Proof.Machine.execFneg f s
  | .fcmpeq f => Sys2Proof.Machine.execFcmpeq f s
  | .fcmplt f => Sys2Proof.Machine.execFcmplt f s
  | .fcmple f => Sys2Proof.Machine.execFcmple f s
  | .fcmpun f => Sys2Proof.Machine.execFcmpun f s
  | .fclass f => Sys2Proof.Machine.execFclass f s
  | .fscale f => Sys2Proof.Machine.execFscale f s
  | .fdiv f => Sys2Proof.Machine.execFdiv f s
  | .frcp f => Sys2Proof.Machine.execFrcp f s
  | .frsq f => Sys2Proof.Machine.execFrsq f s
  | .fsqrt f => Sys2Proof.Machine.execFsqrt f s
  | .fexp2 f => Sys2Proof.Machine.execFexp2 f s
  | .flog2 f => Sys2Proof.Machine.execFlog2 f s
  | .fsig f => Sys2Proof.Machine.execFsig f s
  | .ftanh f => Sys2Proof.Machine.execFtanh f s
  | .cvt f => Sys2Proof.Machine.execCvt f s
  | .cvts f => Sys2Proof.Machine.execCvts f s
  | .pack f => Sys2Proof.Machine.execPack f s
  | .unpk f => Sys2Proof.Machine.execUnpk f s
  | .bcast f => Sys2Proof.Machine.execBcast f s
  | .shuf f => Sys2Proof.Machine.execShuf f s
  | .rotx f => Sys2Proof.Machine.execRotx f s
  | .lane f => Sys2Proof.Machine.execLane f s
  | .insl f => Sys2Proof.Machine.execInsl f s
  | .redadd f => Sys2Proof.Machine.execRedadd f s
  | .redmax f => Sys2Proof.Machine.execRedmax f s
  | .redmin f => Sys2Proof.Machine.execRedmin f s
  | .scan f => Sys2Proof.Machine.execScan f s
  | .wrd f => Sys2Proof.Machine.execWrd f s
  | .wrdx f => Sys2Proof.Machine.execWrdx f s
  | .wupd f => Sys2Proof.Machine.execWupd f s
  | .wfil f => Sys2Proof.Machine.execWfil f s
  | .wshr f => Sys2Proof.Machine.execWshr f s
  | .wcnt f => Sys2Proof.Machine.execWcnt f s
  | .wsave f => Sys2Proof.Machine.execWsave f s
  | .wrest f => Sys2Proof.Machine.execWrest f s
  | .hget f => Sys2Proof.Machine.execHget f s
  | .ard f => Sys2Proof.Machine.execArd f s
  | .awr f => Sys2Proof.Machine.execAwr f s
  | .aacc f => Sys2Proof.Machine.execAacc f s
  | .apatchSet f => Sys2Proof.Machine.execApatchSet f s
  | .apatchAdd f => Sys2Proof.Machine.execApatchAdd f s
  | .apatchScale f => Sys2Proof.Machine.execApatchScale f s
  | .aclr f => Sys2Proof.Machine.execAclr f s
  | .ld f => Sys2Proof.Machine.execLd f s
  | .ld2 f => Sys2Proof.Machine.execLd2 f s
  | .lds f => Sys2Proof.Machine.execLds f s
  | .st f => Sys2Proof.Machine.execSt f s
  | .sts f => Sys2Proof.Machine.execSts f s
  | .gath f => Sys2Proof.Machine.execGath f s
  | .scat f => Sys2Proof.Machine.execScat f s
  | .pref f => Sys2Proof.Machine.execPref f s
  | .atadd f => Sys2Proof.Machine.execAtadd f s
  | .atfadd f => Sys2Proof.Machine.execAtfadd f s
  | .atmin f => Sys2Proof.Machine.execAtmin f s
  | .atmax f => Sys2Proof.Machine.execAtmax f s
  | .atfmax f => Sys2Proof.Machine.execAtfmax f s
  | .atand f => Sys2Proof.Machine.execAtand f s
  | .ator f => Sys2Proof.Machine.execAtor f s
  | .atxor f => Sys2Proof.Machine.execAtxor f s
  | .atxch f => Sys2Proof.Machine.execAtxch f s
  | .atcas f => Sys2Proof.Machine.execAtcas f s
  | .fence f => Sys2Proof.Machine.execFence f s
  | .xfence f => Sys2Proof.Machine.execXfence f s
  | .tset f => Sys2Proof.Machine.execTset f s
  | .tget f => Sys2Proof.Machine.execTget f s
  | .bara f => Sys2Proof.Machine.execBara f s
  | .barw f => Sys2Proof.Machine.execBarw f s
  | .baraw f => Sys2Proof.Machine.execBaraw f s
  | .waitc f => Sys2Proof.Machine.execWaitc f s
  | .br f => Sys2Proof.Machine.execBr f s
  | .brc f => Sys2Proof.Machine.execBrc f s
  | .brx f => Sys2Proof.Machine.execBrx f s
  | .call f => Sys2Proof.Machine.execCall f s
  | .ret f => Sys2Proof.Machine.execRet f s
  | .grd f => Sys2Proof.Machine.execGrd f s
  | .mfk f => Sys2Proof.Machine.execMfk f s
  | .mtk f => Sys2Proof.Machine.execMtk f s
  | .fpxClear f => Sys2Proof.Machine.execFpxClear f s
  | .wpHitClear f => Sys2Proof.Machine.execWpHitClear f s
  | .trap f => Sys2Proof.Machine.execTrap f s
  | .rft f => Sys2Proof.Machine.execRft f s
  | .halt f => Sys2Proof.Machine.execHalt f s
  | .evwait f => Sys2Proof.Machine.execEvwait f s
  | .cactor f => Sys2Proof.Machine.execCactor f s
  | .cactorUnbind f => Sys2Proof.Machine.execCactorUnbind f s
  | .cport f => Sys2Proof.Machine.execCport f s
  | .cwin f => Sys2Proof.Machine.execCwin f s
  | .wgrow f => Sys2Proof.Machine.execWgrow f s
  | .croute f => Sys2Proof.Machine.execCroute f s
  | .csteer f => Sys2Proof.Machine.execCsteer f s
  | .cmerge f => Sys2Proof.Machine.execCmerge f s
  | .ccarry f => Sys2Proof.Machine.execCcarry f s
  | .cinv f => Sys2Proof.Machine.execCinv f s
  | .cchain f => Sys2Proof.Machine.execCchain f s
  | .cloop f => Sys2Proof.Machine.execCloop f s
  | .cturn f => Sys2Proof.Machine.execCturn f s
  | .cmodeMatrixRectangle f => Sys2Proof.Machine.execCmodeMatrixRectangle f s
  | .cmodePatchLogWindow f => Sys2Proof.Machine.execCmodePatchLogWindow f s
  | .cmodeBarrierCount f => Sys2Proof.Machine.execCmodeBarrierCount f s
  | .cdesc f => Sys2Proof.Machine.execCdesc f s
  | .cswap f => Sys2Proof.Machine.execCswap f s
  | .cswapDiscard f => Sys2Proof.Machine.execCswapDiscard f s
  | .cqui f => Sys2Proof.Machine.execCqui f s
  | .mxldw f => Sys2Proof.Machine.execMxldw f s
  | .mxsel f => Sys2Proof.Machine.execMxsel f s
  | .mxrun f => Sys2Proof.Machine.execMxrun f s
  | .mxstat f => Sys2Proof.Machine.execMxstat f s
  | .mxthr f => Sys2Proof.Machine.execMxthr f s
  | .mxpeek f => Sys2Proof.Machine.execMxpeek f s
  | .cpy f => Sys2Proof.Machine.execCpy f s
  | .cpyChained f => Sys2Proof.Machine.execCpyChained f s
  | .cpyw f => Sys2Proof.Machine.execCpyw f s
  | .cpyr f => Sys2Proof.Machine.execCpyr f s
  | .cpyi f => Sys2Proof.Machine.execCpyi f s
  | .cpypMax f => Sys2Proof.Machine.execCpypMax f s
  | .cpypAvg f => Sys2Proof.Machine.execCpypAvg f s
  | .cpyf f => Sys2Proof.Machine.execCpyf f s
  | .strmRead f => Sys2Proof.Machine.execStrmRead f s
  | .strmWrite f => Sys2Proof.Machine.execStrmWrite f s
  | .strw f => Sys2Proof.Machine.execStrw f s
  | .strxStop f => Sys2Proof.Machine.execStrxStop f s
  | .strxResume f => Sys2Proof.Machine.execStrxResume f s
  | .tqry f => Sys2Proof.Machine.execTqry f s
  | .tin f => Sys2Proof.Machine.execTin f s
  | .tout f => Sys2Proof.Machine.execTout f s
  | .nsend f => Sys2Proof.Machine.execNsend f s
  | .nget f => Sys2Proof.Machine.execNget f s
  | .nredAdd f => Sys2Proof.Machine.execNredAdd f s
  | .nredMax f => Sys2Proof.Machine.execNredMax f s
  | .nredMin f => Sys2Proof.Machine.execNredMin f s
  | .xinv f => Sys2Proof.Machine.execXinv f s
  | .wpsetDescriptor f => Sys2Proof.Machine.execWpsetDescriptor f s
  | .wpsetRange f => Sys2Proof.Machine.execWpsetRange f s
  | .wpclr f => Sys2Proof.Machine.execWpclr f s
  | .mark f => Sys2Proof.Machine.execMark f s
  | .rwcArm f => Sys2Proof.Machine.execRwcArm f s
  | .rwcCancel f => Sys2Proof.Machine.execRwcCancel f s
  | .finj f => Sys2Proof.Machine.execFinj f s
  | .mcrd f => Sys2Proof.Machine.execMcrd f s
  | .profStart f => Sys2Proof.Machine.execProfStart f s
  | .profStop f => Sys2Proof.Machine.execProfStop f s
  | .profRead f => Sys2Proof.Machine.execProfRead f s
  | .walk f => Sys2Proof.Machine.execWalk f s
  | .firingStart core pe => Sys2Proof.Machine.execFiringStart core pe s
  | .waitingFiringResume who slot => Sys2Proof.Machine.execWaitingFiringResume who slot s
  | .firingComplete core at_ => Sys2Proof.Machine.execFiringComplete core at_ s
  | .commit core at_ => Sys2Proof.Machine.execCommit core at_ s
  | .rowRelease core unit => Sys2Proof.Machine.execRowRelease core unit s
  | .loadSlotGrant core chan => Sys2Proof.Machine.execLoadSlotGrant core chan s
  | .loadResponse id lane => Sys2Proof.Machine.execLoadResponse id lane s
  | .eagerAtomicReturn id => Sys2Proof.Machine.execEagerAtomicReturn id s
  | .sliceAccess x => Sys2Proof.Machine.execSliceAccess x s
  | .storeUnitPerform id => Sys2Proof.Machine.execStoreUnitPerform id s
  | .horizonBroadcast region => Sys2Proof.Machine.execHorizonBroadcast region s
  | .sequencerBlockComplete who => Sys2Proof.Machine.execSequencerBlockComplete who s
  | .sequencerWaitEnd core => Sys2Proof.Machine.execSequencerWaitEnd core s
  | .seqBlockFetch core => Sys2Proof.Machine.execSeqBlockFetch core s
  | .trapDelivery core => Sys2Proof.Machine.execTrapDelivery core s
  | .engineQueueEntry core => Sys2Proof.Machine.execEngineQueueEntry core s
  | .engineCommandStart core eng => Sys2Proof.Machine.execEngineCommandStart core eng s
  | .engineCommandComplete core eng => Sys2Proof.Machine.execEngineCommandComplete core eng s
  | .generatorRowFill core gen => Sys2Proof.Machine.execGeneratorRowFill core gen s
  | .generatorRowShrink core gen => Sys2Proof.Machine.execGeneratorRowShrink core gen s
  | .chainedHalfStart core => Sys2Proof.Machine.execChainedHalfStart core s
  | .mxldwRecordWrite core => Sys2Proof.Machine.execMxldwRecordWrite core s
  | .matrixRecordLoad core => Sys2Proof.Machine.execMatrixRecordLoad core s
  | .matrixRowAdmit core => Sys2Proof.Machine.execMatrixRowAdmit core s
  | .matrixAccWrite core => Sys2Proof.Machine.execMatrixAccWrite core s
  | .tinComplete ctx page => Sys2Proof.Machine.execTinComplete ctx page s
  | .toutComplete ctx page => Sys2Proof.Machine.execToutComplete ctx page s
  | .pageWalk w => Sys2Proof.Machine.execPageWalk w s
  | .kilnPageIn ctx page => Sys2Proof.Machine.execKilnPageIn ctx page s
  | .tierEntryFree core => Sys2Proof.Machine.execTierEntryFree core s
  | .kilnFaultResolve core fix leaf => Sys2Proof.Machine.execKilnFaultResolve core fix leaf s
  | .sideCounterFlush core n => Sys2Proof.Machine.execSideCounterFlush core n s
  | .commandWindowWrite ctx row auth => Sys2Proof.Machine.execCommandWindowWrite ctx row auth s
  | .launch ctx place pool layout => Sys2Proof.Machine.execLaunch ctx place pool layout s
  | .launchRetake ctx place pool layout => Sys2Proof.Machine.execLaunchRetake ctx place pool layout s
  | .completionRecordFill ctx => Sys2Proof.Machine.execCompletionRecordFill ctx s
  | .completionShrink ctx n => Sys2Proof.Machine.execCompletionShrink ctx n s
  | .dispatchBatch die => Sys2Proof.Machine.execDispatchBatch die s
  | .groupBind die => Sys2Proof.Machine.execGroupBind die s
  | .bindPlaneLight core => Sys2Proof.Machine.execBindPlaneLight core s
  | .cswapLighting core => Sys2Proof.Machine.execCswapLighting core s
  | .groupComplete core => Sys2Proof.Machine.execGroupComplete core s
  | .regionEnd region => Sys2Proof.Machine.execRegionEnd region s
  | .gangRecordReady rec => Sys2Proof.Machine.execGangRecordReady rec s
  | .gangReadinessCheck gang => Sys2Proof.Machine.execGangReadinessCheck gang s
  | .gangSwitch gang => Sys2Proof.Machine.execGangSwitch gang s
  | .preemptionMarker core el => Sys2Proof.Machine.execPreemptionMarker core el s
  | .snapshotMarker core => Sys2Proof.Machine.execSnapshotMarker core s
  | .snapshotTimer region => Sys2Proof.Machine.execSnapshotTimer region s
  | .cutComplete region => Sys2Proof.Machine.execCutComplete region s
  | .undoLogHalf region => Sys2Proof.Machine.execUndoLogHalf region s
  | .undoLogFull region => Sys2Proof.Machine.execUndoLogFull region s
  | .regionRollback region => Sys2Proof.Machine.execRegionRollback region s
  | .regionStop region => Sys2Proof.Machine.execRegionStop region s
  | .coreFreeze core => Sys2Proof.Machine.execCoreFreeze core s
  | .rwcStop core => Sys2Proof.Machine.execRwcStop core s
  | .errorRecordWrite die what => Sys2Proof.Machine.execErrorRecordWrite die what s
  | .coreRetire core site => Sys2Proof.Machine.execCoreRetire core site s
  | .skidReport core eng => Sys2Proof.Machine.execSkidReport core eng s
  | .watchRaise core => Sys2Proof.Machine.execWatchRaise core s
  | .deadlockDetectorExpiry region => Sys2Proof.Machine.execDeadlockDetectorExpiry region s
  | .stallWalkDone region => Sys2Proof.Machine.execStallWalkDone region s
  | .steerStep core op => Sys2Proof.Machine.execSteerStep core op s
  | .mergeStep core op => Sys2Proof.Machine.execMergeStep core op s
  | .carryStep core op => Sys2Proof.Machine.execCarryStep core op s
  | .invariantStep core op => Sys2Proof.Machine.execInvariantStep core op s
  | .chainIndexEmit core op => Sys2Proof.Machine.execChainIndexEmit core op s
  | .loopIndexEmit core op => Sys2Proof.Machine.execLoopIndexEmit core op s
  | .cornerTurnStep core op => Sys2Proof.Machine.execCornerTurnStep core op s
  | .controlTokenPass core op => Sys2Proof.Machine.execControlTokenPass core op s
  | .circuitBeatSend core route => Sys2Proof.Machine.execCircuitBeatSend core route s
  | .circuitBeatReceive core route => Sys2Proof.Machine.execCircuitBeatReceive core route s
  | .linkUnitReceive link what good => Sys2Proof.Machine.execLinkUnitReceive link what good s
  | .linkAckReceive link => Sys2Proof.Machine.execLinkAckReceive link s
  | .linkNakReceive link => Sys2Proof.Machine.execLinkNakReceive link s
  | .linkRetryTimeout link => Sys2Proof.Machine.execLinkRetryTimeout link s
  | .linkDead link => Sys2Proof.Machine.execLinkDead link s
  | .phyTrainingLoss link => Sys2Proof.Machine.execPhyTrainingLoss link s
  | .rerouteComplete => Sys2Proof.Machine.execRerouteComplete s
  | .networkWriteArrival ctx conn va bytes => Sys2Proof.Machine.execNetworkWriteArrival ctx conn va bytes s
  | .networkReadArrival ctx conn va n => Sys2Proof.Machine.execNetworkReadArrival ctx conn va n s
  | .networkAtomicArrival ctx conn va op ty b c => Sys2Proof.Machine.execNetworkAtomicArrival ctx conn va op ty b c s
  | .nredRowArrival ctx conn va op ty n row => Sys2Proof.Machine.execNredRowArrival ctx conn va op ty n row s
  | .ngetRowArrival core row => Sys2Proof.Machine.execNgetRowArrival core row s
  | .cpyrRowArrival core gen => Sys2Proof.Machine.execCpyrRowArrival core gen s
  | .networkAckReceive core => Sys2Proof.Machine.execNetworkAckReceive core s
  | .remoteRefusalReceive core scope => Sys2Proof.Machine.execRemoteRefusalReceive core scope s
  | .adminConnectionSetup key nonce proof_ => Sys2Proof.Machine.execAdminConnectionSetup key nonce proof_ s
  | .attestationRead ctx nonce => Sys2Proof.Machine.execAttestationRead ctx nonce s
  | .enrol => Sys2Proof.Machine.execEnrol s
  | .openCtx place => Sys2Proof.Machine.execOpenCtx place s
  | .sealCtx => Sys2Proof.Machine.execSealCtx s
  | .ckey auth => Sys2Proof.Machine.execCkey auth s
  | .mapPage frame => Sys2Proof.Machine.execMapPage frame s
  | .unmap => Sys2Proof.Machine.execUnmap s
  | .connect => Sys2Proof.Machine.execConnect s
  | .gangEntry => Sys2Proof.Machine.execGangEntry s
  | .freezeRegion => Sys2Proof.Machine.execFreezeRegion s
  | .resumeRegion => Sys2Proof.Machine.execResumeRegion s
  | .rollbackRegion => Sys2Proof.Machine.execRollbackRegion s
  | .endRegion => Sys2Proof.Machine.execEndRegion s
  | .closeCtx => Sys2Proof.Machine.execCloseCtx s
  | .powerOnBoot firmware signature => Sys2Proof.Machine.execPowerOnBoot firmware signature s
  | .fullServiceStart enabled expanders => Sys2Proof.Machine.execFullServiceStart enabled expanders s
  | .expanderFailure port => Sys2Proof.Machine.execExpanderFailure port s
  | .throttleStep step => Sys2Proof.Machine.execThrottleStep step s
  | .thermalStop => Sys2Proof.Machine.execThermalStop s
  | .storeAcknowledgement core unit => Sys2Proof.Machine.execStoreAcknowledgement core unit s
  | .ptpClockDiscipline time => Sys2Proof.Machine.execPtpClockDiscipline time s

end Sys2Proof.Machine
end

