-- ==== Sys2Proof/Machine/Turns.lean ====
section
/-!
DEFINITION. A step: which turn comes next, the fetch of a slot's word, and the passing of cycles with the counts that follow it
(R20, R42, R275, R353, R409, R416; log entry 2).
-/

namespace Sys2Proof

/-- The turn that comes when none is chosen ahead: any order of issue, of events and of cycles that the rules leave open is some
sequence of these (R20; log entry 2). -/
opaque Config.turn (draw : Nat) : Machine.Turn

namespace Machine

/-! ### The passing of cycles -/

/-- PTP_NOW advanced by a number of nanoseconds (R42). -/
def ptpAfter (now : Word) (ns : Nat) : Word :=
  let t := now.toNat % 2 ^ 32 + ns
  BitVec.ofNat 64 ((now.toNat / 2 ^ 32 + t / 1000000000) * 2 ^ 32 + t % 1000000000)

/-- The cycle counter, PTP_NOW and the links' time without progress after `n` cycles; a cycle lasts 16000 / (940 · clock)
nanoseconds. -/
def Units.elapse (u : Units) (n : Nat) : Units :=
  let d := 940 * u.clock
  let t := u.frac + n * 16000
  { u with
    cycle := u.cycle + n, ptp := ptpAfter u.ptp (t / d), frac := t % d
    links := u.links.map fun (q : Nat × Link) => (q.1, if q.2.buf = [] then q.2 else { q.2 with stall := q.2.stall + n }) }

/-- The detector's count and the snapshot period of a region after `n` cycles: not while it is frozen or stopped, the former not while
it is idle (R416, R418, R431). -/
def Region.elapse (r : Region) (idle : Bool) (n : Nat) : Region :=
  if !r.acts then r else { r with idle := if idle then r.idle else r.idle + n, snapAge := r.snapAge + n }

/-- Whether the filler of a window holds a row for it; of the network, whether a command has rows to come. -/
def Core.fillerHolds (k : Core) (w : Nat) : Bool :=
  let x := k.plane.party w true
  match field x 31 28 with
  | 1 =>
    let a := field x 19 12 * 4 + field x 9 8
    (k.portsOf a).all fun p => p.2.win = w || k.portReady p.2
  | 2 =>
    let y := k.gen (field x 7 0)
    (match y.cur with | some q => q.fills && q.win = w && y.rowLanded q y.row | none => false)
  | 3 => k.inBeats (field x 7 0) ≠ []
  | 5 => k.eng.net.any fun m => m.op = 0x359 && m.win = w && m.running && !m.ended && m.acked < m.total
  | _ => false

/-- Whether the party behind a channel of PROF holds data and finds no space (R275): a window, an outbound route end, a request
channel or a generator. -/
def Fabric.backed (f : Fabric) (c chan : Nat) : Bool :=
  let k := f.core c
  let n := chan % 256
  match chan / 256 with
  | 0 => k.freeRows n = 0 && k.fillerHolds n
  | 1 =>
    k.outBeats n ≠ [] &&
      (match f.peerOf k.regionId n with | some d => f.recvDepth k.regionId n ≤ ((f.core d).inBeats n).length | none => true)
  | 2 => f.freeSlots c n = 0 && k.askers.any fun q => q.chan = n
  | _ =>
    let y := k.gen n
    match y.cur with
    | some q => if q.fills then k.freeRows q.win = 0 && y.rowLanded q y.row else k.credits = 0 && 0 < k.readable q.win
    | none => false

/-- A count of 48 bits that saturates (R435). -/
def satAdd48 (a b : Nat) : Nat := min (a + b) (2 ^ 48 - 1)

/-- The counters of a channel after `n` cycles: one of moving when something has crossed it since, the others of full or empty. -/
def Prof.elapse (p : Prof) (backed : Bool) (n : Nat) : Prof :=
  if !p.running then { p with moved := false }
  else
    let m := if p.moved then min n 1 else 0
    { p with
      moved := p.moved && n = 0
      moving := satAdd48 p.moving m
      full := if backed then satAdd48 p.full (n - m) else p.full
      empty := if backed then p.empty else satAdd48 p.empty (n - m) }

/-- The machine's counts after `n` cycles. -/
def Fabric.elapse (f : Fabric) (n : Nat) : Fabric :=
  let count (q : Nat × Core) : Nat × Core :=
    if q.2.dbg.frozen || q.2.dbg.prof = [] then q
    else (q.1, { q.2 with dbg := { q.2.dbg with prof := q.2.dbg.prof.map fun p => p.elapse (f.backed q.1 p.chan) n } })
  { cores := f.cores.map count
    units := { f.units.elapse n with regions := f.units.regions.map fun q => (q.1, q.2.elapse (f.regionIdle q.1) n) } }

/-! ### Fetch (R113) -/

/-- The entry of a slot of the block that an agent runs: its word, and the instruction that the word holds. -/
def Fabric.fetch (f : Fabric) (who : Agent) (slot : Nat) : Option (Word × Option Instr) := do
  let k := f.core who.core
  let e ← k.exec who
  let b ← k.blockOf who e
  let x ← b.slots.find? fun q => q.1 = slot
  return x.2

/-- A slot offered to issue: its instruction executes with `acting` telling which slot it is. A slot that is not there is no turn. -/
def State.issue (s : State) (who : Agent) (slot : Nat) : Host.Outcome State Fault Refusal :=
  match s.fab.fetch who slot with
  | none => .next s
  | some (_, none) => .fault .illegalWord
  | some (_, some i) =>
    match exec i { s with run := { s.run with acting := some (who, slot) } } with
    | .next t => .next { t with run := { t.run with acting := none } }
    | r => r

/-- One turn. -/
def State.turn (s : State) (t : Turn) : Host.Outcome State Fault Refusal :=
  match t with
  | .issue who slot => s.issue who slot
  | .event i => exec i s
  | .elapse n => .next { s with fab := s.fab.elapse n }

/-- The next turn and the state in which it happens. -/
def State.nextTurn (s : State) : Turn × State :=
  match s.run.turns with
  | t :: r => (t, { s with run := { s.run with turns := r } })
  | [] => (Config.turn s.run.draw, { s with run := { s.run with draw := s.run.draw + 1 } })

/-! ### A place for one instruction -/

/-- The kind of block in which a word may stand in slot 0: an actor's, a sequencer's or a configuration block (Table 4-11). -/
def kindFor (i : Instr) : Nat :=
  match [1, 0, 2].find? fun k => wordFails k 0 127 i == [] with | some k => k | none => 0

/-- A block of one word, and the word after it of an instruction of two. -/
def oneBlock (kind : Nat) (w : Nat) : Block :=
  ⟨BitVec.ofNat 128 (kind <<< 8 + 1 <<< 10), [BitVec.ofNat 64 w, BitVec.ofNat 64 (w / 2 ^ 64)]⟩

/-- Tokens in every operand buffer of slot 0: the predicate's is what the instruction asks for. -/
def fullBufs (pred : Nat) : Sparse Arrival :=
  [(0, .tok {}), (1, .tok {}), (2, .tok {}), (3, .tok ⟨if pred = 1 then 1 else 0, false⟩)]

/-- A core on which the block stands in progress at its slot 0: of actor 0, which has every port on window 0, or of the
sequencer. -/
def fetchCore (b : Block) (pred : Nat) : Core :=
  let g : Group :=
    { record := 0, context := 0, region := 0, group := 0, stage := 0, gang := 0, slice := 0, decl := false, stack := 0
      blocks := [b], rows := [] }
  let e : Exec := { bufs := fullBufs pred }
  let ports : Sparse PortCfg := (List.range 16).map fun n => (n, ⟨0, false, 0⟩)
  if b.kind = 1 then
    { group := some g
      plane := { wins := [(0, ⟨0, 1, 0, 0, none⟩)], ports := ports, actors := [(0, ⟨0, 0, none, false⟩)] }
      actors := [(0, { firing := some { exec := e } })] }
  else
    { group := some g, seq := { phase := .run, exec := some e }, kindling := if b.kind = 2 then .program else .empty
      plane := { wins := [(0, ⟨0, 1, 0, 0, none⟩)] } }

/-- The machine with an instruction's words in a block in progress on core 0 of die 0, and the offer of its slot as the next turn. -/
def State.place (s : State) (nbits w : Nat) : State :=
  match decodeTableWord nbits w with
  | none =>
    { s with
      fab := { s.fab with cores := sset s.fab.cores 0 (fetchCore (oneBlock 1 (w % 2 ^ nbits)) 0) }
      run := { s.run with turns := [.issue (.actor 0 0) 0] } }
  | some i =>
    let k := kindFor i
    { s with
      fab := { s.fab with cores := sset s.fab.cores 0 (fetchCore (oneBlock k (w % 2 ^ nbits)) (commonFields i).pred) }
      run := { s.run with turns := [.issue (if k = 1 then .actor 0 0 else .seq 0) 0] } }

end Machine

end Sys2Proof
end

