-- ==== Sys2Proof/Machine/Step.lean ====
section
/-!
DEFINITION. The step function of the machine, and the placing of an instruction where the next step fetches it.
-/

namespace Sys2Proof.Machine

/-- One step: the next turn happens. -/
def step (s : State) : Host.Outcome State Fault Refusal := s.nextTurn.2.turn s.nextTurn.1

/-- The state with an instruction's words where the next step fetches: in slot 0 of a block in progress, whose offer is the next
turn. It stands for the loads and events that bring a program there (log entry 2). -/
def State.withFetchWord (s : State) (nbits w : Nat) : State := s.place nbits w

end Sys2Proof.Machine
end

