-- ==== Sys2Proof/Safety.lean ====
section
/-!
DEFINITION. What a safe run is: one in which no step ends in a fault or a refusal.
-/

namespace Sys2Proof

/-- Whether a step answers a next state. -/
def Machine.goesOn (s : Machine.State) : Bool :=
  match Machine.step s with
  | .next _ => true
  | .fault _ => false
  | .refused _ => false

/-- A state from which every run of `n` steps goes on. -/
def Machine.safeFor : Nat → Machine.State → Bool
  | 0, _ => true
  | n + 1, s =>
    match Machine.step s with
    | .next t => Machine.safeFor n t
    | .fault _ => false
    | .refused _ => false

end Sys2Proof
end

