-- ==== Sys2Proof/Certificates/Slice0/Obligations.lean ====
section
/-!
DEFINITION. The statements for the provers. Each names what it says; a statement of several parts is the conjunction of parts
named in Sys2Proof.Claims. Where an instruction or an event completes, its statement concludes the equation exec i s = next t. The
rules cited are those of spec/; a log entry is notes/assumptions/n.md.
-/

open Sys2Proof Sys2Proof.Machine

namespace Sys2Proof.Claims

/-- Slot `slot` of the block `b` that `who` runs is the one being offered and may issue instruction `i`: the block is in progress
and not committing, the slot has neither executed nor begun to wait, every operand has arrived and none is null, the predicate
matches, and no lower slot holds it back (R18, R20, R103, R119, R184, R191, R197). -/
structure Issues (s : State) (who : Agent) (slot : Nat) (i : Instr) (e : Exec) (b : Block) : Prop where
  acting : s.run.acting = some (who, slot)
  running : (s.fab.core who.core).exec who = some e
  issuing : (s.fab.core who.core).committing who = false
  offered : offered (s.fab.core who.core) e slot i = true
  live : squashes e slot i = false
  block : (s.fab.core who.core).blockOf who e = some b
  free : heldBack who e i = false
  ordered : orderedOk b e slot i = true

/-- Where instruction `i` issues and `pre` holds of the fabric and the operands, it answers the next state in which the fabric is
that of `post`; memory and the model's own fields stay. -/
def Does (i : Instr) (pre : Fabric → Issue → Prop) (post : Issue → Fabric → Fabric) : Prop :=
  ∀ s who slot e b, Issues s who slot i e b → pre s.fab (gather who slot i e) →
    exec i s = .next { s with fab := post (gather who slot i e) s.fab }

/-- The agent of an issue is an actor. -/
def IsActor (x : Issue) : Prop := ∃ c a, x.who = .actor c a

/-- The agent of an issue is a sequencer. -/
def IsSeq (x : Issue) : Prop := ∃ c, x.who = .seq c

/-- The result of an instruction whose token is a function of its operands: the token and the flags raised. -/
def resultOf (i : Instr) (x : Issue) : Option (Row × Fpx) :=
  match i with
  | .add f => some (aluAdd f x.a x.b)
  | .sub f => some (aluSub f x.a x.b)
  | .mul f => some (aluMul f x.a x.b)
  | .mulh f => some (aluMulh f x.a x.b)
  | .mad f => some (aluMad f x.a x.b x.c)
  | .quo f => some (aluQuo f x.a x.b)
  | .rem f => some (aluRem f x.a x.b)
  | .neg f => some (aluNeg f x.a)
  | .abs f => some (aluAbs f x.a)
  | .min f => some (aluMin f x.a x.b)
  | .max f => some (aluMax f x.a x.b)
  | .clamp f => some (aluClamp f x.a x.b x.c)
  | .adds f => some (aluAdds f x.a x.b)
  | .subs f => some (aluSubs f x.a x.b)
  | .dot4 f => some (aluDot4 f x.a x.b x.c)
  | .and f => some (aluAnd f x.a x.b)
  | .or f => some (aluOr f x.a x.b)
  | .xor f => some (aluXor f x.a x.b)
  | .andn f => some (aluAndn f x.a x.b)
  | .not f => some (aluNot f x.a)
  | .shl f => some (aluShl f x.a x.b)
  | .shr f => some (aluShr f x.a x.b)
  | .sra f => some (aluSra f x.a x.b)
  | .rotl f => some (aluRotl f x.a x.b)
  | .clz f => some (aluClz f x.a)
  | .popc f => some (aluPopc f x.a)
  | .bfx f => some (aluBfx f x.a)
  | .bfi f => some (aluBfi f x.a x.c)
  | .cmpeq f => some (aluCmpeq f x.a x.b)
  | .cmpne f => some (aluCmpne f x.a x.b)
  | .cmplt f => some (aluCmplt f x.a x.b)
  | .cmple f => some (aluCmple f x.a x.b)
  | .sel f => some (aluSel f x.a x.b x.c)
  | .mov f => some (aluMov f x.a)
  | .movi f => some (aluMovi f x.a)
  | .movh f => some (aluMovh f x.a)
  | .lit f => some (aluLit f)
  | .fadd f => some (aluFadd f x.a x.b)
  | .fsub f => some (aluFsub f x.a x.b)
  | .fmul f => some (aluFmul f x.a x.b)
  | .fma f => some (aluFma f x.a x.b x.c)
  | .fnma f => some (aluFnma f x.a x.b x.c)
  | .fmin f => some (aluFmin f x.a x.b)
  | .fmax f => some (aluFmax f x.a x.b)
  | .fabs f => some (aluFabs f x.a)
  | .fneg f => some (aluFneg f x.a)
  | .fcmpeq f => some (aluFcmpeq f x.a x.b)
  | .fcmplt f => some (aluFcmplt f x.a x.b)
  | .fcmple f => some (aluFcmple f x.a x.b)
  | .fcmpun f => some (aluFcmpun f x.a x.b)
  | .fclass f => some (aluFclass f x.a)
  | .fscale f => some (aluFscale f x.a x.b)
  | .fdiv f => some (aluFdiv f x.a x.b)
  | .frcp f => some (aluFrcp f x.a)
  | .frsq f => some (aluFrsq f x.a)
  | .fsqrt f => some (aluFsqrt f x.a)
  | .fexp2 f => some (aluFexp2 f x.a)
  | .flog2 f => some (aluFlog2 f x.a)
  | .fsig f => some (aluFsig f x.a)
  | .ftanh f => some (aluFtanh f x.a)
  | .cvt f => some (aluCvt f x.a)
  | .cvts f => some (aluCvts f x.a x.b)
  | .pack f => some (aluPack f x.a x.b)
  | .unpk f => some (aluUnpk f x.a)
  | .bcast f => some (aluBcast f x.a x.b)
  | .shuf f => some (aluShuf f x.a x.b)
  | .rotx f => some (aluRotx f x.a x.b)
  | .lane f => some (aluLane f x.a x.b)
  | .insl f => some (aluInsl f x.a x.b x.c)
  | .redadd f => some (aluRedadd f x.a)
  | .redmax f => some (aluRedmax f x.a)
  | .redmin f => some (aluRedmin f x.a)
  | .scan f => some (aluScan f x.a)
  | _ => none

/-- R126 (and R123, R127): an instruction of the compute chapter that issues completes its slot with its result token on both
targets and its flags gathered, whatever its operands; nothing else changes. No injection is armed that meets it (R273). The
instructions are the seventy-three of `resultOf`. -/
def ComputeCompletes : Prop :=
  ∀ i x r, resultOf i x = some r →
    ∀ s e b, Issues s x.who x.slot i e b → x = gather x.who x.slot i e →
      injectionFor (s.fab.core x.who.core) x.who i = none →
      exec i s = .next { s with fab := x.result r.1 r.2 s.fab }

/-- R144: NOP completes its slot and changes nothing else. -/
def NopCompletes : Prop := ∀ f, Does (.nop f) (fun _ _ => True) Issue.noResult

end Sys2Proof.Claims

open Sys2Proof.Claims

/-- Every compute instruction, and NOP, completes its slot with its result token. What is the model's own choice or inference in it:
log entries 3, 48. -/
def Obligations.ComputeAndNopComplete : Prop :=
  ComputeCompletes ∧ NopCompletes

namespace Sys2Proof.Claims

/-- R165, R166: the window instructions of an actor whose port is bound to window `n`. WRD delivers the row at its offset from the
head at firing start. WRDX does so once the window holds the row, and before that begins a wait for it. WUPD, WFIL and WSHR
buffer an update, a fill and a shrink to commit, and WSHR of 0 buffers nothing. WCNT delivers F, C − F, C and head. HGET (R172)
delivers a held register. -/
def WindowOpsComplete : Prop :=
  (∀ w n, Does (.wrd w)
    (fun f x => (f.core x.who.core).winOf x.who w.port.toNat = some n ∧ w.dist.toNat < ((f.core x.who.core).winCfg n).cap)
    fun x f => x.token ((f.core x.who.core).rowFrom x.exec n w.dist.toNat) f) ∧
  (∀ w n, Does (.wrdx w)
    (fun f x => (f.core x.who.core).winOf x.who w.port.toNat = some n ∧
      wrdxOffset w x.a < ((f.core x.who.core).winCfg n).cap ∧ wrdxOffset w x.a < (f.core x.who.core).readable n)
    fun x f => x.token ((f.core x.who.core).rowFrom x.exec n (wrdxOffset w x.a)) f) ∧
  (∀ w n, Does (.wrdx w)
    (fun f x => (f.core x.who.core).winOf x.who w.port.toNat = some n ∧
      wrdxOffset w x.a < ((f.core x.who.core).winCfg n).cap ∧ (f.core x.who.core).readable n ≤ wrdxOffset w x.a)
    fun x f => x.wait (.row (wrdxOffset w x.a)) f) ∧
  (∀ w n, Does (.wupd w)
    (fun f x => (f.core x.who.core).winOf x.who w.port.toNat = some n ∧ w.dist.toNat < sget 0 x.exec.snap.f0 n)
    fun x f => x.buffer (.upd w.port.toNat w.dist.toNat ⟨x.a, x.ember⟩) f) ∧
  (∀ w, Does (.wfil w) (fun _ _ => True) fun x f => x.buffer (.fill w.port.toNat ⟨x.a, x.ember⟩) f) ∧
  (∀ w, Does (.wshr w) (fun _ _ => w.dist ≠ 0) fun x f => x.buffer (.shrink w.port.toNat w.dist.toNat) f) ∧
  (∀ w, Does (.wshr w) (fun _ _ => w.dist = 0) Issue.noResult) ∧
  (∀ w n, Does (.wcnt w) (fun f x => (f.core x.who.core).winOf x.who w.port.toNat = some n)
    fun x f =>
      let cap := ((f.core x.who.core).winCfg n).cap
      let filled := sget 0 x.exec.snap.f0 n
      x.result (ofVals 32 [filled, cap - filled, cap, sget 0 x.exec.snap.head0 n]) fNone f) ∧
  ∀ d, Does (.hget d) (fun _ x => IsActor x)
    fun x f => x.result (sget 0 ((f.core x.who.core).actor (Agent.place x.who)).held (d.imm.toNat % 8)) fNone f

/-- R32 (Table 1-5), R165: a WRD or WRDX at or past the capacity and a WUPD at or past the rows filled at firing start abort the
firing with WINDOW_RANGE, TRAP_ADDR the offset. -/
def WindowRangeFaults : Prop :=
  (∀ w n, Does (.wrd w)
    (fun f x => (f.core x.who.core).winOf x.who w.port.toNat = some n ∧ ((f.core x.who.core).winCfg n).cap ≤ w.dist.toNat)
    fun x f => f.faultAt x.who x.slot x.i 0x20 w.dist.toNat 0) ∧
  (∀ w n, Does (.wrdx w)
    (fun f x => (f.core x.who.core).winOf x.who w.port.toNat = some n ∧
      ((f.core x.who.core).winCfg n).cap ≤ wrdxOffset w x.a)
    fun x f => f.faultAt x.who x.slot x.i 0x20 (wrdxOffset w x.a) 0) ∧
  ∀ w n, Does (.wupd w)
    (fun f x => (f.core x.who.core).winOf x.who w.port.toNat = some n ∧ sget 0 x.exec.snap.f0 n ≤ w.dist.toNat)
    fun x f => f.faultAt x.who x.slot x.i 0x20 w.dist.toNat 0

end Sys2Proof.Claims

/-- The window instructions complete, wait for a row, or fault WINDOW_RANGE. -/
def Obligations.WindowInstructionsComplete : Prop :=
  WindowOpsComplete ∧ WindowRangeFaults

namespace Sys2Proof.Claims

/-- The accumulator write that an instruction makes, and the first and last row that it names (R173 to R175). -/
def accWriteOf (i : Instr) (x : Issue) : Option (AccOp × Nat × Nat) :=
  let row (d : DFields) := elem 32 x.a 0 + d.imm.toNat % 1024
  match i with
  | .awr d => some (.write, row d, row d)
  | .aacc d => some (.add (modeOf d.mod), row d, row d)
  | .apatchSet d => some (.patch 0 (modeOf d.mod) (elem 32 x.c 0 % 65536), row d, row d)
  | .apatchAdd d => some (.patch 1 (modeOf d.mod) (elem 32 x.c 0 % 65536), row d, row d)
  | .apatchScale d => some (.patch 2 (modeOf d.mod) (elem 32 x.c 0 % 65536), row d, row d)
  | .aclr d => some (.clear (d.imm.toNat / 1024 + 1), row d, row d + d.imm.toNat / 1024)
  | _ => none

/-- No row of an accumulator write is held by a matrix operation (R45). -/
def AccFree (k : Core) (o : AccOp) (row : Nat) : Prop := ∀ r ∈ o.rows row, k.accHeld r = false

/-- R174 to R176: AWR, AACC, the three modes of APATCH and ACLR whose rows lie within the array and are held by no matrix operation.
In an actor the write is buffered to commit; in a sequencer's block it is applied when it executes, the flags of its arithmetic
are gathered, and an APATCH needs two free rows in the patch log where one is set, and waits while a WREST fills it (R170). -/
def AccumulatorWritesComplete : Prop :=
  ∀ i x o row last, accWriteOf i x = some (o, row, last) → last < 1024 →
    ∀ s e b, Issues s x.who x.slot i e b → x = gather x.who x.slot i e → AccFree (s.fab.core x.who.core) o row →
      (∀ c a, x.who = .actor c a → exec i s = .next { s with fab := x.buffer (.acc row o ⟨x.b, x.ember⟩) s.fab }) ∧
      (∀ c, x.who = .seq c →
        (∀ k n m w, o = .patch k n m → (s.fab.core c).plane.patchLog = some w →
          2 ≤ (s.fab.core c).freeRows w ∧ (s.fab.core c).restoring w = false) →
        exec i s = .next (s.onFabric fun f => f.modCore c fun k =>
          let r := k.accApply (.seq c) row o ⟨x.b, x.ember⟩ (f.heldUnit (.seq c))
          r.1.modExec (.seq c) fun e => { e.mark x.slot r.2 with acted := true }))

/-- R175, R176: ARD of a row within the array that no matrix operation holds delivers, in an actor, the row as at firing start, and
in a sequencer's block the row as it is. -/
def ArdReadsRow : Prop :=
  (∀ d, Does (.ard d)
    (fun f x => IsActor x ∧ elem 32 x.a 0 + d.imm.toNat % 1024 < 1024 ∧
      (f.core x.who.core).accHeld (elem 32 x.a 0 + d.imm.toNat % 1024) = false)
    fun x f => x.token (sget {} x.exec.snap.acc (elem 32 x.a 0 + d.imm.toNat % 1024)) f) ∧
  ∀ d, Does (.ard d)
    (fun f x => IsSeq x ∧ elem 32 x.a 0 + d.imm.toNat % 1024 < 1024 ∧
      (f.core x.who.core).accHeld (elem 32 x.a 0 + d.imm.toNat % 1024) = false)
    fun x f => x.token (sget {} (f.core x.who.core).mx.acc (elem 32 x.a 0 + d.imm.toNat % 1024)) f

/-- R174, R45: an accumulator instruction that names a row above 1,023 raises ACC_RANGE with TRAP_ADDR the last row named, and one
of an actor whose row a matrix operation holds raises ACC_BUSY. -/
def AccumulatorFaults : Prop :=
  (∀ i x o row last, accWriteOf i x = some (o, row, last) → 1024 ≤ last →
    ∀ s e b, Issues s x.who x.slot i e b → x = gather x.who x.slot i e →
      exec i s = .next { s with fab := s.fab.faultAt x.who x.slot i 0x07 last 0 }) ∧
  (∀ i x o row last, accWriteOf i x = some (o, row, last) → last < 1024 →
    ∀ s e b c a r, Issues s x.who x.slot i e b → x = gather x.who x.slot i e → x.who = .actor c a →
      (o.rows row).find? (s.fab.core c).accHeld = some r →
      exec i s = .next { s with fab := s.fab.faultAt x.who x.slot i 0x08 r 0 }) ∧
  ∀ d, Does (.ard d) (fun _ x => 1024 ≤ elem 32 x.a 0 + d.imm.toNat % 1024)
    fun x f => f.faultAt x.who x.slot x.i 0x07 (elem 32 x.a 0 + d.imm.toNat % 1024) 0

end Sys2Proof.Claims

/-- The accumulator instructions complete, and fault out of range or on a held row. What is the model's own choice or inference in
it: log entries 39, 47. -/
def Obligations.AccumulatorInstructionsComplete : Prop :=
  AccumulatorWritesComplete ∧ ArdReadsRow ∧ AccumulatorFaults

namespace Sys2Proof.Claims

/-- No lane of a memory instruction is misaligned, struck by a watchpoint, or refused by the page or the ordered-update rules that
the core's cache shows (R180, R182, R189, R192, R289, R298, R428). -/
def LanesClear (f : Fabric) (x : Issue) : Prop :=
  ∀ l ∈ x.lanesNow f, ∀ code a hits, f.checkLane x.who x.exec x.i l ≠ .fault code a hits

/-- Every lane is clear, and the core's cache holds its page. -/
def LanesHeld (f : Fabric) (x : Issue) : Prop := ∀ l ∈ x.lanesNow f, ∃ pa cls page, f.checkLane x.who x.exec x.i l = .ok pa cls page

/-- What a lane asks for: its number, address, width, data and compare value. -/
def laneKey (l : ReqLane) : Nat × Nat × Nat × Nat × Nat := (l.idx, l.va, l.n, l.data, l.cmp)

/-- The lanes that an instruction asks for, from its operands. -/
def asked (x : Issue) : List (Nat × Nat × Nat × Nat × Nat) := (memLanes x.i x.a x.b x.c).map laneKey

/-- The walks asked of the die walkers after a request has been opened: one for the request when a lane of it has no translation yet
(R294). -/
def walksWith (s : State) (r : Req) : Sparse (List Walk) :=
  if r.lanes.any fun l => l.pa.isNone && !l.bad then
    smod [] s.fab.units.walks (dieOf r.who.core) fun l => if l.contains (.req r.id) then l else l ++ [.req r.id]
  else s.fab.units.walks

/-- From `s` to `t` a request for an instruction's lanes has been opened: it is the newest request, its slot is in flight, it asks the
walker of its die for the translations it lacks, and memory and the other cores are as they were. -/
def Opened (s t : State) (x : Issue) (r : Req) : Prop :=
  t.fab.units = { s.fab.units with
    nextId := s.fab.units.nextId + 1, reqs := s.fab.units.reqs ++ [r], walks := walksWith s r } ∧
  r.id = s.fab.units.nextId ∧ r.who = x.who ∧ r.exec = x.exec.id ∧ r.slot = x.slot ∧ r.kind = reqKind x.i ∧
  r.chan = reqChan x.i ∧ (r.lanes.map laneKey).Perm (asked x) ∧ t.mem = s.mem ∧
  ∀ d, d ≠ x.who.core → t.fab.core d = s.fab.core d

/-- LD, LD2, LDS and GATH. -/
def isLoad : Instr → Bool
  | .ld _ | .ld2 _ | .lds _ | .gath _ => true
  | _ => false

/-- The ten atomics. -/
def isAtomicOp : Instr → Bool
  | .atadd _ | .atfadd _ | .atmin _ | .atmax _ | .atfmax _ | .atand _ | .ator _ | .atxor _ | .atxch _ | .atcas _ => true
  | _ => false

/-- ST, STS, SCAT, and an atomic without a target. -/
def isStoreOp (i : Instr) : Bool :=
  match i with
  | .st _ | .sts _ | .scat _ => true
  | _ => isAtomicOp i && (commonFields i).t1 / 128 = 0 && (commonFields i).t2 / 128 = 0

/-- An atomic with a target. -/
def isEagerOp (i : Instr) : Bool := isAtomicOp i && !((commonFields i).t1 / 128 = 0 && (commonFields i).t2 / 128 = 0)

end Sys2Proof.Claims

/-- R181, R49, R52, R180: LD, LD2, LDS and GATH whose lanes are clear and whose channel has a slot free open a request for their
lanes: LD 64 bytes at A.e0 + DISP, LD2 two such accesses, LDS SIZE bytes, GATH one lane for each enabled element. A sequencer's
load raises OUTSTANDING.LD, and its block has acted (R197). Without a slot free the instruction begins to wait, and asks for one in
its order among the askers. While a load of a lower slot on the same channel is ready and has not asked, nothing happens (log entry
65). -/
def Obligations.LoadsComplete : Prop :=
  ∀ i x, isLoad i = true →
    ∀ s e b, Issues s x.who x.slot i e b → x = gather x.who x.slot i e → LanesClear s.fab x →
      (s.fab.lowerAsks x ((reqChan i).getD 0) = true → exec i s = .next s) ∧
      (s.fab.lowerAsks x ((reqChan i).getD 0) = false → s.fab.slotFree x.who.core ((reqChan i).getD 0) = true →
        ∃ t r, exec i s = .next t ∧ Opened s t x r ∧
          (t.fab.core x.who.core).exec x.who =
            some { e with inflight := x.slot :: e.inflight, acted := e.acted || Agent.isBlock x.who } ∧
          (t.fab.core x.who.core).counts.ld =
            (s.fab.core x.who.core).counts.ld + (match x.who with | .seq _ => 1 | _ => 0)) ∧
      (s.fab.lowerAsks x ((reqChan i).getD 0) = false → s.fab.slotFree x.who.core ((reqChan i).getD 0) = false →
        exec i s = .next (s.onFabric fun f =>
          (x.wait (.slot ((reqChan i).getD 0)) (f.modCore x.who.core fun k =>
            { k with askers := k.askers.filter k.stillAsks })).modCore x.who.core fun k =>
              { k with askers := insertAsker ⟨(reqChan i).getD 0, x.who, x.slot, e.id, f.units.cycle⟩ k.askers }))

/-- R182, R187, R188: ST, STS, SCAT and an atomic without a target whose lanes are clear. With every page in the core's cache the
stores (or deferred atomics) are buffered to commit with their addresses and data, and the slot completes; else a request is
open until the pages are known. Memory does not change. What is the model's own choice or inference in it: log entry 39. -/
def Obligations.StoresComplete : Prop :=
  ∀ i x, isStoreOp i = true →
    ∀ s e b, Issues s x.who x.slot i e b → x = gather x.who x.slot i e → LanesClear s.fab x →
      (LanesHeld s.fab x → ∃ t ls, exec i s = .next t ∧ t.mem = s.mem ∧ t.fab.units = s.fab.units ∧
        ls.map (fun l : MemLane => (l.va, l.n, l.data, l.cmp)) = (memLanes i x.a x.b x.c).map (fun l => (l.va, l.n, l.data, l.cmp)) ∧
        (∀ l ∈ ls, l.op = if isAtomic i then (opcodeOf i).getD 0 else 0) ∧
        (t.fab.core x.who.core).exec x.who = some ((e.addEffect x.slot (.store ls x.ember)).mark x.slot fNone) ∧
        ∀ d, d ≠ x.who.core → t.fab.core d = s.fab.core d) ∧
      (¬ LanesHeld s.fab x → ∃ t r, exec i s = .next t ∧ Opened s t x r ∧
        (t.fab.core x.who.core).exec x.who = some { e with inflight := x.slot :: e.inflight })

/-- R187 to R189, R27: an atomic with a target that issues for the first time, its lanes clear and its pages in the core's cache,
opens its request and pins its firing. In a sequencer's block it raises OUTSTANDING.ST, and the block has acted (R52, R403). -/
def Obligations.EagerAtomicsComplete : Prop :=
  ∀ i x, isEagerOp i = true →
    ∀ s e b, Issues s x.who x.slot i e b → x = gather x.who x.slot i e → LanesHeld s.fab x →
      s.fab.reqOf e.id x.slot = none → (∀ r ∈ s.fab.units.reqs, r.id ≠ s.fab.units.nextId) →
      ∃ t r, exec i s = .next t ∧ Opened s t x r ∧
        (∀ c a, x.who = .actor c a → (t.fab.core c).isPinned a = true ∧
          (t.fab.core c).exec x.who = some { e with inflight := x.slot :: e.inflight }) ∧
        (∀ c, x.who = .seq c → (t.fab.core c).counts.st = (s.fab.core c).counts.st + 1 ∧
          (t.fab.core c).exec x.who = some { e with inflight := x.slot :: e.inflight, acted := true })

namespace Sys2Proof.Claims

/-- R183: PREF of a line-aligned address completes its slot and changes nothing else; of another address it raises ADDR_ALIGN. -/
def PrefCompletes : Prop :=
  (∀ m, Does (.pref m) (fun _ x => scalarVa x.a m.low % 64 = 0) Issue.noResult) ∧
  ∀ m, Does (.pref m) (fun _ x => scalarVa x.a m.low % 64 ≠ 0)
    fun x f => f.faultAt x.who x.slot x.i 0x0A (scalarVa x.a m.low) 0

/-- R180, R195: a load, a store or an atomic without a target whose first lane is misaligned (LD2 on 128 bytes, every other lane on
its width) raises ADDR_ALIGN at the lane's address, and no request is opened. -/
def MisalignedAccessFaults : Prop :=
  ∀ i x, isLoad i = true ∨ isStoreOp i = true →
    ∀ s e b l ls, Issues s x.who x.slot i e b → x = gather x.who x.slot i e →
      memLanes i x.a x.b x.c = l :: ls → l.va % laneAlign i l ≠ 0 → s.fab.canFault x.who x.slot = true →
      exec i s = .next (s.onFabric fun f => (f.modCore x.who.core fun k => k.hit []).faultAt x.who x.slot i 0x0A l.va
        (trapLane i l 0) none)

end Sys2Proof.Claims

/-- PREF completes; a misaligned access raises ADDR_ALIGN. What is the model's own choice or inference in it: log entry 47. -/
def Obligations.PrefAndMisalignedAccesses : Prop :=
  PrefCompletes ∧ MisalignedAccessFaults

namespace Sys2Proof.Claims

/-- What an actor's FENCE waits for at a scope: its units of stores and the eager atomics of lower slots (R191). -/
def ActorFenced (d : DFields) (f : Fabric) (x : Issue) : Prop :=
  f.unitsDone x.who (d.imm.toNat % 4) = true ∧
    ∀ b, (f.core x.who.core).blockOf x.who x.exec = some b → f.lowerDone b x.exec x.slot (d.imm.toNat % 4) isEager = true

/-- What a sequencer's FENCE waits for at a scope: the core class and the gather/atomic class of its core (R191). -/
def SeqFenced (d : DFields) (f : Fabric) (x : Issue) : Prop :=
  f.classDone x.who.core 0 (d.imm.toNat % 4) (x.bound f) = true ∧
    f.classDone x.who.core 3 (d.imm.toNat % 4) (x.bound f) = true ∧
    ∀ b, (f.core x.who.core).blockOf x.who x.exec = some b →
      f.lowerDone b x.exec x.slot (d.imm.toNat % 4) (fun i => requestIn 0 i || requestIn 3 i) = true

/-- What an XFENCE waits for: the accesses of its first class at its scope (R191). -/
def CrossFenced (d : DFields) (f : Fabric) (x : Issue) : Prop :=
  f.classDone x.who.core (d.imm.toNat % 16) (d.imm.toNat / 256 % 4) (x.bound f) = true ∧
    ∀ b, (f.core x.who.core).blockOf x.who x.exec = some b →
      f.lowerDone b x.exec x.slot (d.imm.toNat / 256 % 4) (requestIn (d.imm.toNat % 16)) = true

/-- The fabric in which an actor's next firing waits for its own unit at a scope. -/
def fenceNext (x : Issue) (scope : Nat) (f : Fabric) : Fabric :=
  f.modCore x.who.core fun k => k.modActor (Agent.place x.who) fun y => { y with fence := some (max scope (y.fence.getD 0)) }

/-- R191: FENCE and XFENCE whose accesses are performed at their scope complete; an actor's FENCE, and its XFENCE from class core or
class gather/atomic, makes its next firing wait for this firing's own unit at that scope. Until then the fence stays in its
slot, with the number of its first offer kept. -/
def FencesComplete : Prop :=
  (∀ d, Does (.fence d) (fun f x => IsActor x ∧ ActorFenced d f x)
    fun x f => fenceNext x (d.imm.toNat % 4) (x.noResult f)) ∧
  (∀ d, Does (.fence d) (fun f x => IsSeq x ∧ SeqFenced d f x) Issue.noResult) ∧
  (∀ d, Does (.fence d) (fun f x => IsActor x ∧ ¬ ActorFenced d f x ∨ IsSeq x ∧ ¬ SeqFenced d f x)
    fun x f => f.modCore x.who.core fun k => k.modExec x.who fun e => { e with fences := sset e.fences x.slot (x.bound f) }) ∧
  (∀ d, Does (.xfence d)
    (fun f x => IsActor x ∧ (d.imm.toNat % 16 = 0 ∨ d.imm.toNat % 16 = 3) ∧ CrossFenced d f x)
    fun x f => fenceNext x (d.imm.toNat / 256 % 4) (x.noResult f)) ∧
  (∀ d, Does (.xfence d)
    (fun f x => (IsSeq x ∨ d.imm.toNat % 16 ≠ 0 ∧ d.imm.toNat % 16 ≠ 3) ∧ CrossFenced d f x) Issue.noResult) ∧
  ∀ d, Does (.xfence d) (fun f x => ¬ CrossFenced d f x)
    fun x f => f.modCore x.who.core fun k => k.modExec x.who fun e => { e with fences := sset e.fences x.slot (x.bound f) }

/-- R192, R379: TSET sets the firing's timestamp; a second one raises TSTAMP_TWICE, one below the region's horizon TSTAMP_ORDER.
TGET delivers TSTAMP of no timestamp and HORIZON as at firing start. -/
def TimestampsComplete : Prop :=
  (∀ d, Does (.tset d)
    (fun f x => x.exec.tstamp = none ∧
      (f.region (f.core x.who.core).regionId).horizon ≤ BitVec.ofNat 64 (elem 64 x.a 0))
    fun x f => (x.noResult f).modCore x.who.core fun k => k.modExec x.who fun e =>
      { e with tstamp := some (BitVec.ofNat 64 (elem 64 x.a 0)) }) ∧
  (∀ d, Does (.tset d) (fun _ x => x.exec.tstamp ≠ none) fun x f => f.faultAt x.who x.slot x.i 0x0C 0 0) ∧
  (∀ d, Does (.tset d)
    (fun f x => x.exec.tstamp = none ∧
      BitVec.ofNat 64 (elem 64 x.a 0) < (f.region (f.core x.who.core).regionId).horizon)
    fun x f => f.faultAt x.who x.slot x.i 0x0E (elem 64 x.a 0) 0) ∧
  ∀ d, Does (.tget d) (fun _ _ => True)
    fun x f => x.result (ofVals 64 [2 ^ 64 - 1, (sget 0 x.exec.snap.ctl 0x013).toNat]) fNone f

end Sys2Proof.Claims

/-- Fences wait for what they order; TSET sets and TGET reads the timestamp. What is the model's own choice or inference in it: log
entry 7. -/
def Obligations.FencesAndTimestampsComplete : Prop :=
  FencesComplete ∧ TimestampsComplete

namespace Sys2Proof.Claims

/-- R193, R50: BARA of an actor buffers its arrival; in a sequencer's block, its stores performed at core scope, it arrives and
records the phase. BARW completes when the phase differs from the one recorded, else it begins to wait. BARAW does both. WAITC
(R194) completes when OUTSTANDING is within its limits, else it begins to wait. -/
def BarriersComplete : Prop :=
  (∀ d, Does (.bara d) (fun _ x => IsActor x) fun x f => x.buffer (.arrive (d.imm.toNat % 32)) f) ∧
  (∀ d, Does (.bara d) (fun f x => IsSeq x ∧ f.unitsDone x.who 0 = true)
    fun x f => (x.noResult (f.modCore x.who.core fun k => k.seqArrive (d.imm.toNat % 32))).modCore x.who.core fun k =>
      k.modExec x.who fun e => { e with acted := true }) ∧
  (∀ d, Does (.barw d)
    (fun f x => ((f.core x.who.core).bar (d.imm.toNat % 32)).phase ≠ (f.core x.who.core).recorded (d.imm.toNat % 32))
    Issue.noResult) ∧
  (∀ d, Does (.barw d)
    (fun f x => ((f.core x.who.core).bar (d.imm.toNat % 32)).phase = (f.core x.who.core).recorded (d.imm.toNat % 32))
    fun x f => x.wait (.bar (d.imm.toNat % 32) ((f.core x.who.core).recorded (d.imm.toNat % 32))) f) ∧
  (∀ d, Does (.baraw d) (fun f x => f.unitsDone x.who 0 = true)
    fun x f =>
      let k := (f.core x.who.core).seqArrive (d.imm.toNat % 32)
      let f := f.modCore x.who.core fun k =>
        (k.seqArrive (d.imm.toNat % 32)).modExec x.who fun e => { e with acted := true }
      if (k.bar (d.imm.toNat % 32)).phase ≠ k.recorded (d.imm.toNat % 32) then x.noResult f
      else x.wait (.bar (d.imm.toNat % 32) (k.recorded (d.imm.toNat % 32))) f) ∧
  (∀ d, Does (.waitc d) (fun f x => (f.core x.who.core).counts.within d.imm.toNat = true) Issue.noResult) ∧
  ∀ d, Does (.waitc d) (fun f x => (f.core x.who.core).counts.within d.imm.toNat = false)
    fun x f => x.wait (.count d.imm.toNat) f

/-- R193, R50: one sequencer arrival records the phase it sees, counts, and at the expected count (1 where none is set) flips the
phase and clears the count. -/
def BarrierArrival : Prop :=
  ∀ (k : Core) (b : Nat),
    (k.seqArrive b).recorded b = (k.bar b).phase ∧
    ((k.bar b).arrived + 1 < sget 1 k.plane.bars b → (k.seqArrive b).bar b = ⟨(k.bar b).arrived + 1, (k.bar b).phase⟩) ∧
    (sget 1 k.plane.bars b ≤ (k.bar b).arrived + 1 → (k.seqArrive b).bar b = ⟨0, !(k.bar b).phase⟩) ∧
    ∀ c, c ≠ b → (k.seqArrive b).bar c = k.bar c ∧ (k.seqArrive b).recorded c = k.recorded c

end Sys2Proof.Claims

/-- Barriers are arrived at, waited for and flipped; WAITC waits for its counts. -/
def Obligations.BarrierInstructionsComplete : Prop :=
  BarriersComplete ∧ BarrierArrival

namespace Sys2Proof.Claims

/-- The choice of a branch instruction (R198, R200, R206). -/
def choiceOf (i : Instr) (x : Issue) : Option Choice :=
  match i with
  | .br d => some (.goto (d.imm.toNat % 1024))
  | .brc d => some (.goto (if elem 64 x.a 0 ≠ 0 then d.imm.toNat % 1024 else x.exec.block + 1))
  | .brx d => some (.goto (d.imm.toNat % 1024 + elem 64 x.a 0))
  | .call d => some (.call (d.imm.toNat % 1024))
  | .ret _ => some .ret
  | .rft d => some (.rft (if d.srcA = 0 then some (elem 64 x.a 0) else none))
  | .halt _ => some .halt
  | _ => none

/-- R198, R200, R206: BR, BRC, BRX, CALL, RET, RFT and HALT complete their slot and record the block's choice. -/
def BranchesComplete : Prop :=
  ∀ i x c, choiceOf i x = some c →
    ∀ s e b, Issues s x.who x.slot i e b → x = gather x.who x.slot i e →
      exec i s = .next (s.onFabric fun f =>
        (x.noResult f).modCore x.who.core fun k => k.modExec x.who fun e => { e with choice := some c })

/-- R39, R201: GRD delivers gN, of a firing as at its start, with g0 read as zero. MFK delivers a control register, in a sequencer's
block as it is, in a firing as at its start, TSTAMP being what this firing's TSET set. MTK in its three forms buffers its write
to the end of the block. -/
def RegisterMovesCompletePart : Prop :=
  (∀ d, Does (.grd d) (fun _ _ => d.imm.toNat % 64 = 0) fun x f => x.result (wordTok 0) fNone f) ∧
  (∀ d, Does (.grd d) (fun _ x => IsActor x ∧ d.imm.toNat % 64 ≠ 0)
    fun x f => x.result (wordTok (sget 0 x.exec.snap.g (d.imm.toNat % 64))) fNone f) ∧
  (∀ d, Does (.grd d) (fun _ x => IsSeq x ∧ d.imm.toNat % 64 ≠ 0)
    fun x f => x.result (wordTok (sget 0 (f.core x.who.core).seq.g (d.imm.toNat % 64))) fNone f) ∧
  (∀ d, Does (.mfk d) (fun _ x => IsActor x ∧ d.imm.toNat % 4096 ≠ 0x012)
    fun x f => x.result (wordTok (sget 0 x.exec.snap.ctl (d.imm.toNat % 4096))) fNone f) ∧
  (∀ d, Does (.mfk d) (fun _ x => IsActor x ∧ d.imm.toNat % 4096 = 0x012)
    fun x f => x.result (wordTok (x.exec.tstamp.getD (BitVec.allOnes 64))) fNone f) ∧
  (∀ d, Does (.mfk d) (fun _ x => IsSeq x)
    fun x f => x.result (wordTok (f.ctlSeq x.who.core (d.imm.toNat % 4096))) fNone f) ∧
  ∀ d i, i = .mtk d ∨ i = .fpxClear d ∨ i = .wpHitClear d → Does i (fun _ _ => True)
    fun x f => x.buffer (.mtk (d.imm.toNat % 4096) ⟨x.a, x.ember⟩) f

/-- R8, R42, R43, R201, R404: an MTK applied to FPX or WP_HIT clears the bits written as one; to a sequencer-scope register it
writes the bits its layout has; to any other number, and with a marked token, it writes nothing. -/
def ControlWrite : Prop :=
  ∀ (k : Core) (num : Nat) (t : Tok),
    let v : Word := BitVec.ofNat 64 (elem 64 t.bits 0)
    (t.ember = true → k.applyMtk num t = k) ∧
    (t.ember = false → num = 0x030 →
      k.applyMtk num t = { k with seq := { k.seq with fpx := k.seq.fpx &&& ~~~ (v.setWidth 5) } }) ∧
    (t.ember = false → num = 0x034 →
      k.applyMtk num t = { k with dbg := { k.dbg with hit := k.dbg.hit &&& ~~~(v.setWidth 8) } }) ∧
    (t.ember = false → 0x020 ≤ num → num ≤ 0x027 ∨ num = 0x037 → sget 0 (k.applyMtk num t).seq.ctl num = v &&& ctlMask num) ∧
    (num ≠ 0x030 → num ≠ 0x034 → num < 0x020 ∨ 0x027 < num → num ≠ 0x037 → k.applyMtk num t = k)

end Sys2Proof.Claims

/-- GRD, MFK and the three MTK forms move registers as the manual lays them out. What is the model's own choice or inference in it:
log entries 8, 42. -/
def Obligations.RegisterMovesComplete : Prop :=
  RegisterMovesCompletePart ∧ ControlWrite

namespace Sys2Proof.Claims

/-- R203: TRAP in a sequencer's block completes its slot and keeps the lowest TRAP of the block; in a firing that is not pinned it
raises TRAP with its immediate. R207: EVWAIT with an event present delivers it and clears it, and else begins to wait. -/
def TrapAndEvwaitComplete : Prop :=
  (∀ d, Does (.trap d) (fun _ x => IsSeq x)
    fun x f => (x.noResult f).modCore x.who.core fun k => k.modExec x.who fun e =>
      { e with soft := match e.soft with
          | some p => if p.1 < x.slot then some p else some (x.slot, d.imm.toNat)
          | none => some (x.slot, d.imm.toNat) }) ∧
  (∀ d, Does (.trap d) (fun f x => IsActor x ∧ (f.core x.who.core).isPinned (Agent.place x.who) = false)
    fun x f => f.faultAt x.who x.slot x.i 0x01 d.imm.toNat 0) ∧
  (∀ d, Does (.trap d)
    (fun f x => IsActor x ∧ (f.core x.who.core).isPinned (Agent.place x.who) = true ∧ f.canFault x.who x.slot = true)
    fun x f => (x.noResult f).faultAt x.who x.slot x.i 0x01 d.imm.toNat 0) ∧
  (∀ d, Does (.evwait d) (fun f x => f.events x.who.core (d.imm.toNat % 16) (elem 64 x.a 0) ≠ 0)
    fun x f =>
      let ev := f.events x.who.core (d.imm.toNat % 16) (elem 64 x.a 0)
      (x.result (ofVals 32 [ev, (f.core x.who.core).eng.strm]) fNone f).modCore x.who.core fun k => k.clearEvents ev) ∧
  ∀ d, Does (.evwait d) (fun f x => f.events x.who.core (d.imm.toNat % 16) (elem 64 x.a 0) = 0)
    fun x f => x.wait (.event (d.imm.toNat % 16) (elem 64 x.a 0)) f

end Sys2Proof.Claims

/-- Branches record the choice of their block; TRAP and EVWAIT complete. What is the model's own choice or inference in it: log
entries 9, 42. -/
def Obligations.BranchesTrapAndEvwaitComplete : Prop :=
  BranchesComplete ∧ TrapAndEvwaitComplete

namespace Sys2Proof.Claims

/-- The item that a configuration instruction enters: the refusals that hold whatever the plane, those that hold in the plane, by
the codes of Table 7-7, and the plane with the item. None for a CACTOR whose block breaks a check of the PE store. -/
def itemOf (i : Instr) (f : Fabric) (x : Issue) : Option (CFields × Item) :=
  let k := f.core x.who.core
  let e (j : Nat) : Nat := elem 32 x.a j
  let stack := k.stackRows x.who
  let g := k.groupOf x.who
  match i with
  | .cwin m =>
    let w := m.obj.toNat
    some (m,
      { static := failing [(m.arg ≠ 0 || 49152 ≤ e 0 || e 1 = 0 || 4096 < e 1 || !identOk (e 2) || !identOk (e 3) ||
            beyond 4 x.a || x.b ≠ 0, 0x21)]
        inPlane := fun p => failing
          [(p.overlaps stack w (e 0) (e 1), 0x22), (p.clash w true (e 2) || p.clash w false (e 3), 0x24),
           (p.ports.any fun q => q.2.win = w && e 1 < q.2.need, 0x21)]
        enter := fun p => { p with wins := sset p.wins w ⟨e 0, e 1, e 2, e 3, none⟩ } })
  | .wgrow m =>
    let w := m.obj.toNat
    let base (p : Plane) : Nat := if e 1 = 0xFFFFFFFF then (match sfind p.wins w with | some c => c.base | none => 0) else e 1
    some (m,
      { static := failing [(m.arg ≠ 0 || 4096 < e 0 || (49152 ≤ e 1 && e 1 ≠ 0xFFFFFFFF) || beyond 2 x.a || x.b ≠ 0, 0x21)]
        inPlane := fun p => match sfind p.wins w with
          | none => [0x23]
          | some c => failing [(p.overlaps stack w (base p) (e 0), 0x22), (e 0 ≤ c.cap, 0x30)]
        enter := fun p => match sfind p.wins w with
          | none => p
          | some c => { p with wins := sset p.wins w { c with base := base p, cap := e 0 } } })
  | .cport m =>
    let w := m.obj.toNat
    let out := bitOf m.arg.toNat 6; let circ := bitOf m.arg.toNat 7
    let a := e 0 * 4 + field m.arg.toNat 5 4
    let key := portKey a (field m.arg.toNat 3 0)
    let landed (p : Plane) : Plane := if circ then { p with wins := sset p.wins w ⟨e 3, e 2, 0, 0, some out⟩ } else p
    let bound (p : Plane) : Plane := let p := landed p; { p with ports := sset p.ports key ⟨w, out, e 1⟩ }
    some (m,
      { static := failing
          [(255 < e 0, 0x20),
           (beyond 4 x.a || x.b ≠ 0 ||
              (if circ then e 2 = 0 || 16 < e 2 || 49152 ≤ e 3 || e 2 < e 1 else e 2 ≠ 0 || e 3 ≠ 0), 0x21)]
        inPlane := fun p =>
          failing
            [(circ && p.overlaps stack w (e 3) (e 2), 0x22), (!circ && (sfind p.wins w).isNone, 0x23),
             (!circ && (match sfind p.wins w with | some c => c.cap < e 1 | none => false), 0x21),
             ((landed p).heldBy w out key (portIdent key) ||
                (circ && ((p.ports.any fun q => q.1 ≠ key && q.2.win = w) || (!out && p.patchLog = some w))), 0x24)] ++
            (if e 0 ≤ 255 then (bound p).bindFails g a else [])
        enter := bound })
  | .cactor m =>
    let a := m.obj.toNat * 4 + field m.arg.toNat 1 0
    let links : Option Nat := if e 2 = 0xFFFFFFFF then none else some (e 2)
    let bad := field m.arg.toNat 7 4 ≠ 0 || 3 < e 1 || (e 2 ≠ 0xFFFFFFFF && 15 < e 2) || beyond 3 x.a || x.b ≠ 0
    let bound (p : Plane) : Plane := { p with actors := sset p.actors a ⟨e 0, e 1, links, bitOf m.arg.toNat 2⟩ }
    match Group.actorBlock g (e 0) with
    | none => some (m, { static := failing [(bad, 0x21), (true, 0x28)], enter := id })
    | some b =>
      if (b.validate true).isSome then none
      else some (m,
        { static := failing [(bad, 0x21)]
          inPlane := fun p =>
            failing
              [(links.isSome && p.actors.any fun q => q.1 ≠ a && q.1 / 4 = a / 4 && q.2.links = links, 0x21),
               (p.actors.any fun q => q.1 ≠ a && q.1 / 4 = a / 4 && q.2.store = e 1 && q.2.block ≠ e 0, 0x29)] ++
              (bound p).bindFails g a
          enter := bound })
  | .cactorUnbind m =>
    let a := m.obj.toNat * 4 + field m.arg.toNat 1 0
    some (m,
      { static := failing [(field m.arg.toNat 7 4 ≠ 0, 0x21)]
        enter := fun p => { p with actors := sdel p.actors a, ports := p.ports.filter fun q => q.1 / 16 ≠ a } })
  | .croute m =>
    let inb := bitOf m.arg.toNat 0
    let kind := field (e 0) 31 30; let obj := field (e 0) 7 0; let inp := field (e 0) 11 8
    let key := m.obj.toNat * 2 + (if inb then 1 else 0)
    some (m,
      { static := failing
          [(field m.arg.toNat 7 1 ≠ 0 || kind = 3 || field (e 0) 29 12 ≠ 0 || (kind = 0 && inp ≠ 0) || beyond 2 x.a || x.b ≠ 0 ||
              (if inb then e 1 ≠ 0 else e 1 = 0 || 64 < e 1), 0x21)]
        inPlane := fun p => failing
          [(kind ≠ 0 && (63 < obj || 2 < inp ||
              (match sfind p.opers obj with
               | some o => (if kind = 1 then (operPorts o.op).1 else (operPorts o.op).2) ≤ inp
               | none => false)), 0x20),
           (kind = 0 && (sfind p.wins obj).isNone, 0x23), (kind = 0 && inb && p.patchLog = some obj, 0x24),
           ((if kind = 0 then
              match sfind p.wins obj with
              | some c => c.landing ≠ some (!inb) || (p.portOf obj (!inb)).isNone
              | none => false
             else (kind = 1) ≠ inb) ||
              (match sfind p.ends key with
              | some o => o.kind ≠ kind || o.obj ≠ obj || o.inp ≠ inp
              | none => false) ||
              p.ends.any (fun q => q.1 ≠ key && q.2.kind = kind && q.2.obj = obj && q.2.inp = inp), 0x2D)]
        enter := fun p => { p with ends := sset p.ends key ⟨kind, obj, inp, if inb then 0 else e 1⟩ } })
  | .csteer m => some (m, operItem m 0x2C5 x (m.arg ≠ 0 || x.a ≠ 0 || x.b ≠ 0))
  | .cmerge m =>
    let t := operItem m 0x2C6 x (m.arg ≠ 0 || beyond 2 x.a || x.b ≠ 0)
    some (m, { t with static := t.static ++ failing [(63 < e 0, 0x20)] })
  | .ccarry m => some (m, operItem m 0x2C7 x (m.arg ≠ 0 || x.a ≠ 0 || x.b ≠ 0))
  | .cinv m => some (m, operItem m 0x2C8 x (m.arg ≠ 0 || x.a ≠ 0 || x.b ≠ 0))
  | .cchain m =>
    let t := operItem m 0x2C9 x (m.arg ≠ 0 || e 0 = 0 || 4 < e 0 || e 1 = 0 || 255 < e 1 || beyond 3 x.a ||
      beyond (3 * e 0) x.b || (List.range (e 0)).any fun j => elem 32 x.b (3 * j + 2) = 0)
    some (m, { t with inPlane := fun p => failing [(p.fed m.obj.toNat 1 && (e 2 = 0 || 64 < e 2), 0x21)] })
  | .cloop m =>
    some (m, operItem m 0x2CA x (field m.arg.toNat 7 3 ≠ 0 || field m.arg.toNat 2 0 = 0 || e 0 = 0 || 255 < e 0 ||
      beyond 1 x.a || x.b ≠ 0))
  | .cturn m => some (m, operItem m 0x2CB x (m.arg ≠ 0 || x.a ≠ 0 || x.b ≠ 0))
  | .cmodeMatrixRectangle m =>
    let rect : Nat × Nat × Nat × Nat := if e 2 = 0 || e 3 = 0 then (0, 0, 0, 0) else (e 0, e 1, e 2, e 3)
    some (m,
      { static :=
          if m.arg ≠ 0 then [0x31]
          else failing [(m.obj ≠ 0, 0x20),
            (beyond 4 x.a || x.b ≠ 0 || 16 < rect.1 + rect.2.2.1 || 16 < rect.2.1 + rect.2.2.2, 0x21)]
        inPlane := fun p => failing [(m.arg = 0 && p.actors.any fun q => inRect rect (q.1 / 4), 0x2A)]
        enter := fun p => { p with rect := rect } })
  | .cmodePatchLogWindow m =>
    let w := e 0
    some (m,
      { static := failing [(m.obj ≠ 0 || (255 < w && w ≠ 0xFFFFFFFF), 0x20), (beyond 1 x.a || x.b ≠ 0, 0x21)]
        inPlane := fun p =>
          if w = 0xFFFFFFFF then []
          else failing [((sfind p.wins w).isNone, 0x23), (({ p with patchLog := none } : Plane).heldBy w true (2 ^ 32) 0, 0x24)]
        enter := fun p => { p with patchLog := if w = 0xFFFFFFFF then none else some w } })
  | .cmodeBarrierCount m =>
    some (m,
      { static := failing [(31 < m.obj.toNat, 0x20), (e 0 = 0 || 1024 < e 0 || beyond 1 x.a || x.b ≠ 0, 0x21)]
        enter := fun p => { p with bars := sset p.bars m.obj.toNat (e 0) } })
  | .cdesc m =>
    let d : Desc := ⟨x.a, x.b⟩
    some (m,
      { static := failing [(63 < m.obj.toNat, 0x20), (m.arg ≠ 0 || d.reserved, 0x21), (d.bad, 0x2F)]
        enter := fun p => { p with descs := sset p.descs m.obj.toNat d } })
  | _ => none

/-- The refusals that meet an item: its own, and BUSY for a program's item while a BIND plane is there, else those of the plane that
it would enter (R209, R210). -/
def refusals (k : Core) (who : Agent) (t : Item) : List Nat :=
  t.static ++ (match who, k.kindling with | .seq _, .bind => [0x32] | _, _ => t.inPlane (k.target who))

/-- R209 to R224: a configuration instruction that meets no refusal enters its item in the kindling plane and completes; a program's
first item makes that plane PROGRAM, a copy of the active plane with the item. -/
def ConfigurationCompletes : Prop :=
  ∀ i x s e b m t, itemOf i s.fab x = some (m, t) → Issues s x.who x.slot i e b → x = gather x.who x.slot i e →
    refusals (s.fab.core x.who.core) x.who t = [] →
    exec i s = .next (s.onFabric fun f => x.noResult (f.modCore x.who.core fun k =>
      match x.who, (s.fab.core x.who.core).kindling with
      | .seq _, .empty => { k with kindling := .program, kplane := t.enter (s.fab.core x.who.core).plane }
      | _, _ => { k with kplane := t.enter (s.fab.core x.who.core).kplane }))

/-- R210: a configuration instruction that meets a refusal raises CONFIG_REFUSED, TRAP_ADDR with the lowest code, OBJ and ARG, and
the item does not enter; a program's first item makes the plane PROGRAM even so. A CACTOR whose block breaks a check of the PE
store raises BLOCK_INVALID before. -/
def ConfigurationRefused : Prop :=
  (∀ i x s e b m t code, itemOf i s.fab x = some (m, t) → Issues s x.who x.slot i e b → x = gather x.who x.slot i e →
    leastOf (refusals (s.fab.core x.who.core) x.who t) = some code → s.fab.canFault x.who x.slot = true →
    ∃ f, exec i s = .next (s.onFabric fun _ =>
        f.faultAt x.who x.slot i 0x0F (code + m.obj.toNat <<< 8 + m.arg.toNat <<< 16) 0) ∧
      (f = s.fab ∨ f = s.fab.modCore x.who.core fun k => k.setTarget x.who (k.target x.who))) ∧
  ∀ m b addr, (b.validate true) = some addr → Does (.cactor m)
    (fun f x => Group.actorBlock ((f.core x.who.core).groupOf x.who) (elem 32 x.a 0) = some b)
    fun x f => f.faultAt x.who x.slot x.i 0x90 addr 0

end Sys2Proof.Claims

/-- Configuration instructions enter the kindling plane, or are refused by code. What is the model's own choice or inference in it:
log entries 10, 11, 45. -/
def Obligations.ConfigurationInstructionsComplete : Prop :=
  ConfigurationCompletes ∧ ConfigurationRefused

namespace Sys2Proof.Claims

/-- The plane `p` is the one to which a configuration instruction of an issue applies: the kindling plane, or for a program's first
item a copy of the active one; a program's is not shut out by a BIND plane (R209, R210). -/
structure Configures (f : Fabric) (x : Issue) (p : Plane) : Prop where
  plane : p = match x.who, (f.core x.who.core).kindling with
    | .seq _, .empty => (f.core x.who.core).plane
    | _, _ => (f.core x.who.core).kplane
  apart : ∀ c, x.who = .seq c → (f.core c).kindling ≠ .bind

/-- The fabric after a configuration instruction has entered an item and completed: the plane to which it applies is changed by `g`,
and a program's first item makes it a PROGRAM plane (R209). -/
def itemEntered (x : Issue) (f : Fabric) (g : Plane → Plane) : Fabric :=
  x.noResult (f.modCore x.who.core fun k => match x.who, (f.core x.who.core).kindling with
    | .seq _, .empty => { k with kindling := .program, kplane := g (f.core x.who.core).plane }
    | _, _ => { k with kplane := g (f.core x.who.core).kplane })

/-- Element `j` of 32 bits of source A. -/
def argA (x : Issue) (j : Nat) : Nat := elem 32 x.a j

/-- Both operands hold nothing beyond the first `n` elements of A. -/
abbrev Within (x : Issue) (n : Nat) : Prop := beyond n x.a = false ∧ x.b = 0

/-- R212, R216, R31, R36: CWIN gives a window its rows and parties where no other window, the carve-out or the store's end meets
them, no party that holds a side disagrees, and no bound port needs more; WGROW gives a window of the plane a larger capacity. -/
def WindowItemsEnter : Prop :=
  (∀ m, Does (.cwin m)
    (fun f x => ∃ p, Configures f x p ∧ m.arg = 0 ∧ argA x 0 < 49152 ∧ 1 ≤ argA x 1 ∧ argA x 1 ≤ 4096 ∧
      identOk (argA x 2) = true ∧ identOk (argA x 3) = true ∧ Within x 4 ∧
      p.overlaps ((f.core x.who.core).stackRows x.who) m.obj.toNat (argA x 0) (argA x 1) = false ∧
      p.clash m.obj.toNat true (argA x 2) = false ∧ p.clash m.obj.toNat false (argA x 3) = false ∧
      ∀ q ∈ p.ports, q.2.win = m.obj.toNat → q.2.need ≤ argA x 1)
    fun x f => itemEntered x f fun p =>
      { p with wins := sset p.wins m.obj.toNat ⟨argA x 0, argA x 1, argA x 2, argA x 3, none⟩ }) ∧
  ∀ m c base, Does (.wgrow m)
    (fun f x => ∃ p, Configures f x p ∧ m.arg = 0 ∧ sfind p.wins m.obj.toNat = some c ∧ c.cap < argA x 0 ∧ argA x 0 ≤ 4096 ∧
      ((argA x 1 = 0xFFFFFFFF ∧ base = c.base) ∨ (argA x 1 < 49152 ∧ base = argA x 1)) ∧ Within x 2 ∧
      p.overlaps ((f.core x.who.core).stackRows x.who) m.obj.toNat base (argA x 0) = false)
    fun x f => itemEntered x f fun p => { p with wins := sset p.wins m.obj.toNat { c with base := base, cap := argA x 0 } }

/-- The actor and the key of the port that a CPORT names. -/
def portActor (m : CFields) (x : Issue) : Nat := argA x 0 * 4 + field m.arg.toNat 5 4
/-- The key of the port that a CPORT names. -/
def portOfItem (m : CFields) (x : Issue) : Nat := portKey (portActor m x) (field m.arg.toNat 3 0)

/-- R213, R117, R36: CPORT binds a port to a window of the plane that has room for its need and whose side nobody else holds, or, with
the circuit bit, to a landing window of its own, the bound actor keeping its checks. -/
def PortItemsEnter : Prop :=
  (∀ m c, Does (.cport m)
    (fun f x => ∃ p, Configures f x p ∧ bitOf m.arg.toNat 7 = false ∧ argA x 0 ≤ 255 ∧ argA x 2 = 0 ∧ argA x 3 = 0 ∧ Within x 4 ∧
      sfind p.wins m.obj.toNat = some c ∧ argA x 1 ≤ c.cap ∧
      p.heldBy m.obj.toNat (bitOf m.arg.toNat 6) (portOfItem m x) (portIdent (portOfItem m x)) = false ∧
      Plane.bindFails { p with ports := sset p.ports (portOfItem m x) ⟨m.obj.toNat, bitOf m.arg.toNat 6, argA x 1⟩ }
        ((f.core x.who.core).groupOf x.who) (portActor m x) = [])
    fun x f => itemEntered x f fun p =>
      { p with ports := sset p.ports (portOfItem m x) ⟨m.obj.toNat, bitOf m.arg.toNat 6, argA x 1⟩ }) ∧
  ∀ m, Does (.cport m)
    (fun f x => ∃ p, Configures f x p ∧ bitOf m.arg.toNat 7 = true ∧ argA x 0 ≤ 255 ∧ 1 ≤ argA x 2 ∧ argA x 2 ≤ 16 ∧
      argA x 3 < 49152 ∧ argA x 1 ≤ argA x 2 ∧ Within x 4 ∧
      p.overlaps ((f.core x.who.core).stackRows x.who) m.obj.toNat (argA x 3) (argA x 2) = false ∧
      Plane.heldBy { p with wins := sset p.wins m.obj.toNat ⟨argA x 3, argA x 2, 0, 0, some (bitOf m.arg.toNat 6)⟩ } m.obj.toNat
        (bitOf m.arg.toNat 6) (portOfItem m x) (portIdent (portOfItem m x)) = false ∧
      (∀ q ∈ p.ports, q.2.win = m.obj.toNat → q.1 = portOfItem m x) ∧
      (bitOf m.arg.toNat 6 = true ∨ p.patchLog ≠ some m.obj.toNat) ∧
      Plane.bindFails { p with
          wins := sset p.wins m.obj.toNat ⟨argA x 3, argA x 2, 0, 0, some (bitOf m.arg.toNat 6)⟩,
          ports := sset p.ports (portOfItem m x) ⟨m.obj.toNat, bitOf m.arg.toNat 6, argA x 1⟩ }
        ((f.core x.who.core).groupOf x.who) (portActor m x) = [])
    fun x f => itemEntered x f fun p =>
      { p with
        wins := sset p.wins m.obj.toNat ⟨argA x 3, argA x 2, 0, 0, some (bitOf m.arg.toNat 6)⟩
        ports := sset p.ports (portOfItem m x) ⟨m.obj.toNat, bitOf m.arg.toNat 6, argA x 1⟩ }

/-- The actor that a CACTOR names, and its configuration from the operand. -/
def namedActor (m : CFields) : Nat := m.obj.toNat * 4 + field m.arg.toNat 1 0
/-- The configuration that a CACTOR gives its actor. -/
def actorItem (m : CFields) (x : Issue) : ActorCfg :=
  ⟨argA x 0, argA x 1, if argA x 2 = 0xFFFFFFFF then none else some (argA x 2), bitOf m.arg.toNat 2⟩

/-- R214, R215, R114, R117: CACTOR gives an actor a block of its group that the PE store's checks pass, where no other actor of the PE
stands in the link set, none has another block at the store position, and the actor keeps the checks of its ports; with UNBIND the
actor and its ports leave the plane. -/
def ActorItemsEnter : Prop :=
  (∀ m b, Does (.cactor m)
    (fun f x => ∃ p, Configures f x p ∧ Group.actorBlock ((f.core x.who.core).groupOf x.who) (argA x 0) = some b ∧
      b.validate true = none ∧ field m.arg.toNat 7 4 = 0 ∧ argA x 1 ≤ 3 ∧ (argA x 2 = 0xFFFFFFFF ∨ argA x 2 ≤ 15) ∧ Within x 3 ∧
      (∀ q ∈ p.actors, q.1 ≠ namedActor m → q.1 / 4 = namedActor m / 4 →
        ((actorItem m x).links = none ∨ q.2.links ≠ (actorItem m x).links) ∧
          (q.2.store = argA x 1 → q.2.block = argA x 0)) ∧
      Plane.bindFails { p with actors := sset p.actors (namedActor m) (actorItem m x) } ((f.core x.who.core).groupOf x.who)
        (namedActor m) = [])
    fun x f => itemEntered x f fun p => { p with actors := sset p.actors (namedActor m) (actorItem m x) }) ∧
  ∀ m, Does (.cactorUnbind m) (fun f x => ∃ p, Configures f x p ∧ field m.arg.toNat 7 4 = 0)
    fun x f => itemEntered x f fun p =>
      { p with actors := sdel p.actors (namedActor m), ports := p.ports.filter fun q => q.1 / 16 ≠ namedActor m }

/-- The end of a route that a CROUTE configures: its key, and the end itself. -/
def endKey (m : CFields) : Nat := m.obj.toNat * 2 + (if bitOf m.arg.toNat 0 then 1 else 0)
/-- The end that a CROUTE's operand describes. -/
def endItem (m : CFields) (x : Issue) : EndCfg :=
  ⟨field (argA x 0) 31 30, field (argA x 0) 7 0, field (argA x 0) 11 8, if bitOf m.arg.toNat 0 then 0 else argA x 1⟩

/-- A route end may be attached where the plane has none but the same at its key and at its place (R217). -/
abbrev EndFree (m : CFields) (x : Issue) (p : Plane) : Prop :=
  (∀ o, sfind p.ends (endKey m) = some o →
    o.kind = (endItem m x).kind ∧ o.obj = (endItem m x).obj ∧ o.inp = (endItem m x).inp) ∧
  ∀ q ∈ p.ends, q.1 ≠ endKey m →
    ¬ (q.2.kind = (endItem m x).kind ∧ q.2.obj = (endItem m x).obj ∧ q.2.inp = (endItem m x).inp)

/-- R217, R211: CROUTE attaches the end of a route to a landing window of the plane whose port is bound on the other side, or to an
input or output of an operator, inbound ends without and outbound ends with a buffer of 1 to 64 beats. -/
def RouteItemsEnter : Prop :=
  (∀ m c, Does (.croute m)
    (fun f x => ∃ p, Configures f x p ∧ field m.arg.toNat 7 1 = 0 ∧ field (argA x 0) 29 12 = 0 ∧ Within x 2 ∧
      (if bitOf m.arg.toNat 0 then argA x 1 = 0 else 1 ≤ argA x 1 ∧ argA x 1 ≤ 64) ∧
      field (argA x 0) 31 30 = 0 ∧ field (argA x 0) 11 8 = 0 ∧ sfind p.wins (field (argA x 0) 7 0) = some c ∧
      c.landing = some (!bitOf m.arg.toNat 0) ∧ (p.portOf (field (argA x 0) 7 0) (!bitOf m.arg.toNat 0)).isSome = true ∧
      (bitOf m.arg.toNat 0 = true → p.patchLog ≠ some (field (argA x 0) 7 0)) ∧ EndFree m x p)
    fun x f => itemEntered x f fun p => { p with ends := sset p.ends (endKey m) (endItem m x) }) ∧
  ∀ m, Does (.croute m)
    (fun f x => ∃ p, Configures f x p ∧ field m.arg.toNat 7 1 = 0 ∧ field (argA x 0) 29 12 = 0 ∧ Within x 2 ∧
      (if bitOf m.arg.toNat 0 then argA x 1 = 0 else 1 ≤ argA x 1 ∧ argA x 1 ≤ 64) ∧
      field (argA x 0) 31 30 = (if bitOf m.arg.toNat 0 then 1 else 2) ∧ field (argA x 0) 7 0 ≤ 63 ∧ field (argA x 0) 11 8 ≤ 2 ∧
      (∀ o, sfind p.opers (field (argA x 0) 7 0) = some o →
        field (argA x 0) 11 8 < if bitOf m.arg.toNat 0 then (operPorts o.op).1 else (operPorts o.op).2) ∧ EndFree m x p)
    fun x f => itemEntered x f fun p => { p with ends := sset p.ends (endKey m) (endItem m x) }

/-- The plane with an operator of an opcode entered from an issue's operands. -/
def withOperator (m : CFields) (op : Nat) (x : Issue) (p : Plane) : Plane :=
  { p with opers := sset p.opers m.obj.toNat ⟨op, m.arg.toNat, x.a, x.b⟩ }

/-- R219, R220, R221, R222: CSTEER, CMERGE, CCARRY, CINV, CCHAIN, CLOOP and CTURN enter an operator 0 to 63 with the operands that
each takes: none; the steer that a merge closes and a capacity; a chain's levels, interval, credit depth and ranges with non-zero
steps; a loop's interval and the level of its end token. -/
def OperatorItemsEnter : Prop :=
  (∀ m, Does (.csteer m) (fun f x => ∃ p, Configures f x p ∧ m.obj.toNat ≤ 63 ∧ m.arg = 0 ∧ x.a = 0 ∧ x.b = 0)
    fun x f => itemEntered x f (withOperator m 0x2C5 x)) ∧
  (∀ m, Does (.cmerge m) (fun f x => ∃ p, Configures f x p ∧ m.obj.toNat ≤ 63 ∧ m.arg = 0 ∧ argA x 0 ≤ 63 ∧ Within x 2)
    fun x f => itemEntered x f (withOperator m 0x2C6 x)) ∧
  (∀ m, Does (.ccarry m) (fun f x => ∃ p, Configures f x p ∧ m.obj.toNat ≤ 63 ∧ m.arg = 0 ∧ x.a = 0 ∧ x.b = 0)
    fun x f => itemEntered x f (withOperator m 0x2C7 x)) ∧
  (∀ m, Does (.cinv m) (fun f x => ∃ p, Configures f x p ∧ m.obj.toNat ≤ 63 ∧ m.arg = 0 ∧ x.a = 0 ∧ x.b = 0)
    fun x f => itemEntered x f (withOperator m 0x2C8 x)) ∧
  (∀ m, Does (.cchain m)
    (fun f x => ∃ p, Configures f x p ∧ m.obj.toNat ≤ 63 ∧ m.arg = 0 ∧ 1 ≤ argA x 0 ∧ argA x 0 ≤ 4 ∧ 1 ≤ argA x 1 ∧ argA x 1 ≤ 255 ∧
      beyond 3 x.a = false ∧ beyond (3 * argA x 0) x.b = false ∧ (∀ j < argA x 0, elem 32 x.b (3 * j + 2) ≠ 0) ∧
      (p.fed m.obj.toNat 1 = true → 1 ≤ argA x 2 ∧ argA x 2 ≤ 64))
    fun x f => itemEntered x f (withOperator m 0x2C9 x)) ∧
  (∀ m, Does (.cloop m)
    (fun f x => ∃ p, Configures f x p ∧ m.obj.toNat ≤ 63 ∧ field m.arg.toNat 7 3 = 0 ∧ 1 ≤ field m.arg.toNat 2 0 ∧ 1 ≤ argA x 0 ∧
      argA x 0 ≤ 255 ∧ Within x 1)
    fun x f => itemEntered x f (withOperator m 0x2CA x)) ∧
  ∀ m, Does (.cturn m) (fun f x => ∃ p, Configures f x p ∧ m.obj.toNat ≤ 63 ∧ m.arg = 0 ∧ x.a = 0 ∧ x.b = 0)
    fun x f => itemEntered x f (withOperator m 0x2CB x)

/-- R223, R178, R50, R224: CMODE gives the matrix rectangle where no actor stands, none when a side is 0; the patch log's window,
which nobody fills, or none; a barrier's count of 1 to 1,024. CDESC enters a descriptor that keeps R224. -/
def ModeItemsEnter : Prop :=
  (∀ m, Does (.cmodeMatrixRectangle m)
    (fun f x => ∃ p, Configures f x p ∧ m.arg = 0 ∧ m.obj = 0 ∧ Within x 4 ∧ (argA x 2 = 0 ∨ argA x 3 = 0))
    fun x f => itemEntered x f fun p => { p with rect := (0, 0, 0, 0) }) ∧
  (∀ m, Does (.cmodeMatrixRectangle m)
    (fun f x => ∃ p, Configures f x p ∧ m.arg = 0 ∧ m.obj = 0 ∧ Within x 4 ∧ argA x 2 ≠ 0 ∧ argA x 3 ≠ 0 ∧
      argA x 0 + argA x 2 ≤ 16 ∧ argA x 1 + argA x 3 ≤ 16 ∧
      ∀ q ∈ p.actors, inRect (argA x 0, argA x 1, argA x 2, argA x 3) (q.1 / 4) = false)
    fun x f => itemEntered x f fun p => { p with rect := (argA x 0, argA x 1, argA x 2, argA x 3) }) ∧
  (∀ m, Does (.cmodePatchLogWindow m)
    (fun f x => ∃ p, Configures f x p ∧ m.obj = 0 ∧ argA x 0 = 0xFFFFFFFF ∧ Within x 1)
    fun x f => itemEntered x f fun p => { p with patchLog := none }) ∧
  (∀ m, Does (.cmodePatchLogWindow m)
    (fun f x => ∃ p, Configures f x p ∧ m.obj = 0 ∧ argA x 0 ≤ 255 ∧ Within x 1 ∧ (sfind p.wins (argA x 0)).isSome = true ∧
      Plane.heldBy { p with patchLog := none } (argA x 0) true (2 ^ 32) 0 = false)
    fun x f => itemEntered x f fun p => { p with patchLog := some (argA x 0) }) ∧
  (∀ m, Does (.cmodeBarrierCount m)
    (fun f x => ∃ p, Configures f x p ∧ m.obj.toNat ≤ 31 ∧ 1 ≤ argA x 0 ∧ argA x 0 ≤ 1024 ∧ Within x 1)
    fun x f => itemEntered x f fun p => { p with bars := sset p.bars m.obj.toNat (argA x 0) }) ∧
  ∀ m, Does (.cdesc m)
    (fun f x => ∃ p, Configures f x p ∧ m.obj.toNat ≤ 63 ∧ m.arg = 0 ∧ Desc.reserved ⟨x.a, x.b⟩ = false ∧ Desc.bad ⟨x.a, x.b⟩ = false)
    fun x f => itemEntered x f fun p => { p with descs := sset p.descs m.obj.toNat ⟨x.a, x.b⟩ }

end Sys2Proof.Claims

/-- Each configuration instruction whose checks hold enters its item in the kindling plane and completes. What is the model's own
choice or inference in it: log entries 11, 45. -/
def Obligations.EachConfigurationItemEnters : Prop :=
  WindowItemsEnter ∧ PortItemsEnter ∧ ActorItemsEnter ∧ RouteItemsEnter ∧ OperatorItemsEnter ∧ ModeItemsEnter

/-- R225: CSWAP whose ARG and OBJ are zero, without a BIND plane, completes at once with an EMPTY plane, begins to wait for the
drain when no check fails, and else raises CONFIG_REFUSED with the lowest code; with DISCARD it empties the plane and completes.
R226: CQUI with OBJ and ARG zero delivers the five conditions and the plane's state. What is the model's own choice or inference
in it: log entry 46. -/
def Obligations.SwapAndQuiescenceComplete : Prop :=
  (∀ m, Does (.cswap m)
    (fun f x => m.obj = 0 ∧ field m.arg.toNat 7 1 = 0 ∧ (f.core x.who.core).kindling = .empty) Issue.noResult) ∧
  (∀ m, Does (.cswap m)
    (fun f x => m.obj = 0 ∧ field m.arg.toNat 7 1 = 0 ∧ (f.core x.who.core).kindling = .program ∧
      f.swapFails x.who.core (f.core x.who.core).kplane (f.core x.who.core).group = [])
    fun x f => x.wait .drain f) ∧
  (∀ m code, Does (.cswap m)
    (fun f x => m.obj = 0 ∧ field m.arg.toNat 7 1 = 0 ∧ (f.core x.who.core).kindling = .program ∧
      leastOf (f.swapFails x.who.core (f.core x.who.core).kplane (f.core x.who.core).group) = some code)
    fun x f => f.faultAt x.who x.slot x.i 0x0F (code + m.obj.toNat <<< 8 + m.arg.toNat <<< 16) 0) ∧
  (∀ m, Does (.cswapDiscard m)
    (fun f x => m.obj = 0 ∧ field m.arg.toNat 7 1 = 0 ∧ (f.core x.who.core).kindling ≠ .bind)
    fun x f => x.noResult (f.modCore x.who.core fun k => { k with kindling := .empty, kplane := {} })) ∧
  (∀ m i, i = .cswap m ∨ i = .cswapDiscard m → Does i
    (fun f x => m.obj = 0 ∧ field m.arg.toNat 7 1 = 0 ∧ (f.core x.who.core).kindling = .bind)
    fun x f => f.faultAt x.who x.slot x.i 0x0F (0x32 + m.obj.toNat <<< 8 + m.arg.toNat <<< 16) 0) ∧
  ∀ m, Does (.cqui m) (fun _ _ => m.obj = 0 ∧ m.arg = 0)
    fun x f =>
      let k := f.core x.who.core
      x.result (ofVals 32
        [(if k.noFiring then 1 else 0) + (if k.linksEmpty then 2 else 0) + 4 + (if k.copiesDone then 8 else 0) +
          (if k.drained then 16 else 0),
         match k.kindling with | .empty => 0 | .program => 1 | .bind => 2]) fNone f

namespace Sys2Proof.Claims

/-- An engine command that checks its operands and enters a queue: the descriptor it names, its checks (each with its ENGINE_ARG code
and element), the room it needs, by how much OUTSTANDING.CP and .MX rise, and what it puts on the core under its number. -/
structure Command where
  desc : Option Nat
  checks : List (Bool × Nat × Nat)
  room : Core → Bool := fun _ => true
  cp : Nat := 0
  mx : Nat := 0
  put : Nat → Core → Core

/-- A command put at the end of a generator's queue. -/
def toGen (x : Issue) (m : EFields) (passes : Nat) (chain : Option Nat) (id : Nat) (k : Core) : Core :=
  k.pushGen m.mod.toNat (genCmd x m k id passes chain)

/-- A command put at the end of the tier and network queue. -/
def toNet (x : Issue) (m : EFields) (total id : Nat) (k : Core) : Core := k.pushNet (netCmd x m k id total)

/-- The commands of MX, CPY, STRM, STRW, STRX, NSEND, NGET, NRED, XINV and WPSET (R236 to R268). -/
def commandOf (i : Instr) (f : Fabric) (x : Issue) : Option Command :=
  let k := f.core x.who.core
  let e (j : Nat) : Nat := elem 32 x.a j
  let party (m : EFields) (out : Bool) : Bool × Nat × Nat := partyFail (k.notParty m.win.toNat out (partyIdent 2 m.mod.toNat))
  let net (m : EFields) (l : List (Bool × Nat × Nat)) : List (Bool × Nat × Nat) :=
    regionFails (k.desc m.desc.toNat) x.b false ++
      [(f.connBad x.who.core x.a, 0x46, 0), rangeFail (elem 64 x.a 1 % 64 ≠ 0) 1] ++ l
  match i with
  | .mxldw m =>
    let d := k.desc m.desc.toNat
    some { desc := some m.desc.toNat, room := Core.mxRoom, mx := 1
           checks :=
             [formatFail (!(d.fmt = 0 || d.fmt = 1 || d.fmt = 8 || d.fmt = 9 || d.fmt = 12 || d.fmt = 16 || d.fmt = 17) ||
                d.str 0 ≠ (if d.fmt = 12 then 2 else 1) || d.ext 0 % 64 ≠ 0 || d.ext 2 ≠ 1 || d.ext 3 ≠ 1),
              countFail (e 1 = 0 || 16 < e 1) 1, countFail (e 3 = 0 || 16 < e 3) 3, rangeFail (d.ext 0 / 64 < e 2 + e 1) 2,
              rangeFail (d.ext 1 < e 4 + e 3) 4, rangeFail (65536 < e 0 + e 1 * e 3 * recWords d.recKind) 0]
           put := fun id k => (k.pushMx (mxCmd x m k id 1 (m.mod.toNat % 2))).settleMx }
  | .mxsel m =>
    some { desc := none, checks := [], room := Core.mxRoom
           put := fun id k =>
             (({ k with mx := { k.mx with sel := m.mod.toNat % 2 } } : Core).pushMx (mxCmd x m k id 5 (m.mod.toNat % 2))).settleMx }
  | .mxrun m =>
    some { desc := none, checks := mxFails k x.a m.mod.toNat m.flags.toNat m.win.toNat f.reduced 0xFF, room := Core.mxRoom, mx := 1
           put := fun id k => (k.pushMx (mxCmd x m k id 0 k.mx.sel)).settleMx }
  | .mxthr m =>
    some { desc := none, checks := [], room := Core.mxRoom, put := fun id k => (k.pushMx (mxCmd x m k id 2 0)).settleMx }
  | .cpy m =>
    some { desc := some m.desc.toNat, room := genRoom m.mod.toNat, cp := 1, put := toGen x m 1 none
           checks := regionFails (k.desc m.desc.toNat) x.a (bitOf m.flags.toNat 0) ++ [party m true, modeFail (k.eodBad m) 0xFF] }
  | .cpyChained m =>
    let mode := elem 32 x.b 4; let fl := elem 32 x.b 5; let ty := elem 32 x.b 6
    some { desc := some m.desc.toNat, room := fun k => genRoom m.mod.toNat k && k.mxRoom, cp := 1, mx := 1
           checks := regionFails (k.desc m.desc.toNat) x.a (bitOf m.flags.toNat 0) ++ [party m true, modeFail (k.eodBad m) 0xFF] ++
             [modeFail (7 < mode) 4, modeFail (3 < fl) 5, modeFail (15 < ty || !mxTypes (mode % 4) ty) 6] ++
             mxFails k x.b mode fl m.win.toNat f.reduced 4
           put := fun id k =>
             (toGen x m 1 (some id) id k).pushMx
               { mxCmd x m k id 0 k.mx.sel with
                 op := 0x340, a := x.b, mod := mode, flags := fl, ty := BitVec.ofNat 4 ty, chain := some m.mod.toNat,
                 ready := false } }
  | .cpyw m =>
    some { desc := some m.desc.toNat, room := genRoom m.mod.toNat, cp := 1, put := toGen x m 1 none
           checks := regionFails (k.desc m.desc.toNat) x.a (bitOf m.flags.toNat 0) ++ [party m false] }
  | .cpyr m =>
    let cores := (f.region k.regionId).cores
    some { desc := none, room := genRoom m.mod.toNat, cp := 1, put := toGen x m 1 none
           checks :=
             [rangeFail (7 < e 0 || cores.all fun p => dieOf p.1 ≠ e 0) 0,
              rangeFail (127 < e 1 || cores.all fun p => p.1 ≠ e 0 * 128 + e 1) 1, rangeFail (255 < e 2) 2,
              countFail (e 3 = 0) 3, party m false] }
  | .cpyi m =>
    let d := k.desc m.desc.toNat
    some { desc := some m.desc.toNat, room := genRoom m.mod.toNat, cp := 1, put := toGen x m 1 none
           checks := geomFails x.a ++ [formatFail (d.fmt = 16 || d.fmt = 17), party m true, modeFail (k.eodBad m) 0xFF] }
  | .cpypMax m | .cpypAvg m =>
    let d := k.desc m.desc.toNat
    some { desc := some m.desc.toNat, room := genRoom m.mod.toNat, cp := 1, put := toGen x m 1 none
           checks := geomFails x.a ++ [formatFail !(d.fmt ≤ 5 || (12 ≤ d.fmt && d.fmt ≤ 14)), party m true] }
  | .cpyf m =>
    some { desc := some m.desc.toNat, room := genRoom m.mod.toNat, cp := 1, put := toGen x m 1 none
           checks := regionFails (k.desc m.desc.toNat) x.a false }
  | .strmRead m =>
    some { desc := some m.desc.toNat, room := genRoom m.mod.toNat, cp := 1, put := toGen x m (elem 32 x.b 0) none
           checks := regionFails (k.desc m.desc.toNat) x.a (bitOf m.flags.toNat 1) ++ [party m true] }
  | .strmWrite m =>
    some { desc := some m.desc.toNat, room := genRoom m.mod.toNat, cp := 1, put := toGen x m (elem 32 x.b 0) none
           checks := regionFails (k.desc m.desc.toNat) x.a (bitOf m.flags.toNat 1) ++ [party m false] }
  | .strw _ =>
    some { desc := none, checks := []
           put := fun id k => { k with eng := { k.eng with strws := k.eng.strws ++ [(id, e 0 % 65536)] } } }
  | .strxStop _ =>
    some { desc := none, checks := [], put := fun _ k => ((maskGens (e 0)).foldl Core.stopGen k).settleMx }
  | .strxResume _ =>
    some { desc := none, checks := []
           put := fun _ k => (maskGens (e 0)).foldl (fun k g => k.modGen g fun y => { y with park := none }) k }
  | .nsend m =>
    some { desc := some m.desc.toNat, checks := net m [], room := Core.netRoom, cp := 1
           put := toNet x m (regionRows (k.desc m.desc.toNat) x.b) }
  | .nget m =>
    let n := elem 64 x.a 2
    some { desc := none, room := Core.netRoom, cp := 1, put := toNet x m n
           checks := [(f.connBad x.who.core x.a, 0x46, 0), rangeFail (elem 64 x.a 1 % 64 ≠ 0) 1,
             countFail (n = 0 || 2 ^ 32 ≤ n) 2, partyFail (k.notParty m.win.toNat true (partyIdent 5 0))] }
  | .nredAdd m | .nredMax m | .nredMin m =>
    some { desc := some m.desc.toNat, room := Core.netRoom, cp := 1, put := toNet x m (regionRows (k.desc m.desc.toNat) x.b)
           checks := net m [formatFail ((k.desc m.desc.toNat).fmt ≠ m.ty.toNat)] }
  | .xinv m =>
    some { desc := none, checks := [countFail (elem 64 x.a 1 = 0 || 2 ^ 32 < elem 64 x.a 1) 1], room := Core.netRoom, cp := 1
           put := toNet x m 0 }
  | .wpsetDescriptor m =>
    some { desc := some m.desc.toNat
           checks := ((List.range 4).map fun i => countFail (e (4 + i) < e i) i) ++ watchMasks x.a
           put := fun _ k => k.setWatch (m.mod.toNat % 8) ⟨false, k.desc m.desc.toNat, x.a, x.b⟩ }
  | .wpsetRange m =>
    some { desc := none, checks := countFail (e 2 = 0 || 4096 < e 2) 2 :: watchMasks x.a
           put := fun _ k => k.setWatch (m.mod.toNat % 8) ⟨true, ⟨0, 0⟩, x.a, x.b⟩ }
  | _ => none

/-- The descriptor that a command names has been written. -/
def Written (k : Core) (desc : Option Nat) : Prop := ∀ n, desc = some n → (sfind k.plane.descs n).isSome = true

/-- A command has room, and OUTSTANDING can count it (R52, R230). -/
def HasRoom (k : Core) (room : Core → Bool) (cp mx : Nat) : Prop :=
  room k = true ∧ k.counts.cp + cp ≤ 65535 ∧ k.counts.mx + mx ≤ 65535

/-- The core of a command that enters: its slot complete, its block acting at execution, the counts risen, the command put. -/
def entered (x : Issue) (cp mx : Nat) (put : Core → Core) (f : Fabric) : Fabric :=
  f.fresh.2.modCore x.who.core fun k =>
    put { k.modExec x.who (fun e => { e.mark x.slot fNone with acted := true }) with
      counts := { k.counts with cp := k.counts.cp + cp, mx := k.counts.mx + mx } }

/-- R230, R52: an engine command whose checks pass and whose queue has room enters it under the next number; its slot completes and
OUTSTANDING counts it. -/
def EngineCommandsEnter : Prop :=
  ∀ i x s e b q, commandOf i s.fab x = some q → Issues s x.who x.slot i e b → x = gather x.who x.slot i e →
    Written (s.fab.core x.who.core) q.desc → (∀ c ∈ q.checks, c.1 = false) →
    HasRoom (s.fab.core x.who.core) q.room q.cp q.mx →
    exec i s = .next (s.onFabric fun f => entered x q.cp q.mx (q.put f.units.nextId) f)

/-- R230, R231: an engine command whose checks pass waits while its queue is full; one that names a descriptor never written raises
DESC_EMPTY with the descriptor's number; one that fails a single check raises ENGINE_ARG with that check's code and element. -/
def EngineCommandsStop : Prop :=
  ∀ i x s e b q, commandOf i s.fab x = some q → Issues s x.who x.slot i e b → x = gather x.who x.slot i e →
    (Written (s.fab.core x.who.core) q.desc → (∀ c ∈ q.checks, c.1 = false) →
      ¬ HasRoom (s.fab.core x.who.core) q.room q.cp q.mx →
      exec i s = .next (s.onFabric (x.wait .queue))) ∧
    (∀ n, q.desc = some n → sfind (s.fab.core x.who.core).plane.descs n = none →
      exec i s = .next (s.onFabric fun f => f.faultAt x.who x.slot i 0x33 n 0)) ∧
    (Written (s.fab.core x.who.core) q.desc → ∀ code el, q.checks.filter (·.1) = [(true, code, el)] → el < 256 →
      (code = 0x43 → el = 0xFF) →
      exec i s = .next (s.onFabric fun f => f.faultAt x.who x.slot i 0x10 (el * 256 + code) 0))

end Sys2Proof.Claims

/-- Engine commands enter their queue, wait for room, or raise DESC_EMPTY or ENGINE_ARG. What is the model's own choice or inference
in it: log entries 37, 43. -/
def Obligations.EngineCommandsEnterOrStop : Prop :=
  EngineCommandsEnter ∧ EngineCommandsStop

namespace Sys2Proof.Claims

/-- R242, R244: MXSTAT, and MXPEEK of a record within the weight store, put their question in the matrix queue when it has room, and
begin to wait when it has none; the slot completes when the value is delivered. -/
def MatrixQuestionsEnter : Prop :=
  (∀ m, Does (.mxstat m) (fun f x => (f.core x.who.core).mxRoom = true)
    fun x f => f.fresh.2.modCore x.who.core fun k =>
      ((k.pushMx (mxCmd x m (f.core x.who.core) f.units.nextId 3 0)).modExec x.who
        fun e => { e with queued := x.slot :: e.queued, acted := true }).settleMx) ∧
  (∀ m, Does (.mxpeek m)
    (fun f x => (f.core x.who.core).mxRoom = true ∧ elem 32 x.a 0 + recWords (m.flags.toNat % 4) ≤ 65536)
    fun x f => f.fresh.2.modCore x.who.core fun k =>
      ((k.pushMx (mxCmd x m (f.core x.who.core) f.units.nextId 4 (m.mod.toNat % 2))).modExec x.who
        fun e => { e with queued := x.slot :: e.queued, acted := true }).settleMx) ∧
  (∀ m, Does (.mxstat m) (fun f x => (f.core x.who.core).mxRoom = false) fun x f => x.wait .queue f) ∧
  (∀ m, Does (.mxpeek m)
    (fun f x => (f.core x.who.core).mxRoom = false ∧ elem 32 x.a 0 + recWords (m.flags.toNat % 4) ≤ 65536)
    fun x f => x.wait .queue f) ∧
  ∀ m, Does (.mxpeek m) (fun _ x => 65536 < elem 32 x.a 0 + recWords (m.flags.toNat % 4))
    fun x f => f.faultAt x.who x.slot x.i 0x10 0x41 0

/-- What TQRY, TIN and TOUT find: a page in state `st` under the translation `t`. -/
def PageAt (s : State) (x : Issue) (st : Nat) (t : Trans) : Prop :=
  s.fab.pageState s.mem (s.fab.core x.who.core).contextId (elem 64 x.a 0) = (st, some t)

/-- No transit of the page in a direction is under way. -/
def NotMoving (s : State) (x : Issue) (inward : Bool) : Prop :=
  ∀ q ∈ s.fab.units.transits, ¬ (q.inward = inward ∧ q.ctx = (s.fab.core x.who.core).contextId ∧ q.page = elem 64 x.a 0)

/-- R260 to R262: TQRY completes with its token, the size and base of an unmapped page drawn as free values. TIN of a page on the
peat tier takes the frames of the region's pool and enters; TOUT of a page on the hearth tier takes granules of the expanders
and enters; each begins the page's transit. TIN of a page that is there, and TOUT of one that is away, only complete. -/
def TierCommandsComplete : Prop :=
  ∀ m i x s e b, Issues s x.who x.slot i e b → x = gather x.who x.slot i e →
    (i = .tqry m → exec i s = .next { s with
      fab := x.result (s.fab.tqryToken s.mem x.who.core (elem 64 x.a 0) (Config.freeValue s.run.free)
        (Config.freeValue (s.run.free + 1))) fNone s.fab
      run := { s.run with free := s.run.free + 2 } }) ∧
    (∀ st t g, i = .tin m → PageAt s x st t → elem 64 x.a 0 % t.size = 0 → st ≠ 0 → NotMoving s x true →
      poolRun (s.fab.region (s.fab.core x.who.core).regionId).pool (t.size / 65536) = some g →
      HasRoom (s.fab.core x.who.core) Core.netRoom 1 0 →
      exec i s = .next (s.onFabric fun f =>
        let r := (f.core x.who.core).regionId
        ((entered x 1 0 (toNet x m 0 f.units.nextId) f).modRegion r fun y =>
            { y with pool := y.pool.filter fun q => !(g ≤ q && q < g + t.size / 65536) }).modUnits fun u =>
          { u with transits := u.transits ++
              [⟨true, (f.core x.who.core).contextId, elem 64 x.a 0, t.size, t.leaf, g * 65536, r⟩] })) ∧
    (∀ st t o, i = .tout m → PageAt s x st t → elem 64 x.a 0 % t.size = 0 → t.size ≤ 2097152 → st ≠ 1 →
      NotMoving s x false → peatRun s.fab.units.peat s.fab.units.peatCap (t.size / 65536) = some o →
      HasRoom (s.fab.core x.who.core) Core.netRoom 1 0 →
      exec i s = .next (s.onFabric fun f =>
        (entered x 1 0 (toNet x m 0 f.units.nextId) f).modUnits fun u =>
          { u with
            peat := u.peat ++ [(o, t.size / 65536)]
            transits := u.transits ++ [⟨false, (f.core x.who.core).contextId, elem 64 x.a 0, t.size, t.leaf,
              0x8000000000000 + o * 65536, (f.core x.who.core).regionId⟩] })) ∧
    (∀ st t, i = .tin m → PageAt s x st t → elem 64 x.a 0 % t.size = 0 → st = 0 →
      exec i s = .next (s.onFabric x.noResult)) ∧
    ∀ st t, i = .tout m → PageAt s x st t → elem 64 x.a 0 % t.size = 0 → t.size ≤ 2097152 → st = 1 →
      exec i s = .next (s.onFabric x.noResult)

/-- R168 to R171: WSAVE and WREST of a configured window at a line-aligned address begin a transfer, WSAVE with the image as of this
instant; a misaligned address raises ADDR_ALIGN, a window not configured IMAGE_BAD. -/
def WindowImagesEnter : Prop :=
  (∀ m, Does (.wsave m)
    (fun f x => elem 64 x.a 0 % 64 = 0 ∧ (sfind (f.core x.who.core).plane.wins m.win.toNat).isSome = true ∧
      (f.core x.who.core).counts.cp < 65535 ∧ (f.core x.who.core).counts.mx ≤ 65535)
    fun x f =>
      let rows := (f.core x.who.core).imageRows x.who.core m.win.toNat
      entered x 1 0 (fun k => { k with eng := { k.eng with images := k.eng.images ++
        [{ id := f.units.nextId, save := true, win := m.win.toNat, va := elem 64 x.a 0 % 2 ^ 56, rows := rows,
           total := rows.length, block := x.exec.id }] } }) f) ∧
  (∀ m, Does (.wrest m)
    (fun f x => elem 64 x.a 0 % 64 = 0 ∧ (sfind (f.core x.who.core).plane.wins m.win.toNat).isSome = true ∧
      (f.core x.who.core).counts.cp < 65535 ∧ (f.core x.who.core).counts.mx ≤ 65535)
    fun x f => entered x 1 0 (fun k => { k with eng := { k.eng with images := k.eng.images ++
        [{ id := f.units.nextId, save := false, win := m.win.toNat, va := elem 64 x.a 0 % 2 ^ 56, rows := [], total := 1,
           block := x.exec.id }] } }) f) ∧
  (∀ m i, i = .wsave m ∨ i = .wrest m → Does i (fun _ x => elem 64 x.a 0 % 64 ≠ 0)
    fun x f => f.faultAt x.who x.slot x.i 0x0A (elem 64 x.a 0) 0) ∧
  ∀ m i, i = .wsave m ∨ i = .wrest m → Does i
    (fun f x => elem 64 x.a 0 % 64 = 0 ∧ sfind (f.core x.who.core).plane.wins m.win.toNat = none)
    fun x f => f.faultAt x.who x.slot x.i 0x22 (elem 64 x.a 0) 0

end Sys2Proof.Claims

/-- Matrix questions, tier commands and window images enter. What is the model's own choice or inference in it: log entries 13, 14,
44. -/
def Obligations.QuestionsMovesAndImagesEnter : Prop :=
  MatrixQuestionsEnter ∧ TierCommandsComplete ∧ WindowImagesEnter

namespace Sys2Proof.Claims

/-- R270 to R272: WPCLR clears the watchpoints its mask names. MARK asks for a snapshot cut of its region, which a cut under way
takes in. RWC arms a stop at a count of firings retired, and disarms it; a count already reached asks for a rollback, and where
the region cannot roll back an uncorrected record stops it. -/
def DiagnosticCommandsComplete : Prop :=
  (∀ d, Does (.wpclr d) (fun _ _ => True)
    fun x f => (x.noResult f).modCore x.who.core fun k =>
      { k with dbg := { k.dbg with wps := k.dbg.wps.filter fun p => !bitOf d.imm.toNat p.1 } }) ∧
  (∀ d, Does (.mark d) (fun _ _ => True)
    fun x f => (x.noResult f).modRegion (f.core x.who.core).regionId fun r =>
      if r.cutting then r else { r with cutting := true, fresh := [] }) ∧
  (∀ d, Does (.rwcArm d) (fun f x => (f.core x.who.core).dbg.retired < BitVec.ofNat 64 (elem 64 x.a 0))
    fun x f => (x.noResult f).modCore x.who.core fun k =>
      { k with dbg := { k.dbg with stop := some (BitVec.ofNat 64 (elem 64 x.a 0)) } }) ∧
  (∀ d, Does (.rwcArm d) (fun f x => BitVec.ofNat 64 (elem 64 x.a 0) ≤ (f.core x.who.core).dbg.retired)
    fun x f => Fabric.replayTo ((x.noResult f).modCore x.who.core fun k =>
      { k with dbg := { k.dbg with stop := some (BitVec.ofNat 64 (elem 64 x.a 0)) } }) x.who.core) ∧
  ∀ d, Does (.rwcCancel d) (fun _ _ => True)
    fun x f => (x.noResult f).modCore x.who.core fun k => { k with dbg := { k.dbg with stop := none } }

/-- R273: FINJ of a region that may inject faults, with a PE, a class, a lane and a bit in range, arms an injection in the place of
one of the same PE and class; a region that may not raises ENGINE_ARG with code DENIED. -/
def FaultInjection : Prop :=
  (∀ d, Does (.finj d)
    (fun f x => (f.region (f.core x.who.core).regionId).finj = true ∧ (elem 32 x.a 0 ≤ 255 ∨ elem 32 x.a 0 = 0xFFFF) ∧
      (elem 32 x.a 1 ≤ 3 ∨ elem 32 x.a 1 = 4 ∧ elem 32 x.a 0 ≠ 0xFFFF) ∧ elem 32 x.a 2 ≤ 15 ∧ elem 32 x.a 3 ≤ 31)
    fun x f => (x.noResult f).modCore x.who.core fun k =>
      { k with dbg := { k.dbg with
          finj := (k.dbg.finj.filter fun j => j.pe ≠ elem 32 x.a 0 || j.cls ≠ elem 32 x.a 1) ++
            [⟨elem 32 x.a 0, elem 32 x.a 1, elem 32 x.a 2, elem 32 x.a 3⟩] } }) ∧
  ∀ d, Does (.finj d) (fun f x => (f.region (f.core x.who.core).regionId).finj = false)
    fun x f => f.faultAt x.who x.slot x.i 0x10 0xFF48 0

/-- R274 to R276: MCRD delivers an error record that its region may read, else zero. PROF delivers a channel's counts as they stood;
starting clears them and lets them run, a seventeenth channel taking over the one started longest ago, stopping stops them,
reading changes nothing. WALK into a window without a filler fills it with the report rows; into another it raises ENGINE_ARG
with code PARTY. -/
def RecordsAndReportsComplete : Prop :=
  (∀ d, Does (.mcrd d) (fun _ _ => True)
    fun x f =>
      let e := sget 0 (sget {} f.units.banks (dieOf x.who.core)).entries (d.imm.toNat % 16)
      x.result (if f.mayRead x.who.core e then e.setWidth 512 else 0) fNone f) ∧
  (∀ d, Does (.profStart d) (fun _ _ => True)
    fun x f => (x.result ((f.core x.who.core).profToken (elem 64 x.a 0 % 1024)) fNone f).modCore x.who.core fun k =>
      let others := k.dbg.prof.filter fun p => p.chan ≠ elem 64 x.a 0 % 1024
      { k with dbg := { k.dbg with
          prof := (if 16 ≤ others.length then others.tail else others) ++ [⟨elem 64 x.a 0 % 1024, true, 0, 0, 0, false⟩] } }) ∧
  (∀ d, Does (.profStop d) (fun _ _ => True)
    fun x f => (x.result ((f.core x.who.core).profToken (elem 64 x.a 0 % 1024)) fNone f).modCore x.who.core fun k =>
      { k with dbg := { k.dbg with
          prof := k.dbg.prof.map fun p => if p.chan = elem 64 x.a 0 % 1024 then { p with running := false } else p } }) ∧
  (∀ d, Does (.profRead d) (fun _ _ => True)
    fun x f => x.result ((f.core x.who.core).profToken (elem 64 x.a 0 % 1024)) fNone f) ∧
  (∀ d, Does (.walk d)
    (fun f x => (sfind (f.core x.who.core).plane.wins (d.imm.toNat % 256)).isSome = true ∧
      (f.core x.who.core).plane.party (d.imm.toNat % 256) true = 0)
    fun x f =>
      let k := f.core x.who.core
      let q := f.walkRegion k.regionId
      (x.noResult f).modCore x.who.core fun k' =>
        (reportRows k.contextId (k.freeRows (d.imm.toNat % 256)) q.1 q.2).foldl
          (fun k r => k.fillWin (d.imm.toNat % 256) ⟨r, false⟩) k') ∧
  ∀ d, Does (.walk d)
    (fun f x => sfind (f.core x.who.core).plane.wins (d.imm.toNat % 256) = none ∨
      (f.core x.who.core).plane.party (d.imm.toNat % 256) true ≠ 0)
    fun x f => f.faultAt x.who x.slot x.i 0x10 0xFF42 0

end Sys2Proof.Claims

/-- The diagnostic instructions complete. What is the model's own choice or inference in it: log entry 15. -/
def Obligations.DiagnosticInstructionsComplete : Prop :=
  DiagnosticCommandsComplete ∧ FaultInjection ∧ RecordsAndReportsComplete

namespace Sys2Proof.Claims

/-- Where `pre` holds of the fabric, an event answers the next state in which the fabric is that of `post`; memory and the model's
own fields stay. -/
def Moves (i : Instr) (pre : Fabric → Prop) (post : Fabric → Fabric) : Prop :=
  ∀ s, pre s.fab → exec i s = .next { s with fab := post s.fab }

/-- The fabric in which a PE has decided for the actor of index `p.1`, held as the PE's pick. -/
def picked (f : Fabric) (c pe : Nat) (p : Nat × Bool) : Fabric :=
  f.modCore c fun k => { k.decided pe (f.candidates c pe) p with picks := sset k.picks pe (pe * 4 + p.1) }

/-- A request whose answer is back at its core (R357), for a slot of a block that is still in progress, on a core that is not
frozen. -/
structure Answering (f : Fabric) (id lane : Nat) (r : Req) (e : Exec) (i : Instr) : Prop where
  req : f.req id = some r
  answered : f.answered r lane = true
  running : (f.core r.who.core).dbg.frozen = false
  issuer : f.issuer r = some e
  instr : ((f.core r.who.core).blockOf r.who e).bind (fun b => b.instrAt r.slot) = some i

/-- R316, R317, R215: FIRING_START on a PE that holds no pick decides for an actor by age, urgency and pointer. With every member of
the actor's link set picked (an actor in none is its set) each member starts a firing and the picks are cleared; else the actor
is held as the PE's pick. -/
def FiringStarts : Prop :=
  (∀ c pe p, Moves (.firingStart c pe)
    (fun f => shas (f.core c).picks pe = false ∧ f.pick c pe = some p ∧
      ∀ m ∈ ((picked f c pe p).core c).mates (pe * 4 + p.1), sfind ((picked f c pe p).core c).picks (m / 4) = some m)
    fun f =>
      let ms := ((picked f c pe p).core c).mates (pe * 4 + p.1)
      ms.foldl (fun f m => f.startFiring c m)
        ((picked f c pe p).modCore c fun k => { k with picks := ms.foldl (fun q m => sdel q (m / 4)) k.picks })) ∧
  ∀ c pe p m, Moves (.firingStart c pe)
    (fun f => shas (f.core c).picks pe = false ∧ f.pick c pe = some p ∧
      m ∈ ((picked f c pe p).core c).mates (pe * 4 + p.1) ∧ sfind ((picked f c pe p).core c).picks (m / 4) ≠ some m)
    fun f => picked f c pe p

/-- R19, R22, R38: a firing that starts has the next number, the actor's block, empty buffers and no slot done, and the rows, heads,
accumulator, g registers and control registers of that instant; the actor's fence and step-over are taken. -/
def FiringBegins : Prop :=
  ∀ (f : Fabric) (c a : Nat) (g : ActorCfg), sfind (f.core c).plane.actors a = some g →
    ((f.startFiring c a).core c).actor a =
      { (f.core c).actor a with
        firing := some { exec := { id := f.units.nextId, block := g.block, snap := f.snapOf c a,
                                   stepOver := ((f.core c).actor a).stepOver } }
        stepOver := none, fence := none } ∧
    (f.startFiring c a).units.nextId = f.units.nextId + 1 ∧
    (∀ b, b ≠ a → ((f.startFiring c a).core c).actor b = (f.core c).actor b) ∧
    ∀ d, d ≠ c → (f.startFiring c a).core d = f.core d

end Sys2Proof.Claims

/-- FIRING_START picks an actor and starts its firing with the values of that instant. -/
def Obligations.FiringsStart : Prop :=
  FiringStarts ∧ FiringBegins

namespace Sys2Proof.Claims

/-- R22, R357, R358, R453: a wait for a row ends when the window holds it; a pinned firing that a WREST trapped runs again.
LOAD_SLOT_GRANT gives a slot of a channel that was free before this cycle to the first that asked, in an earlier cycle, whose load is
issued. -/
def WaitsEnd : Prop :=
  (∀ who slot e o w n, Moves (.waitingFiringResume who slot)
    (fun f =>
      let k := f.core who.core
      k.exec who = some e ∧ e.waits.find? (fun w => w.1 = slot) = some (slot, .row o) ∧
        ((k.blockOf who e).bind fun b => b.instrAt slot) = some (.wrdx w) ∧ k.winOf who w.port.toNat = some n ∧
        o < k.readable n ∧ k.dbg.frozen = false)
    fun f => f.modCore who.core fun k => k.modExec who fun e => { e with waits := e.waits.filter fun w => w.1 ≠ slot }) ∧
  (∀ c a slot y, Moves (.waitingFiringResume (.actor c a) slot)
    (fun f => ((f.core c).actor a).firing = some y ∧ y.phase = .trapped ∧ y.release = .wrest ∧ (f.core c).dbg.frozen = false)
    fun f => f.modCore c fun k => k.modActor a fun x =>
      { x with firing := some { y with phase := .running, exec := { y.exec with stepOver := none } } }) ∧
  ∀ c chan q e i, q.who.core = c → Moves (.loadSlotGrant c chan)
    (fun f =>
      let k := f.core c
      (k.askers.filter k.stillAsks).find? (fun q => q.chan = chan) = some q ∧ f.slotReady c chan = true ∧ q.cycle < f.units.cycle ∧
        k.dbg.frozen = false ∧ k.exec q.who = some e ∧ ((k.blockOf q.who e).bind fun b => b.instrAt q.slot) = some i)
    fun f =>
      (f.modCore c fun k =>
        { k.endWait q.who q.slot with askers := (k.askers.filter k.stillAsks).filter (· ≠ q) }).loadIssue
        (gather q.who q.slot i { e with waits := e.waits.filter fun w => w.1 ≠ q.slot }) true

/-- R357, R181, R187, R26: the answer of a load or an eager atomic completes its slot with the value on both targets and closes the
request; the first half of an LD2 goes to its target, the second completes the slot. An answer to a block that is gone is
discarded, and the slot of the channel returns with it, of an LD2 with the later of its halves; a frozen core keeps it in its skid
buffer (R431). -/
def ResponsesDeliver : Prop :=
  (∀ id lane r e i, Moves (.loadResponse id lane)
    (fun f => Answering f id lane r e i ∧ r.kind.isLoad = true ∧ r.kind ≠ .load2)
    fun f => (f.closeReq r).modCore r.who.core fun k =>
      k.finish r.who r.slot i (.tok (resultTok e r)) (.tok (resultTok e r)) fNone) ∧
  (∀ id r e i, Moves (.eagerAtomicReturn id)
    (fun f => Answering f id 0 r e i ∧ r.kind = .eager)
    fun f => (f.closeReq r).modCore r.who.core fun k =>
      k.finish r.who r.slot i (.tok (resultTok e r)) (.tok (resultTok e r)) fNone) ∧
  (∀ id lane r e i l, Moves (.loadResponse id lane)
    (fun f => Answering f id lane r e i ∧ r.kind = .load2 ∧ r.lanes.find? (fun l => l.idx = lane) = some l)
    fun f =>
      let r' := { r with lanes := r.lanes.filter fun l => l.idx ≠ lane }
      let t := laneValue e r l
      let f := f.modCore r.who.core fun k =>
        k.sendTarget r.who r.slot lane (if lane = 0 then (commonFields i).t1 else (commonFields i).t2) (.tok ⟨t.bits, t.ember || r.val⟩)
      if r'.lanes = [] then (f.closeReq r').modCore r.who.core fun k => k.modExec r.who fun e => e.mark r.slot fNone
      else (f.sink (.reply r.id lane)).putReq r') ∧
  (∀ id lane r, Moves (.loadResponse id lane)
    (fun f => f.req id = some r ∧ r.kind.isLoad = true ∧ f.answered r lane = true ∧
      (f.core r.who.core).dbg.frozen = false ∧ f.issuer r = none ∧
      (r.kind = .load2 → r.lanes.filter (fun l => l.idx ≠ lane) = []))
    fun f => f.closeReq r) ∧
  (∀ id lane r, Moves (.loadResponse id lane)
    (fun f => f.req id = some r ∧ r.kind = .load2 ∧ f.answered r lane = true ∧
      (f.core r.who.core).dbg.frozen = false ∧ f.issuer r = none ∧ r.lanes.filter (fun l => l.idx ≠ lane) ≠ [])
    fun f => (f.sink (.reply r.id lane)).putReq { r with lanes := r.lanes.filter fun l => l.idx ≠ lane }) ∧
  ∀ id lane r, Moves (.loadResponse id lane)
    (fun f => f.req id = some r ∧ r.kind.isLoad = true ∧ f.answered r lane = true ∧
      (f.core r.who.core).dbg.frozen = true ∧ (id, lane) ∉ (f.core r.who.core).dbg.skid ∧
      (f.core r.who.core).dbg.skid.length < 64)
    fun f => f.modCore r.who.core fun k => { k with dbg := { k.dbg with skid := k.dbg.skid ++ [(id, lane)] } }

/-- R22, R24, R25, R178: a running firing whose waits are over and whose outputs are done passes to commit. A commit that may happen
and none of whose members fails a check applies the members' effects and hands over their unit; of one with a member that fails,
the first such firing is aborted, or trapped when pinned, with the check's code at its slot. -/
def FiringsComplete : Prop :=
  (∀ c a g b, Moves (.firingComplete c a)
    (fun f => ((f.core c).actor a).firing = some g ∧ (f.core c).blockOf (.actor c a) g.exec = some b ∧ g.phase = .running ∧
      g.exec.waits = [] ∧ (∀ q ∈ b.instrs, isOutput q.2 = true → q.1 ∈ g.exec.done) ∧ (f.core c).dbg.frozen = false)
    fun f => f.modCore c fun k => k.modActor a fun x => { x with firing := some { g with phase := .committing } }) ∧
  (∀ c a, Moves (.commit c a)
    (fun f => f.mayCommit c ((f.core c).committers a) = true ∧ (f.core c).firstFail 0 ((f.core c).committers a) = none)
    fun f => f.commitAll c ((f.core c).committers a)) ∧
  ∀ c a p slot code addr i, Moves (.commit c a)
    (fun f => f.mayCommit c ((f.core c).committers a) = true ∧
      (f.core c).firstFail 0 ((f.core c).committers a) = some (p, slot, code, addr) ∧
      ((f.core c).blockOf (.actor c p.1) p.2).bind (fun b => b.instrAt slot) = some i)
    fun f => f.firingFault c p.1 (slotTrap (.actor c p.1) slot i false code addr 0)

/-- R366, R367, R371, R352, R185: when every part of a unit has left its port, in port order, the rows and arrivals that waited for it
go on. The acknowledgement of a performed unit, back at its core, returns a credit for each of its packets and lowers
OUTSTANDING.ST; that of an engine's row returns one credit. A frozen core takes none (R431). -/
def UnitsLeave : Prop :=
  (∀ c id u, Moves (.rowRelease c id)
    (fun f => f.units.stores.find? (fun u => u.id = id && u.core = c) = some u ∧ u.sent = false ∧
      (f.core c).dbg.frozen = false ∧ f.behindUnit c id (laneLines u.lanes) = false ∧
      ∀ l ∈ laneLines u.lanes, l ∈ u.arrived ∨ f.units.carries (.part u.id l) = true)
    fun f => f.unitSent u) ∧
  (∀ c id u, Moves (.storeAcknowledgement c (some id))
    (fun f => f.units.stores.find? (fun u => u.id = id && u.core = c && u.performed && f.units.here (.ack id)) = some u ∧
      (f.core c).regionId = u.region ∧ (f.core c).dbg.frozen = false)
    fun f => ((f.sink (.ack id)).modUnits fun v => { v with stores := v.stores.filter fun x => x.id ≠ id }).modCore c fun k =>
      { k with credits := k.credits + u.packets, counts := { k.counts with st := k.counts.st - u.ops } }) ∧
  (∀ c, Moves (.storeAcknowledgement c none)
    (fun f => (f.core c).dbg.frozen = false ∧
      (f.core c).credits + (f.units.stores.map fun u => if u.core = c then u.packets else 0).sum < 256)
    fun f => f.modCore c fun k => { k with credits := k.credits + 1 }) ∧
  ∀ c u, Moves (.storeAcknowledgement c u) (fun f => (f.core c).dbg.frozen = true) fun f => f

/-- A lane of a request that its slice may serve now: not yet performed, translated, come to its slice, its line held by no unit, and
nothing earlier of its port to that line still to be performed (R351, R362, R364, R367). -/
structure Served (f : Fabric) (id lane : Nat) (r : Req) (l : ReqLane) (pa cls : Nat) : Prop where
  req : f.req id = some r
  asked : r.unsent.find? (fun l => l.idx = lane) = some l
  addr : l.pa = some (pa, cls)
  held : f.lineHeld (lineOf pa) = false
  port : f.portBusy r (lineOf pa) l.va = false
  here : f.units.here (.ask id lane) = true

/-- The requests after a lane of one has its value. -/
def answeredReqs (f : Fabric) (r : Req) (lane : Nat) (t : Tok) : List Req :=
  f.units.reqs.map fun q => if q.id = r.id then r.answer lane t else q

/-- R362, R363, R375: a lane of a load that its slice serves, on a page that is not of the ordered class and in a region without
logged arrivals to replay, has the bytes of its line; one free value is drawn. Memory does not change. R187: the next lane of an
eager atomic, every lane translated, on a line that no timestamped firing has read, keeps the old value and writes the new one,
which is hidden from no command (R390); with the ember bit it writes nothing (R404), nor to a poisoned line. -/
def SlicesServe : Prop :=
  (∀ s id lane r l pa cls, Served s.fab id lane r l pa cls → r.kind ≠ .eager → cls ≠ 2 →
    (s.fab.region (s.fab.core r.who.core).regionId).redo = [] →
    ∃ t, exec (.sliceAccess (.req id lane)) s = .next t ∧ t.mem = s.mem ∧ t.fab.cores = s.fab.cores ∧
      t.run = { s.run with free := s.run.free + 1 } ∧ t.fab.units.stores = s.fab.units.stores ∧
      t.fab.units.reqs = answeredReqs s.fab r l.idx
        ((s.fab.lineSeen s.mem (s.fab.core r.who.core).regionId l.va pa cls (Config.freeValue s.run.free)).part (pa % 64) l.n)) ∧
  ∀ s id lane r l pa cls, Served s.fab id lane r l pa cls → r.kind = .eager →
    (∃ rest, r.unsent = l :: rest) → (∀ x ∈ r.lanes, x.pa.isSome = true ∨ x.bad = true) →
    (s.fab.region (s.fab.core r.who.core).regionId).redo = [] →
    s.fab.readersOf (lineOf pa) = [] →
    ∃ t, exec (.sliceAccess (.req id lane)) s = .next t ∧
      t.fab.cores = (if r.val then s.fab.cores else (s.fab.unhide 0 pa l.n).cores) ∧
      t.run = { s.run with free := s.run.free + 1 } ∧
      t.mem = (if r.val then s.mem else s.mem.lane pa l.n r.op r.ty l.data l.cmp) ∧
      t.fab.units.stores = s.fab.units.stores ∧ t.fab.units.reqs = answeredReqs s.fab r l.idx (s.mem.token pa l.n)

/-- R364, R367: a part of a unit that has come to the slice of one of its lines is held there, in port order; memory does not change.
STORE_UNIT_PERFORM of a unit that holds all its lines, before any of a higher stamp, in a region without logged arrivals to
replay writes its lanes in order, all at one instant, and the unit is performed. -/
def UnitsPerform : Prop :=
  (∀ s id line u, s.fab.units.stores.find? (fun u => u.id = id) = some u → line ∈ laneLines u.lanes → line ∉ u.arrived →
    s.fab.behindPart u.core id [line] = false →
    (∀ r ∈ s.fab.units.reqs, r.who.core = u.core → r.id < id → ∀ l ∈ r.unsent,
      match l.pa with
      | some p => lineOf p.1 ≠ line
      | none => ∀ m ∈ u.lanes, lineOf m.pa = line → m.va / 64 ≠ l.va / 64) →
    s.fab.units.here (.part id line) = true →
    u.sent = true ∨ (∃ l ∈ laneLines u.lanes, l ∉ u.arrived ∧ l ≠ line) →
    exec (.sliceAccess (.part id line)) s = .next { s.onFabric fun f => (f.sink (.part id line)).modUnits fun v =>
        { v with stores := v.stores.map fun x => if x.id = id then { u with arrived := u.arrived ++ [line] } else x } with
      run := { s.run with free := s.run.free + 1 } }) ∧
  ∀ s id u, s.fab.units.stores.find? (fun u => u.id = id) = some u → u.performed = false → s.fab.holdsAll u = true →
    (s.fab.region u.region).redo = [] →
    ∃ t, exec (.storeUnitPerform id) s = .next t ∧
      t.mem = u.lanes.foldl (fun m l => m.lane l.pa l.n l.op l.ty l.data l.cmp) s.mem ∧
      ∀ v ∈ t.fab.units.stores, v.id = id → v.performed = true ∧ v.sent = true

end Sys2Proof.Claims

/-- Slices serve loads and eager atomics; a store unit is performed at one instant. What is the model's own choice or inference in
it: log entry 24. -/
def Obligations.SlicesServeAndUnitsPerform : Prop :=
  SlicesServe ∧ UnitsPerform

namespace Sys2Proof.Claims

/-- R378: every 64 cycles HORIZON rises to the least timestamp that the region's actors contribute, and never falls. -/
def HorizonRises : Prop :=
  ∀ reg n, Moves (.horizonBroadcast reg)
    (fun f => (f.region reg).horizonAt + 64 ≤ f.units.cycle ∧
      leastOf (f.cores.flatMap fun p =>
        if p.2.group.isSome && p.2.regionId = reg then p.2.actors.filterMap fun q => p.2.horizonOf q.1 q.2 else []) = some n)
    fun f => f.modRegion reg fun r =>
      { r with horizonAt := f.units.cycle, horizon := if r.horizon.toNat < n then BitVec.ofNat 64 n else r.horizon }

end Sys2Proof.Claims

/-- Firings complete and commit as one unit, units leave their port, HORIZON rises. What is the model's own choice or inference in it:
log entries 40, 66, 67. -/
def Obligations.FiringsCompleteAndUnitsLeave : Prop :=
  FiringsComplete ∧ UnitsLeave ∧ HorizonRises

namespace Sys2Proof.Claims

/-- The fabric after a sequencer block's writes, its commit noted and logged, and the hand-over of its stores (R197, R185, R432). -/
def ended (f : Fabric) (c : Nat) (e : Exec) : Fabric :=
  ((f.fresh.2.modCore c fun k => { k.blockWrites e with commitAt := (f.units.cycle, 256) }).logCommit c 1024).handOver f.units.nextId c
    0xFFFF (storeOps e) (storePackets e) e.id [.seq c] none (storeLanes e)

/-- The sequencer of a core runs block `b`, which may complete now. -/
structure Ends (f : Fabric) (c : Nat) (e : Exec) (g : Group) (b : Block) : Prop where
  running : (f.core c).seq.phase = .run ∧ (f.core c).seq.exec = some e
  group : (f.core c).group = some g
  block : g.blocks[e.block]? = some b
  may : f.mayEnd c b e = true

end Sys2Proof.Claims

/-- R197 to R200, R203: a sequencer's block whose outputs are done makes its writes, hands over its stores, and passes over a
boundary to the block its branch chose, the branch noted as what loads it (R116); a TRAP it executed is raised there. A branch that
traps raises its trap with the block itself as return point, and no TRAP; a fault of the call stack's spills and refills is the
block's, whose writes are not made (R399). At a boundary without a trap to deliver the sequencer goes on, or halts. The declaration
block of a BIND plane done fills the plane, unless a check refuses it (R214, R311). What is the model's own choice or inference in
it: log entries 42, 50. -/
def Obligations.SequencerBlocksComplete : Prop :=
  (∀ s c e g b next m f, Ends s.fab c e g b → (ended s.fab c e).branch s.mem c g.blocks e = .ok (next, m, f) → e.soft = none →
    exec (.sequencerBlockComplete (.seq c)) s =
      .next { s with mem := m, fab := (f.modCore c fun k => (k.atBoundary next).loadedBy (loaderOf b)).proceed c }) ∧
  (∀ s c e g b next m f slot code i, Ends s.fab c e g b → (ended s.fab c e).branch s.mem c g.blocks e = .ok (next, m, f) →
    e.soft = some (slot, code) → b.instrAt slot = some i →
    exec (.sequencerBlockComplete (.seq c)) s =
      .next { s with mem := m, fab := ((f.modCore c fun k => (k.atBoundary next).loadedBy (loaderOf b)).raise c
        (s.fab.core c).seq.serving.isSome
        { slotTrap (.seq c) slot i false 0x01 code 0 with src := .soft }).proceed c }) ∧
  (∀ s c e g b code addr, Ends s.fab c e g b → (ended s.fab c e).branch s.mem c g.blocks e = .error (code, addr) → code < 0x30 →
    exec (.sequencerBlockComplete (.seq c)) s =
      .next (s.onFabric fun f => (((ended f c e).modCore c fun k => k.atBoundary (some e.block)).raise c
        (f.core c).seq.serving.isSome (branchTrap c b e code addr)).proceed c)) ∧
  (∀ s c e g b code addr, Ends s.fab c e g b → (ended s.fab c e).branch s.mem c g.blocks e = .error (code, addr) → 0x30 ≤ code →
    exec (.sequencerBlockComplete (.seq c)) s =
      .next (s.onFabric fun f => f.blockFault c (branchTrap c b e code addr))) ∧
  (∀ c b, Moves (.sequencerBlockComplete (.seq c))
    (fun f => (f.core c).seq.phase = .boundary (some b) ∧ (f.core c).hasTrap = false ∧ (f.core c).dbg.frozen = false)
    fun f => if b ∈ (f.core c).seq.resident then f.startBlock c b
      else f.modCore c fun k => { k with seq := { k.seq with phase := .fetch b } }) ∧
  (∀ c, Moves (.sequencerBlockComplete (.seq c))
    (fun f => (f.core c).seq.phase = .boundary none ∧ (f.core c).seq.pending = [] ∧ (f.core c).dbg.frozen = false)
    fun f => f.modCore c fun k => { k with seq := { k.seq with phase := .halted } }) ∧
  ∀ c e g b, Moves (.sequencerBlockComplete (.bind c))
    (fun f => (f.core c).bindExec = some e ∧ (f.core c).incoming = some g ∧ g.blocks[e.block]? = some b ∧ outputsDone b e = true)
    fun f => f.modCore c fun k =>
      { k with bindExec := none, incoming := some { g with
          filled := f.swapFails c (f.core c).kplane (some g) = []
          refused := g.refused || f.swapFails c (f.core c).kplane (some g) ≠ [] } }

/-- R198 to R200: where a completed block passes. A chosen index goes to a sequencer block of the table, CALL to one of any kind but
actor, with a call entry of the next index; an index above 1,023 or beyond the table is BRANCH_RANGE, an actor block, or a
configuration block not called, BRANCH_KIND, a null choice BRANCH_NULL. RET and the implicit return pop a call entry; RFT pops a
trap entry; the wrong tag is STACK_KIND, an empty stack STACK_EMPTY. HALT passes to no block. What is the model's own choice or
inference in it: log entries 20, 42. -/
def Obligations.BranchTargets : Prop :=
  ∀ (f : Fabric) (m : Memory) (c : Nat) (bs : List Block) (e : Exec),
    (∀ x b, e.choice = some (.goto x) → x < 1024 → bs[x]? = some b → b.kind = 0 → f.branch m c bs e = .ok (some x, m, f)) ∧
    (∀ x, e.choice = some (.goto x) ∨ e.choice = some (.call x) → 1023 < x ∨ bs.length ≤ x → f.branch m c bs e = .error (0x02, 0)) ∧
    (∀ x b, e.choice = some (.goto x) → x < 1024 → bs[x]? = some b → b.kind = 1 ∨ b.kind = 2 →
      f.branch m c bs e = .error (0x03, 0)) ∧
    (∀ x b, e.choice = some (.call x) → x < 1024 → bs[x]? = some b → b.kind = 1 → f.branch m c bs e = .error (0x03, 0)) ∧
    (∀ x b, e.choice = some (.call x) → x < 1024 → bs[x]? = some b → b.kind = 0 ∨ b.kind = 2 →
      (f.core c).seq.stack.length < 32 →
      f.branch m c bs e = .ok (some x, m, f.modCore c fun k =>
        { k with seq := { k.seq with stack := ⟨false, some (e.block + 1)⟩ :: k.seq.stack } })) ∧
    (e.choice = some .null → f.branch m c bs e = .error (0x04, 0)) ∧
    (e.choice = some .halt → f.branch m c bs e = .ok (none, m, f)) ∧
    (e.choice = some .ret ∨ e.choice = none →
      (∀ x r b, (f.core c).seq.stack = ⟨false, some x⟩ :: r → x < 1024 → bs[x]? = some b → b.kind = 0 →
        f.branch m c bs e = .ok (some x, m, f.modCore c fun k => { k with seq := { k.seq with stack := r } })) ∧
      (∀ x r, (f.core c).seq.stack = ⟨true, x⟩ :: r → f.branch m c bs e = .error (0x06, 0)) ∧
      ((f.core c).seq.stack = [] → (f.core c).seq.ovf = 0 → (f.core c).seq.spilled = [] → f.branch m c bs e = .error (0x05, 0))) ∧
    ∀ y, e.choice = some (.rft y) →
      (∀ x r, (f.core c).seq.stack = ⟨false, x⟩ :: r → f.branch m c bs e = .error (0x06, 0)) ∧
      (∀ x r t, y = none → (f.core c).seq.stack = ⟨true, x⟩ :: r → (f.core c).seq.serving = some t →
        f.branch m c bs e =
          let g := (f.modCore c fun k => { k with seq := { k.seq with stack := r } }).endTrap c t x
          .ok (x, (g.releaseHeld m t).1, (g.releaseHeld m t).2))

/-- R39, R43, R197: a completed sequencer block writes its g registers, g0 discarding its writes and a marked token none, then its
control registers, gathers its flags in FPX and counts itself. The rest of the core stays. -/
def Obligations.BlockWrites : Prop :=
  ∀ (k : Core) (e : Exec),
    (k.blockWrites e).seq.count = k.seq.count + 1 ∧ (k.blockWrites e).seq.exec = none ∧
    (k.blockWrites e).dbg.retired = k.dbg.retired + 1 ∧ (k.blockWrites e).seq.stack = k.seq.stack ∧
    (k.blockWrites e).actors = k.actors ∧ (k.blockWrites e).wins = k.wins ∧ (k.blockWrites e).mx = k.mx ∧
    sget 0 (k.blockWrites e).seq.g 0 = sget 0 k.seq.g 0 ∧
    ∀ n v slot, e.effects = [(slot, .greg n ⟨v, false⟩)] → n % 64 ≠ 0 →
      sget 0 (k.blockWrites e).seq.g (n % 64) = BitVec.ofNat 64 (elem 64 v 0) ∧
      (∀ r, r ≠ n % 64 → sget 0 (k.blockWrites e).seq.g r = sget 0 k.seq.g r) ∧
      (k.blockWrites e).seq.fpx = k.seq.fpx ||| e.flags

namespace Sys2Proof.Claims

/-- R193, R194, R207: a wait of the sequencer that is over completes its slot; an EVWAIT returns its events, which are cleared.
R311: a block read from the image that passes the checks starts, its store keeping the 32 latest; another raises BLOCK_INVALID,
naming what loaded it (R116). -/
def SequencerWaitsEnd : Prop :=
  (∀ c e slot m t i, Moves (.sequencerWaitEnd c)
    (fun f => (f.core c).exec (.seq c) = some e ∧ e.waits.find? (fun w => f.waitOver c w.2) = some (slot, .event m t) ∧
      (f.core c).dbg.frozen = false ∧ ((f.core c).blockOf (.seq c) e).bind (fun b => b.instrAt slot) = some i)
    fun f => f.modCore c fun k =>
      (k.finish (.seq c) slot i (.tok ⟨ofVals 32 [f.events c m t, k.eng.strm], false⟩)
        (.tok ⟨ofVals 32 [f.events c m t, k.eng.strm], false⟩) fNone).clearEvents (f.events c m t)) ∧
  (∀ c e slot w, Moves (.sequencerWaitEnd c)
    (fun f => (f.core c).exec (.seq c) = some e ∧ e.waits.find? (fun w => f.waitOver c w.2) = some (slot, w) ∧
      (∀ m t, w ≠ .event m t) ∧ (f.core c).dbg.frozen = false)
    fun f => f.modCore c fun k => k.modExec (.seq c) fun e => e.mark slot fNone) ∧
  (∀ c b g x, Moves (.seqBlockFetch c)
    (fun f => (f.core c).seq.phase = .fetch b ∧ (f.core c).group = some g ∧ (f.core c).dbg.frozen = false ∧
      g.blocks[b]? = some x ∧ x.validate false = none)
    fun f => (f.modCore c fun k =>
      { k with seq := { k.seq with resident := (b :: k.seq.resident.filter (· ≠ b)).take 32 } }).startBlock c b) ∧
  ∀ c b g x addr, Moves (.seqBlockFetch c)
    (fun f => (f.core c).seq.phase = .fetch b ∧ (f.core c).group = some g ∧ (f.core c).dbg.frozen = false ∧
      g.blocks[b]? = some x ∧ x.validate false = some addr)
    fun f => (f.modCore c fun k => k.atBoundary (some b)).raise c (f.core c).seq.serving.isSome
      { code := 0x90, slot := (f.core c).seq.loader.1, op := (f.core c).seq.loader.2, pe := 0xFFFF, addr := addr, src := .block }

end Sys2Proof.Claims

/-- Waits end when what they wait for is there; answers complete their slots. What is the model's own choice or inference in it: log
entries 42, 50. -/
def Obligations.WaitsEndAndResponsesDeliver : Prop :=
  WaitsEnd ∧ SequencerWaitsEnd ∧ ResponsesDeliver

namespace Sys2Proof.Claims

/-- The first trap of a core is to be delivered at this boundary. -/
structure Delivers (f : Fabric) (c : Nat) (t : Trap) (rest : List Trap) (ret : Option Nat) : Prop where
  phase : (f.core c).seq.phase = .boundary ret
  free : (f.core c).seq.serving = none
  pending : (f.core c).seq.pending = t :: rest
  running : (f.core c).dbg.frozen = false

/-- R204, R205: a trap delivered at a boundary with HANDLER naming a sequencer block writes the trap registers, pushes a trap entry
with the return point, and enters the handler, which no branch loads. Without HANDLER.V the region stops with the trap, still
pending; when HANDLER names no block that may be entered the trap registers hold HANDLER_FAULT and the region stops with it. The
values the manual leaves open are six draws. -/
def TrapsDeliverPart : Prop :=
  (∀ s c t rest ret h, Delivers s.fab c t rest ret → (s.fab.core c).handles = true → (s.fab.core c).handler = some h →
    (s.fab.core c).seq.stack.length < 32 → t.dead = [] →
    exec (.trapDelivery c) s = .next { s.onFabric fun f => (f.modCore c fun k =>
        let k := { k with seq := { k.seq with pending := rest, stack := ⟨true, ret⟩ :: k.seq.stack } }
        let k := (t.regs (freeFrom s.run.free)).foldl (fun k p => k.setCtl p.1 p.2) k
        { k with seq := { k.seq with loader := (0xFFFF, 0), serving := some t } }).enterBlock c h with
      run := { s.run with free := s.run.free + 6 } }) ∧
  (∀ s c t rest ret, Delivers s.fab c t rest ret → (s.fab.core c).handles = false →
    exec (.trapDelivery c) s = .next { s.onFabric fun f => f.stopRegion c t with
      run := { s.run with free := s.run.free + 6 } }) ∧
  ∀ s c t rest ret, Delivers s.fab c t rest ret → (s.fab.core c).handles = true → (s.fab.core c).handler = none →
    exec (.trapDelivery c) s = .next { s.onFabric fun f => (f.modCore c fun k =>
        (t.handlerFault.regs (freeFrom s.run.free)).foldl (fun k p => k.setCtl p.1 p.2) k).stopRegion c t.handlerFault with
      run := { s.run with free := s.run.free + 6 } }

/-- R42, R204: the registers that a trap of an instruction in a slot writes. TRAP_CAUSE holds class and code, TRAP_SLOT the actor
and slot, or 0xFF and the slot for a sequencer, TRAP_OP the opcode, TRAP_PE the PE, or 0xFFFF for a sequencer. The others keep
their values. -/
def TrapRegisters : Prop :=
  ∀ (k : Core) (free : Nat → Row) (who : Agent) (slot : Nat) (i : Instr) (code addr lane : Nat),
    slot < 128 → 0x10 ≤ code → code < 0x70 → code ≠ 0x11 →
    let k' := ((slotTrap who slot i false code addr lane).regs free).foldl (fun k p => k.setCtl p.1 p.2) k
    sget 0 k'.seq.ctl 0x021 = BitVec.ofNat 64 ((code / 16 - 1) * 256 + code) ∧
    (∀ c a, who = .actor c a → sget 0 k'.seq.ctl 0x022 = BitVec.ofNat 64 (a % 4 * 256 + slot)) ∧
    (∀ c, who = .seq c → sget 0 k'.seq.ctl 0x022 = BitVec.ofNat 64 (0xFF00 + slot)) ∧
    sget 0 k'.seq.ctl 0x024 = BitVec.ofNat 64 ((opcodeOf i).getD 0) &&& 0x3FF ∧
    sget 0 k'.seq.ctl 0x025 = BitVec.ofNat 64 addr ∧
    (∀ c a, who = .actor c a → sget 0 k'.seq.ctl 0x026 = BitVec.ofNat 64 (a / 4)) ∧
    (∀ c, who = .seq c → sget 0 k'.seq.ctl 0x026 = 0xFFFF) ∧
    ∀ n, n < 0x021 ∨ 0x026 < n → sget 0 k'.seq.ctl n = sget 0 k.seq.ctl n

end Sys2Proof.Claims

/-- A trap is delivered at a boundary: registers, trap entry, handler, or the region stops. What is the model's own choice or
inference in it: log entries 21, 42. -/
def Obligations.TrapsDeliver : Prop :=
  TrapsDeliverPart ∧ TrapRegisters

namespace Sys2Proof.Claims

/-- Generator `i` of a core runs command `q` and its core is not frozen. -/
def RunsGen (f : Fabric) (c i : Nat) (q : GenCmd) : Prop :=
  ((f.core c).gen i).cur = some q ∧ (f.core c).dbg.frozen = false

/-- A command has a row left at a place: its number of rows, where it has one, lies above. -/
def RowLeft (q : GenCmd) (r : Nat) : Prop := ∀ n, q.total = some n → r < n

/-- R230, R245, R257: a command that waits for room makes its checks again and enters, the lowest slot's first. A generator's next
command starts when no STRW holds it back; the tier and network queue's next command starts. -/
def EngineCommandsStart : Prop :=
  (∀ s c e slot i, (s.fab.core c).exec (.seq c) = some e → (s.fab.core c).dbg.frozen = false →
    leastOf (e.waits.filterMap fun w => if w.2 = .queue then some w.1 else none) = some slot →
    ((s.fab.core c).blockOf (.seq c) e).bind (fun b => b.instrAt slot) = some i →
    exec (.engineQueueEntry c) s = .next (s.onFabric fun f =>
      engineGo s.mem i (gather (.seq c) slot i { e with waits := e.waits.filter fun w => w.1 ≠ slot })
        (f.modCore c fun k => k.endWait (.seq c) slot))) ∧
  (∀ c i q r, Moves (.engineCommandStart c (.gen i))
    (fun f => ((f.core c).gen i).cur = none ∧ ((f.core c).gen i).queue = q :: r ∧ (f.core c).dbg.frozen = false ∧
      (f.core c).strwLets q.order = true ∧ q.total ≠ some 0)
    fun f => f.modCore c fun k => k.modGen i fun y =>
      { y with queue := r, cur := some q, row := 0, landed := [], wrote := [] }) ∧
  ∀ c m, Moves (.engineCommandStart c .net)
    (fun f => (f.core c).eng.net.find? (fun m => !m.running) = some m ∧ (f.core c).dbg.frozen = false ∧
      (f.core c).saving = false ∧ (f.core c).cutDone = false ∧ m.op ≠ 0x359)
    fun f => (f.modCore c fun k => k.putNet { m with running := true }).sendReady c

/-- R52, R170, R230, R259: a generator's command that is done ends, its STRM bit set; the first command of the tier and network
queue that is done leaves it, CP falling, an XINV with its translations dropped; an MXLDW that has written its records ends. A
window image that has all its rows ends: a WREST rebuilds its window from an image whose check sum fits; one whose header or check
sum does not fit raises IMAGE_BAD. -/
def EngineCommandsComplete : Prop :=
  (∀ c i q, Moves (.engineCommandComplete c (.gen i))
    (fun f => RunsGen f c i q ∧ ((f.core c).gen i).done q = true)
    fun f => f.modCore c fun k => ((k.endGen i ((f.core c).gen i).stopped).pruneStrws).settleMx) ∧
  (∀ c m, Moves (.engineCommandComplete c .net)
    (fun f => (f.core c).eng.net.find? (f.netDone (f.core c).contextId) = some m ∧ (f.core c).dbg.frozen = false ∧ m.op ≠ 0x360)
    fun f => f.modCore c fun k =>
      { k with
        eng := { k.eng with net := k.eng.net.filter fun x => x.id ≠ m.id }
        counts := { k.counts with cp := k.counts.cp - 1 } }) ∧
  (∀ s c m, (s.fab.core c).eng.net.find? (s.fab.netDone (s.fab.core c).contextId) = some m →
    (s.fab.core c).dbg.frozen = false → m.op = 0x360 →
    let f := s.fab.modCore c fun k =>
      { k with
        eng := { k.eng with net := k.eng.net.filter fun x => x.id ≠ m.id }
        counts := { k.counts with cp := k.counts.cp - 1 } }
    let q := f.dropWhere s.mem
      (fun d => if m.flags % 4 = 0 then d = c else if m.flags % 4 = 1 then dieOf d = dieOf c else true)
      (m.covers (s.fab.core c).contextId)
    exec (.engineCommandComplete c .net) s = .next { s with mem := q.1, fab := q.2 }) ∧
  (∀ c id m, Moves (.engineCommandComplete c (.image id))
    (fun f => (f.core c).eng.images.find? (fun x => x.id = id) = some m ∧ (f.core c).dbg.frozen = false ∧ m.total ≤ m.pos ∧
      m.strike = none ∧ m.failed = false ∧ m.save = true)
    fun f => f.modCore c fun k => k.endImage id) ∧
  (∀ c id m, Moves (.engineCommandComplete c (.image id))
    (fun f => (f.core c).eng.images.find? (fun x => x.id = id) = some m ∧ (f.core c).dbg.frozen = false ∧ m.total ≤ m.pos ∧
      m.strike = none ∧ m.failed = false ∧ m.save = false ∧
      crc32c (m.rows.tail.flatMap fun t => toBytes 64 t.bits) = rowBits (m.rows.getD 0 {}).bits 223 192)
    fun f => f.modCore c fun k => (k.placeRows m.win m.rows.tail).endImage id) ∧
  (∀ c id m, Moves (.engineCommandComplete c (.image id))
    (fun f => (f.core c).eng.images.find? (fun x => x.id = id) = some m ∧ (f.core c).dbg.frozen = false ∧ m.strike = none ∧
      (m.failed = true ∨ m.total ≤ m.pos ∧ m.save = false ∧
        crc32c (m.rows.tail.flatMap fun t => toBytes 64 t.bits) ≠ rowBits (m.rows.getD 0 {}).bits 223 192))
    fun f => (f.modCore c fun k => k.endImage m.id).postTrap c (engineTrap 0x22 m.op 0xFF 0xFFFE m.va)) ∧
  ∀ c m, Moves (.engineCommandComplete c .mxldw)
    (fun f => activeLoad [] (f.core c).mx.queue = some m ∧ m.recCount ≤ m.written ∧ m.strike = none ∧ (f.core c).dbg.frozen = false)
    fun f => f.modCore c fun k => k.endMx m.id

end Sys2Proof.Claims

/-- Engine commands start in order and complete. What is the model's own choice or inference in it: log entries 18, 19, 27. -/
def Obligations.EngineCommandsRun : Prop :=
  EngineCommandsStart ∧ EngineCommandsComplete

namespace Sys2Proof.Claims

/-- R245, R255, R251, R334, R416: a generator whose next row has all its lines in hand fills a free row of its window with it, its
control tokens behind, and keeps the lines of the runs still to come; one that writes shrinks the oldest row of its window once
that row's lines are written, or for a CPYF passes on. A row of a CPYR leaves its window and fills the destination, when the
network fills that window and it has room. Each is progress of the region. -/
def GeneratorRows : Prop :=
  (∀ c i q, Moves (.generatorRowFill c i)
    (fun f => RunsGen f c i q ∧ q.fills = true ∧ RowLeft q ((f.core c).gen i).row ∧
      (f.core c).pausedStream ((f.core c).gen i) = false ∧ ((f.core c).gen i).stopped = false ∧
      (f.core c).restoring q.win = false ∧ (f.core c).freeRows q.win ≠ 0 ∧
      ((f.core c).gen i).rowLanded q ((f.core c).gen i).row = true)
    fun f =>
      let y := (f.core c).gen i
      (f.modCore c fun k =>
        ((k.fillWin q.win (q.formRow y.landed y.row)).emitEods q.win (q.eodAfter y.row)).modGen i fun z =>
          { z with row := z.row + 1, landed := z.landed.filter fun x => q.runOf (z.row + 1) 0 0 ≤ x.row }).modRegion
        (f.core c).regionId fun r => { r with idle := 0 }) ∧
  (∀ c i q, Moves (.generatorRowShrink c i)
    (fun f => RunsGen f c i q ∧ q.writes = true ∧ RowLeft q ((f.core c).gen i).row ∧
      (f.core c).pausedStream ((f.core c).gen i) = false ∧ (q.op = 0x345 ∨ (f.core c).readable q.win ≠ 0) ∧
      ((f.core c).gen i).rowWritten q ((f.core c).gen i).row = true ∧ ((f.core c).gen i).stopped = false)
    fun f => (f.modCore c fun k =>
      (if q.op = 0x345 then k else k.shrinkWin q.win 1).modGen i fun y =>
        { y with row := y.row + 1, wrote := y.wrote.filter fun w => w.1 ≠ y.row }).modRegion (f.core c).regionId fun r =>
      { r with idle := 0 }) ∧
  ∀ c i q, Moves (.cpyrRowArrival c i)
    (fun f =>
      let d := elem 32 q.a 0 * 128 + elem 32 q.a 1
      RunsGen f c i q ∧ q.op = 0x342 ∧ ((f.core c).gen i).stopped = false ∧ (f.core d).dbg.frozen = false ∧
        (f.core c).cutDone = false ∧ (f.core d).cutDone = false ∧ ((f.core c).gen i).row < elem 32 q.a 3 ∧
        (f.core c).readable q.win ≠ 0 ∧ (f.core d).group.isSome = true ∧ f.fillerDone c q.win = true ∧
        (f.core d).notParty (elem 32 q.a 2) true (partyIdent 5 0) = false ∧ (f.core d).freeRows (elem 32 q.a 2) ≠ 0 ∧
        (f.core d).restoring (elem 32 q.a 2) = false)
    fun f =>
      let t := (f.core c).row (rowAt ((f.core c).winCfg q.win) ((f.core c).win q.win).head 0)
      ((f.modCore (elem 32 q.a 0 * 128 + elem 32 q.a 1) fun kd => kd.fillWin (elem 32 q.a 2) t).modCore c fun k =>
        ((k.shrinkWin q.win 1).modGen i fun y => { y with row := y.row + 1 }).crossed (768 + i)).modRegion (f.core c).regionId
        fun r => { r with idle := 0 }

/-- R249, R328, R332, R236, R336: a chained half whose turn has come, every MXRUN before it having admitted its rows, starts once
its CPY has filled its last row. The first command without its records loads them; an activation row enters the array once its
window rows are filled; the next record of an MXLDW is written once its lines are there. -/
def MatrixRows : Prop :=
  (∀ c m g, Moves (.chainedHalfStart c)
    (fun f => (f.core c).mx.queue.find? (fun m => m.kind = 0 && m.admitted < m.count) = some m ∧ m.chain = some g ∧ m.ready = false ∧
      (f.core c).chainFilled m.id g = true ∧ (f.core c).dbg.frozen = false)
    fun f => f.modCore c fun k => k.putMx { m with ready := true }) ∧
  (∀ c m, Moves (.matrixRecordLoad c)
    (fun f => nextRecords [] (f.core c).mx.queue = some m ∧ (f.core c).dbg.frozen = false ∧ (f.core c).saving = false)
    fun f => f.modCore c fun k => k.putMx { m with loaded := true }) ∧
  (∀ c m, Moves (.matrixRowAdmit c)
    (fun f => (f.core c).mx.queue.find? (fun m => m.kind = 0 && m.admitted < m.count) = some m ∧ (f.core c).dbg.frozen = false ∧
      m.loaded = true ∧ m.ready = true ∧ m.nextOffset + m.rowsPer ≤ (f.core c).readable m.win)
    fun f => (f.modCore c fun k =>
      let rows := (List.range m.rowsPer).map fun i => k.row (rowAt (k.winCfg m.win) (k.win m.win).head (m.nextOffset + i))
      let k := k.putMx { m with admitted := m.admitted + 1, arr := m.arr ++ [(m.admitted, rows)] }
      if bitOf m.flags 1 then k.shrinkWin m.win m.rowsPer else k).modRegion (f.core c).regionId fun r => { r with idle := 0 }) ∧
  ∀ c m, Moves (.mxldwRecordWrite c)
    (fun f => activeLoad [] (f.core c).mx.queue = some m ∧ (f.core c).dbg.frozen = false ∧ m.written < m.recCount ∧
      ∀ l ∈ m.recLines m.written, m.holds m.written l = true)
    fun f => f.modCore c fun k =>
      (k.putRecord (m.set * 65536 + elem 32 m.a 0 + m.written * recWords m.desc.recKind) (recWords m.desc.recKind)
        (m.formRecord (landedByte m.landed m.written) m.written) (landedEmber m.landed m.written)).putMx
        { m with written := m.written + 1, landed := m.landed.filter fun x => x.row ≠ m.written }

/-- R240, R242, R243, R329: the oldest row in the array is written to its accumulator row and the counters of its tile group rise;
with its last row the command ends. A threshold crossed for the first time raises MX_THRESHOLD. No injection is armed that meets
it. -/
def MatrixResults : Prop :=
  ∀ c m i rows rest, Moves (.matrixAccWrite c)
    (fun f => (f.core c).mx.queue.find? (fun m => m.kind = 0) = some m ∧ m.arr = (i, rows) :: rest ∧
      (f.core c).dbg.frozen = false ∧ m.injected (f.core c).dbg.finj = none)
    fun f =>
      let k := f.core c
      let row := elem 32 m.a 1 + i
      let out := m.rowOut k.mx rows (k.acc row)
      let tile := (k.tile (row / 64)).raise out.2.1 out.2.2.1 out.2.2.2
      tile.2.foldl (fun f i => f.postTrap c (engineTrap 0x50 m.op 0 0xFFFD (row / 64 + i * 16)))
        ((f.modCore c fun k =>
          let k := ((k.setAcc row out.1).modTile (row / 64) fun _ => tile.1).putMx { m with arr := rest, written := m.written + 1 }
          if m.written + 1 = m.count then k.endMx m.id else k).modRegion (f.core c).regionId fun r => { r with idle := 0 })

end Sys2Proof.Claims

/-- Generators and the matrix engine move their rows. What is the model's own choice or inference in it: log entries 12, 17, 19, 26,
28. -/
def Obligations.EngineRowsMove : Prop :=
  GeneratorRows ∧ MatrixRows ∧ MatrixResults

namespace Sys2Proof.Claims

/-- R264, R265, R263, R385: an acknowledgement over a connection counts for its earliest command with rows unanswered; a row that
answers an NGET fills its window and is logged, a row of the interval before a rollback coming again first (R412); a refusal answers
the connection's earliest row, or ends an NGET, and raises REMOTE_FAULT or REMOTE_SCOPE. -/
def NetworkAnswers : Prop :=
  (∀ c conn m, Moves (.networkAckReceive ⟨c, conn⟩)
    (fun f => (f.core c).eng.net.find? (fun m => m.sends && m.conn = conn && m.acked < m.sent) = some m ∧ (f.core c).dbg.frozen = false)
    fun f => (f.modCore c fun k => k.putNet { m with acked := m.acked + 1 }).sendReady c) ∧
  (∀ c conn row m, Moves (.ngetRowArrival ⟨c, conn⟩ row)
    (fun f => (f.core c).netGetter conn = some m ∧ (f.core c).dbg.frozen = false ∧ (f.region (f.core c).regionId).rowsBack = [])
    fun f => (f.modCore c fun k => (k.fillWin m.win ⟨row, false⟩).putNet { m with acked := m.acked + 1 }).modRegion
      (f.core c).regionId fun r => { r with rowsIn := r.rowsIn ++ [(c, m.win, row)], rowsBack := [], idle := 0 }) ∧
  (∀ c conn scope m, Moves (.remoteRefusalReceive ⟨c, conn⟩ scope)
    (fun f => (f.core c).eng.net.find? (fun m => m.awaits conn) = some m ∧ (f.core c).dbg.frozen = false ∧
      m.sends = true ∧ (scope = true → m.op = 0x35A))
    fun f => (f.modCore c fun k => k.putNet { m with acked := m.acked + 1 }).postTrap c
      (engineTrap (if scope then 0x32 else 0x34) m.op 0 0xFFFC (m.remote m.acked))) ∧
  ∀ c conn m, Moves (.remoteRefusalReceive ⟨c, conn⟩ false)
    (fun f => (f.core c).eng.net.find? (fun m => m.awaits conn) = some m ∧ (f.core c).dbg.frozen = false ∧ m.sends = false)
    fun f => (f.modCore c fun k => k.putNet { m with ended := true }).postTrap c
      (engineTrap 0x34 m.op 0 0xFFFC (m.remote m.acked))

/-- R428, R436, R437: the report of a watched access reaches its engine, and that of the striking access stops the command. The
WATCH of a copy-engine strike whose skid is final, of the lowest watchpoint first, is raised on its core; without one that of a
remote strike whose skid is final, after 3 accesses, or after 3 cycles once no element of its row is left. -/
def StrikesReport : Prop :=
  (∀ c i, Moves (.skidReport c (.gen i)) (fun f => (f.core c).dbg.frozen = false ∧ 0 < ((f.core c).gen i).unreported)
    fun f => f.modCore c fun k => k.modGen i fun y =>
      { y with unreported := y.unreported - 1
               strike := y.strike.map fun s => if s.ahead = 0 then { s with stopped := true } else { s with ahead := s.ahead - 1 } }) ∧
  (∀ c x, Moves (.watchRaise c)
    (fun f => (f.core c).dbg.frozen = false ∧
      leastStrike ((f.cores.flatMap fun q => q.2.finals q.1).filter fun x => x.strike.wcore = c) = some x ∧ x.strike.others = [])
    fun f => (f.modCore x.core fun k => k.markRaised x.eng x.id).postTrap c
      { engineTrap 0x60 x.op x.low x.pe x.strike.addr with
        info := some (wpInfo 0 0 x.strike.skid x.gen x.strike.kind 1 x.strike.wp)
        holder := some (x.core, x.eng, x.id) }) ∧
  ∀ c x, Moves (.watchRaise c)
    (fun f => (f.core c).dbg.frozen = false ∧
      leastStrike ((f.cores.flatMap fun q => q.2.finals q.1).filter fun x => x.strike.wcore = c) = none ∧
      (f.core c).dbg.remote = [x] ∧ (3 ≤ x.strike.skid ∨ x.cycle + 3 < f.units.cycle ∧ f.rowBehind x = false))
    fun f => (f.modCore c fun k => { k with dbg := { k.dbg with remote := [] } }).postTrap c
      { code := 0x60, async := true, addr := x.strike.addr, pe := 0xFFFB, src := .engine, conn := some (x.ctx, x.conn, x.slice),
        info := some (wpInfo x.req x.conn x.strike.skid 0 x.strike.kind 2 x.strike.wp) }

end Sys2Proof.Claims

/-- Network answers reach their commands; watchpoint strikes of engines are reported. What is the model's own choice or inference in
it: log entries 27, 30. -/
def Obligations.NetworkAnswersAndStrikesReport : Prop :=
  NetworkAnswers ∧ StrikesReport

namespace Sys2Proof.Claims

/-- Where `pre` holds of memory and the fabric, an event answers the next state in which both are those of `post`; the model's own
fields stay. -/
def MemMoves (i : Instr) (pre : Memory → Fabric → Prop) (post : Memory → Fabric → Memory × Fabric) : Prop :=
  ∀ s, pre s.mem s.fab → exec i s = .next { s with mem := (post s.mem s.fab).1, fab := (post s.mem s.fab).2 }

/-- An arrival that need not wait and that its mapping admits with translation `t`. -/
structure Admitted (m : Memory) (f : Fabric) (ctx conn va : Nat) (write atomic : Bool) (t : Trans) : Prop where
  range : va < 2 ^ 56
  goes : f.mustWait m ctx conn va = false
  mapped : f.arrive m ctx va write atomic = .ok t

/-- Memory and the fabric with a page of the tier in a frame of HBM (R261): its bytes copied, the leaf rewritten without TIER, the
frame's tags set, its translations dropped, its misses resolved and its peat copy freed. -/
def broughtIn (m : Memory) (f : Fabric) (ctx page size leaf frame : Nat) : Memory × Fabric :=
  let e := m.readNat leaf 8
  let peat := field e 51 16 * 65536
  let q := f.dropPage (((m.copy peat frame size).writeNat leaf 8 (retier e false frame)).setTags ctx frame size e) ctx page size
  (q.1, (q.2.settlePage ctx page size).modUnits fun u =>
    { u with peat := u.peat.filter fun p => 0x8000000000000 + p.1 * 65536 ≠ peat })

/-- R261, R262: the first move of a page that its queue has started, its expander intact, is complete: a TIN leaves the page in its
frame, a TOUT leaves it in the peat tier with TIER set in its leaf and gives its frame back to the pool, scrubbed when it leaves a
sealed context (R290); translations are dropped, the region has moved (R416) and the commands leave the queue, CP falling. -/
def PageMovesComplete : Prop :=
  (∀ ctx page t r, MemMoves (.tinComplete ctx page)
    (fun m f => f.moves ctx page = t :: r ∧ t.inward = true ∧ f.moveRuns ctx 0x351 page = true ∧
      f.units.failedAt (t.peatAt m) = false)
    fun m f =>
      let q := broughtIn m ((f.modUnits fun u => { u with transits := u.transits.erase t }).progress t.region) ctx page t.size
        t.leaf t.frame
      (q.1, q.2.endMoves ctx 0x351 page)) ∧
  ∀ ctx page t r, MemMoves (.toutComplete ctx page)
    (fun m f => f.moves ctx page = t :: r ∧ t.inward = false ∧ f.moveRuns ctx 0x352 page = true ∧
      f.units.failedAt (t.peatAt m) = false)
    fun m f =>
      let e := m.readNat t.leaf 8
      let frame := field e 51 16 * 65536
      let moved := (m.copy frame t.frame t.size).writeNat t.leaf 8 (retier e true t.frame)
      let q := (((f.modUnits fun u => { u with transits := u.transits.erase t }).modRegion t.region fun r =>
          { r with pool := r.pool ++ (List.range (t.size / 65536)).map fun i => granuleOf frame + i }).progress t.region).dropPage
        (if bitOf e 5 then moved.scrub frame t.size else moved) ctx page t.size
      (q.1, q.2.endMoves ctx 0x352 page)

end Sys2Proof.Claims

/-- R289, R294, R297, R48, R259: a walk that its die's walker has started, of a request, enters the translation of its first lane
without one in the core's cache, the counts of the entry that leaves going to the side table, or notes the fault there, and the
request goes on. A walk of a generator refills the entry of its stream, or parks it with the fault's code. A walk that is not among
the 16 that the walker has in flight stays asked for. What is the model's own choice or inference in it: log entry 18. -/
def Obligations.WalksComplete : Prop :=
  (∀ id r e i l t, MemMoves (.pageWalk (.req id))
    (fun m f =>
      let k := f.core r.who.core
      f.req id = some r ∧ f.issuer r = some e ∧ ((k.blockOf r.who e).bind fun b => b.instrAt r.slot) = some i ∧
        r.lanes.find? (fun l => l.pa.isNone && !l.bad) = some l ∧ k.dbg.frozen = false ∧ r.slot ∈ e.inflight ∧ l.early = none ∧
        k.cached k.contextId l.va = none ∧ f.walkStarted (dieOf r.who.core) (.req id) = true ∧
        translate m (f.context k.contextId) k.contextId l.va = .ok t)
    fun m f =>
      let q := (f.endWalk (dieOf r.who.core) (.req id)).enterTrans m r.who.core t
      (q.1, q.2.resumeReq r i e)) ∧
  (∀ id r e i l code, MemMoves (.pageWalk (.req id))
    (fun m f =>
      let k := f.core r.who.core
      f.req id = some r ∧ f.issuer r = some e ∧ ((k.blockOf r.who e).bind fun b => b.instrAt r.slot) = some i ∧
        r.lanes.find? (fun l => l.pa.isNone && !l.bad) = some l ∧ k.dbg.frozen = false ∧ r.slot ∈ e.inflight ∧ l.early = none ∧
        k.cached k.contextId l.va = none ∧ f.walkStarted (dieOf r.who.core) (.req id) = true ∧
        translate m (f.context k.contextId) k.contextId l.va = .error code)
    fun m f =>
      let r' := { r with lanes := r.lanes.map fun x => if x.idx = l.idx then { x with early := some (code, l.va, []) } else x }
      (m, ((f.endWalk (dieOf r.who.core) (.req id)).putReq r').resumeReq r' i e)) ∧
  (∀ id r e i l, Moves (.pageWalk (.req id))
    (fun f =>
      let k := f.core r.who.core
      f.req id = some r ∧ f.issuer r = some e ∧ ((k.blockOf r.who e).bind fun b => b.instrAt r.slot) = some i ∧
        r.lanes.find? (fun l => l.pa.isNone && !l.bad) = some l ∧ l.early = none ∧ k.cached k.contextId l.va = none ∧
        f.walkStarted (dieOf r.who.core) (.req id) = false)
    fun f => f) ∧
  (∀ c i q va t, MemMoves (.pageWalk (.gen c i))
    (fun m f =>
      let k := f.core c
      let y := k.gen i
      y.cur = some q ∧ k.nextLine { y with entry := none } q = some va ∧ k.genRuns y = true ∧
        y.entry.any (fun t => t.covers k.contextId va) = false ∧
        (f.askWalk (dieOf c) (.gen c i)).walkStarted (dieOf c) (.gen c i) = true ∧
        translate (f.flushAll m y.entry.toList) (f.context k.contextId) k.contextId va = .ok t)
    fun m f => (f.flushAll m ((f.core c).gen i).entry.toList,
      (f.endWalk (dieOf c) (.gen c i)).modCore c fun k => k.modGen i fun y => { y with entry := some t })) ∧
  (∀ c i q va, Moves (.pageWalk (.gen c i))
    (fun f =>
      let k := f.core c
      let y := k.gen i
      y.cur = some q ∧ k.nextLine { y with entry := none } q = some va ∧ k.genRuns y = true ∧
        y.entry.any (fun t => t.covers k.contextId va) = false ∧
        (f.askWalk (dieOf c) (.gen c i)).walkStarted (dieOf c) (.gen c i) = false)
    fun f => f.askWalk (dieOf c) (.gen c i)) ∧
  ∀ c i q va code, MemMoves (.pageWalk (.gen c i))
    (fun m f =>
      let k := f.core c
      let y := k.gen i
      y.cur = some q ∧ k.nextLine { y with entry := none } q = some va ∧ k.genRuns y = true ∧
        y.entry.any (fun t => t.covers k.contextId va) = false ∧
        (f.askWalk (dieOf c) (.gen c i)).walkStarted (dieOf c) (.gen c i) = true ∧
        translate (f.flushAll m y.entry.toList) (f.context k.contextId) k.contextId va = .error code)
    fun m f => (f.flushAll m ((f.core c).gen i).entry.toList,
      ((f.endWalk (dieOf c) (.gen c i)).modCore c fun k => k.modGen i fun y => { y with entry := none }).parkGen c i q code va
        (va / 65536 * 65536))

namespace Sys2Proof.Claims

/-- R261, R297, R298, R299, R399: the Kiln pages a missed page in with frames of its region's pool; a free tier entry lets the miss
that waited longest retry; the Kiln corrects a fault's mapping and lets its source go on, or passes the fault on as a trap; the
counts of a cached entry go to the side table and are zero. -/
def KilnActs : Prop :=
  (∀ ctx page q t g, MemMoves (.kilnPageIn ctx page)
    (fun m f => f.cores.find? (fun q => q.2.contextId = ctx && q.2.misses.any fun m => m.page = page && !m.delegated) = some q ∧
      translate m (f.context ctx) ctx page = .ok t ∧ bitOf t.attr 4 = true ∧ f.inTransit ctx page = false ∧
      f.units.failedAt t.pa = false ∧ poolRun (f.region q.2.regionId).pool (t.size / 65536) = some g)
    fun m f => broughtIn m
      (f.modRegion q.2.regionId fun r => { r with pool := r.pool.filter fun y => !(g ≤ y && y < g + t.size / 65536) })
      ctx t.va t.size t.leaf (g * 65536)) ∧
  (∀ c m r, Moves (.tierEntryFree c)
    (fun f => (f.core c).missWait = m :: r ∧ (f.core c).misses.length < 32 ∧ (f.core c).dbg.frozen = false)
    fun f => f.modCore c fun k => m.srcs.foldl Core.retry { k with missWait := r }) ∧
  (∀ c x r l p leaf, MemMoves (.kilnFaultResolve c true leaf)
    (fun m f => (f.core c).faults = x :: r ∧ walkEnd m x.trap.addr 4 (f.context (f.core c).contextId).root = some (l, p))
    fun m f =>
      let w := (f.modCore c fun k => { k with faults := r }).mapFrame m (f.core c).contextId l p leaf.toNat
      let q := w.2.dropPage w.1 (f.core c).contextId (x.trap.addr / pageBytes l * pageBytes l) (pageBytes l)
      (q.1, q.2.modCore c fun k => k.faultEnd x)) ∧
  (∀ c x r leaf, Moves (.kilnFaultResolve c false leaf)
    (fun f => (f.core c).faults = x :: r ∧ x.push = false ∧ (x.gen.isSome = true ∨ x.actor.isSome = true))
    fun f => (f.modCore c fun k => { k with faults := r }).postTrap c x.trap) ∧
  (∀ c n t, MemMoves (.sideCounterFlush c n) (fun _ f => n < 64 ∧ (f.core c).tlb[n]? = some t)
    fun m f => (m.addCounts (f.context t.ctx) t,
      f.modCore c fun k => { k with tlb := k.tlb.set n { t with reads := 0, writes := 0, remote := 0 } })) ∧
  ∀ c n t, MemMoves (.sideCounterFlush c n) (fun _ f => 64 ≤ n ∧ ((f.core c).gen (n - 64)).entry = some t)
    fun m f => (m.addCounts (f.context t.ctx) t,
      f.modCore c fun k => k.modGen (n - 64) fun y => { y with entry := some { t with reads := 0, writes := 0, remote := 0 } })

end Sys2Proof.Claims

/-- Pages move between the tiers, and the Kiln resolves faults and misses. What is the model's own choice or inference in it: log
entries 14, 29, 44. -/
def Obligations.PagesMove : Prop :=
  PageMovesComplete ∧ KilnActs

namespace Sys2Proof.Claims

/-- The NRED rows that a connection has brought and that are still being applied. -/
def arrivingRows (f : Fabric) (ctx conn : Nat) : List RowIn :=
  match sfind (f.context ctx).conns conn with | some x => x.rowsIn | none => []

/-- Memory and the fabric with the next element of an arriving NRED row applied as one atomic of its slice; with the last element the
row is acknowledged (R266, R438). -/
def elementApplied (m : Memory) (f : Fabric) (ctx conn : Nat) (x : RowIn) (t : Trans) : Memory × Fabric :=
  let w := tyBytes x.ty
  let last := decide (x.n ≤ x.next + 1)
  let rest (l : List RowIn) : List RowIn := if last then l.erase x else l.map fun z => if z = x then { x with next := x.next + 1 } else z
  let q := (f.modConn ctx conn fun y => { y with rowsIn := rest y.rowsIn }).performArrival m ctx t
    { conn := conn, seq := x.seq, va := x.va + x.next * w, n := w, op := redOp x.op x.ty, ty := x.ty,
      data := elem (8 * w) x.row x.next, cmp := 0, before := 0 }
  (q.1, if last then q.2.answer ctx conn { op := .done, va := x.va, row := 0, n := 0 } else q.2)

/-- R300, R382, R386, R266, R297, R438: an arrival that need not wait and that its mapping admits is numbered, counted in the side
table, meets the watchpoints, is performed on its bytes (a write, an atomic of Table 6-10, or the elements of an NRED row in
ascending address, each an atomic of the slice) and answered; a read's answer carries the bytes, an atomic's the old value, and
bytes with the ember bit are not sent (R404). -/
def ArrivalsComplete : Prop :=
  (∀ ctx conn va bytes t, bytes ≠ [] → va % 64 + bytes.length ≤ 64 → MemMoves (.networkWriteArrival ctx conn va bytes)
    (fun m f => Admitted m f ctx conn va true false t)
    fun m f =>
      let q := (f.numberArrival ctx conn va).performArrival (f.remoteCount m ctx t) ctx t
        { conn := conn, seq := f.rseqOf ctx conn, va := va, n := bytes.length, op := 0, ty := 15, data := bytesNat bytes, cmp := 0,
          before := 0 }
      (q.1, q.2.answer ctx conn { op := .done, va := va, row := 0, n := 0 })) ∧
  (∀ ctx conn va n t, n ≠ 0 → va % 64 + n ≤ 64 → MemMoves (.networkReadArrival ctx conn va n)
    (fun m f => Admitted m f ctx conn va false false t)
    fun m f =>
      let g := (f.regionsOf ctx).foldl Fabric.progress
        ((f.numberArrival ctx conn va).remoteMatch ctx conn 0 (t.phys va) ((List.range n).map (va + ·)) (f.rseqOf ctx conn))
      (f.remoteCount m ctx t,
        if (f.remoteCount m ctx t).marked (t.phys va) n then g
        else g.answer ctx conn { op := .done, va := va, row := ofBytes ((f.remoteCount m ctx t).read (t.phys va) n), n := n })) ∧
  (∀ ctx conn va op ty b c t, remoteOp op.toNat ty = true → va % tyBytes ty = 0 →
    MemMoves (.networkAtomicArrival ctx conn va op ty b c)
    (fun m f => Admitted m f ctx conn va true true t)
    fun m f =>
      let w := tyBytes ty
      let q := (f.numberArrival ctx conn va).performArrival (f.remoteCount m ctx t) ctx t
        { conn := conn, seq := f.rseqOf ctx conn, va := va, n := w, op := op.toNat, ty := ty, data := b.toNat % 2 ^ (8 * w),
          cmp := c.toNat % 2 ^ (8 * w), before := 0 }
      (q.1, if (f.remoteCount m ctx t).marked (t.phys va) w then q.2 else q.2.answer ctx conn
        { op := .done, va := va, row := BitVec.ofNat 512 ((f.remoteCount m ctx t).readNat (t.phys va) w), n := w, ty := ty })) ∧
  (∀ ctx conn va op ty n row t, n ≠ 0 → n * tyBytes ty ≤ 64 → va % 64 = 0 → (ty = 4 ∨ ty = 5 ∨ ty = 14) → op.toNat ≤ 2 →
    (op.toNat = 2 → ty ≠ 14) → MemMoves (.nredRowArrival ctx conn va op ty n row)
    (fun m f => Admitted m f ctx conn va true true t ∧ (arrivingRows f ctx conn).find?
      (fun x => x.va = va && x.op = op.toNat && x.ty = ty && x.n = n && x.row = row) = none)
    fun m f =>
      let x : RowIn := { va := va, op := op.toNat, ty := ty, n := n, row := row, seq := f.rseqOf ctx conn }
      elementApplied (f.remoteCount m ctx t)
        ((f.numberArrival ctx conn va).modConn ctx conn fun y => { y with rowsIn := y.rowsIn ++ [x] }) ctx conn x t) ∧
  ∀ ctx conn va op ty n row t x, MemMoves (.nredRowArrival ctx conn va op ty n row)
    (fun m f => (arrivingRows f ctx conn).find? (fun x => x.va = va && x.op = op.toNat && x.ty = ty && x.n = n &&
      x.row = row) = some x ∧
      f.arrive m ctx va true true = .ok t ∧ f.lineHeld (lineOf (t.phys va)) = false ∧
      f.seqHeld ctx conn (sliceOf (lineOf (t.phys va))) x.seq = false ∧
      ∀ r ∈ f.regionsOf ctx, (f.region r).replay = [] ∧ (f.region r).redo = [])
    fun m f => elementApplied m f ctx conn x t

/-- R300, R263: an arrival whose mapping does not let it in is answered with the refusal, and memory is unchanged. -/
def ArrivalsRefused : Prop :=
  ∀ s ctx conn va b code, va < 2 ^ 56 → s.fab.mustWait s.mem ctx conn va = false →
    s.fab.arrive s.mem ctx va true false = .error code → 
    exec (.networkWriteArrival ctx conn va [b]) s = .next (s.onFabric fun f => f.refuseArrival ctx conn va code)

end Sys2Proof.Claims

/-- Writes, reads, atomics and NRED rows that arrive are performed once, or refused. What is the model's own choice or inference in
it: log entry 38. -/
def Obligations.NetworkArrivalsServed : Prop :=
  ArrivalsComplete ∧ ArrivalsRefused

namespace Sys2Proof.Claims

/-- R442, R444: the next row enters a command window that has room, on a connection of the context (of context 0, with the
administrator's proof once a key is enrolled); a record on its way fills the completion window once that has room; a shrink of n
rows up to F drops the oldest n, and a larger one changes nothing. -/
def WindowsServe : Prop :=
  (∀ ctx row, Moves (.commandWindowWrite ctx row true)
    (fun f => f.units.serves = true ∧ f.isOpen ctx = true ∧ (ctx = 0 → f.units.admin = none ∨ f.units.adminOpen = true) ∧
      (f.context ctx).cmd.length < (f.context ctx).cmdCap)
    fun f => f.modContext ctx fun x => { x with cmd := x.cmd ++ [row] }) ∧
  (∀ ctx row, Moves (.commandWindowWrite ctx row true)
    (fun f => (f.context ctx).cmdCap ≤ (f.context ctx).cmd.length) fun f => f) ∧
  (∀ ctx r rest, Moves (.completionRecordFill ctx)
    (fun f => f.isOpen ctx = true ∧ (f.context ctx).cplHeld = r :: rest ∧ (f.context ctx).cpl.length < (f.context ctx).cplCap)
    fun f => f.modContext ctx fun x => { x with cpl := x.cpl ++ [r], cplHeld := rest }) ∧
  (∀ ctx n, Moves (.completionShrink ctx n) (fun f => f.isOpen ctx = true ∧ n ≤ (f.context ctx).cpl.length)
    fun f => f.modContext ctx fun x => { x with cpl := x.cpl.drop n }) ∧
  ∀ ctx n, Moves (.completionShrink ctx n)
    (fun f => f.isOpen ctx = true ∧ (f.context ctx).cpl.length < n)
    fun f => f.modContext ctx fun x => x

/-- The Kiln may take up the message at the head of a tenant context's window: it serves, and no record of the context is held. -/
def Takes (f : Fabric) (ctx : Nat) (row : Row) (rest : List Row) (holding : Bool) : Prop :=
  f.mayLaunch ctx = true ∧ (f.context ctx).cmd = row :: rest ∧ (f.context ctx).holding = holding

/-- An accepted launch of image `img` by message `m`, its copy at granule `place`, its frame pool the granules `pool` and its routes
on `paths`, the units' frames with both in use being `taken` (R301, R305, R306, R343): the image is copied, the region made, a bind
record written for each group by ascending group index into the free slots, the measurement of a sealed context kept, and the record
of KIND 1 goes out. -/
def launched (mem : Memory) (f : Fabric) (taken : Units) (ctx m : Nat) (img : List Byte) (place : Nat) (pool : List Nat)
    (paths : List RoutePath) : Memory × Fabric :=
  let dir := byGroup (imageDir img)
  let recs := (f.units.freeRecords.take dir.length).zip (dir.map (bindRecord ctx (place * 65536) (field m 363 352)))
  let q := ({ f with units := taken }.measure ctx img).fresh
  (mem.write (place * 65536) img,
   (q.2.modUnits fun u => { u with
      regions := sset u.regions q.1 (regionOf ctx m (place * 65536) pool paths)
      table := recs.foldl (fun t p => sset t p.1 p.2) u.table }).answerLaunch ctx m 1 { code := 0 })

/-- The event that takes up a launch: LAUNCH for a fresh message, LAUNCH_RETAKE for one left for want of slot records. -/
def TakesUp (i : Instr) (again : Bool) (ctx place : Nat) (pool : List Nat) (layout : Option (List RoutePath)) : Prop :=
  i = if again then .launchRetake ctx place pool layout else .launch ctx place pool layout

/-- R301, R302, R343: LAUNCH (and LAUNCH_RETAKE of a message left unread) takes up the message at the head of the window. One whose
checks pass, with slot records for its groups, free granules for its copy and each of its pool's, and paths that lay every route, is
accepted; without slot records it is left in the window; one that fails a check, or for whose routes the Kiln finds no paths, is
shrunk from the window and answered by a record of KIND 2 with the check's code. -/
def LaunchesComplete : Prop :=
  ∀ i again ctx place pool layout row rest, TakesUp i again ctx place pool layout →
    (∀ img taken, MemMoves i
      (fun m f => Takes f ctx row rest again ∧ f.checkImage m ctx row.toNat = .ok img ∧
        f.units.checkLaunch row.toNat img layout.isSome = .ok () ∧ (imageDir img).length ≤ f.units.freeRecords.length ∧
        f.units.freeAt place (granules img.length) = true ∧ pool.length = field row.toNat 287 272 ∧
        (f.units.take place (granules img.length)).takeEach pool = some taken ∧ f.laysAll img (layout.getD []) = true)
      fun m f => launched m f taken ctx row.toNat img place pool (layout.getD [])) ∧
    (∀ img, MemMoves i
      (fun m f => Takes f ctx row rest again ∧ f.checkImage m ctx row.toNat = .ok img ∧
        f.units.checkLaunch row.toNat img layout.isSome = .ok () ∧ f.units.freeRecords.length < (imageDir img).length)
      fun m f => (m, f.modContext ctx fun x => { x with holding := true })) ∧
    (∀ r, MemMoves i
      (fun m f => Takes f ctx row rest again ∧ f.checkImage m ctx row.toNat = .error r)
      fun m f => (m, f.answerLaunch ctx row.toNat 2 r)) ∧
    ∀ img r, MemMoves i
      (fun m f => Takes f ctx row rest again ∧ f.checkImage m ctx row.toNat = .ok img ∧
        f.units.checkLaunch row.toNat img layout.isSome = .error r)
      fun m f => (m, (f.measure ctx img).answerLaunch ctx row.toNat 2 r)

end Sys2Proof.Claims

/-- Command windows take rows, launches are accepted, left or refused. What is the model's own choice or inference in it: log entries
49, 71. -/
def Obligations.HostWindowsAndLaunches : Prop :=
  WindowsServe ∧ LaunchesComplete

namespace Sys2Proof.Claims

/-- R306, R308, R309, R311: while no reroute pauses the module, DISPATCH_BATCH moves a die's ready records into its queue up to the
free count, those of no gang losing V; GROUP_BIND gives the oldest queued group that some core may take to that core: the
declaration block of a new one begins, and one with a saved image has that image's plane at once. -/
def DispatchAndBind : Prop :=
  (∀ die, Moves (.dispatchBatch die) (fun f => f.units.paused = false) fun f => f.dispatch die) ∧
  (∀ die r c reg g, MemMoves (.groupBind die)
    (fun m f => f.units.paused = false ∧
      (sget [] f.units.queues die).findSome? (fun r => (f.coreFor r).map fun c => (r, c)) = some (r, c) ∧
      f.units.regionOf r = some reg ∧ groupOf m r reg = some g ∧ f.savedImage reg g.group = none)
    fun m f => (m,
      (f.modUnits fun u => { u with queues := sset u.queues die ((sget [] f.units.queues die).erase r) }).beginFill c g)) ∧
  ∀ die r c reg g img, MemMoves (.groupBind die)
    (fun m f => f.units.paused = false ∧
      (sget [] f.units.queues die).findSome? (fun r => (f.coreFor r).map fun c => (r, c)) = some (r, c) ∧
      f.units.regionOf r = some reg ∧ groupOf m r reg = some g ∧ f.savedImage reg g.group = some img)
    fun m f => (m,
      (f.modUnits fun u => { u with queues := sset u.queues die ((sget [] f.units.queues die).erase r) }).modCore c fun k =>
        { k with kindling := .bind, kplane := img.plane, incoming := some { g with filled := true, restored := true } })

/-- A core whose group is complete: its sequencer halted, its plane drained, no actor ready, nothing that it sent outstanding and no
marker in it (R314). -/
structure Completes (f : Fabric) (c : Nat) (g : Group) : Prop where
  lit : (f.core c).group = some g
  halted : (f.core c).seq.phase = .halted
  drained : (f.core c).drained = true
  settled : ∀ a ∈ skeys (f.core c).plane.actors, (f.core c).ready a = false
  goes : (f.core c).dbg.frozen = false
  answered : f.inFlight c = false
  credited : (f.core c).credits = 256
  unmarked : (f.core c).saving = false

/-- Whether a slot holds the ganged record of a group. -/
def ofGang (g : Group) (q : Nat × BitVec 128) : Bool :=
  recV q.2.toNat && recGang q.2.toNat ≠ 0 && recImage q.2.toNat = recImage g.record && recGroup q.2.toNat = g.group

/-- R312, R323, R225, R314, R315, R322, R324: a filled BIND plane lights on a core without a group, from its image if it is saved; a
CSWAP lights the PROGRAM plane of a drained core and completes its slot; a group whose sequencer has halted and whose core is quiet
leaves its core, V of a ganged record falling and the core then waiting for its gang's next instant; a ganged plane lights only in
its slice's turn; a region with nothing left ends with a record of KIND 4, and one whose BIND plane was refused with code 0x86. -/
def GroupsComeAndGo : Prop :=
  (∀ c g, Moves (.bindPlaneLight c)
    (fun f => (f.core c).incoming = some g ∧ g.filled = true ∧ g.refused = false ∧ (f.core c).group = none ∧
      (f.core c).kindling = .bind ∧ (f.region g.region).acts = true ∧ (f.core c).gangHold = none ∧
      (g.gang ≠ 0 → (f.region g.region).turn = some g.slice) ∧ g.restored = false)
    fun f => (f.modRegion g.region fun r =>
        { r with cores := (r.cores.filter fun p => p.2 ≠ g.group) ++ [(c, g.group)], idle := 0 }).modCore c
      fun k => k.lightNew { g with filled := false }) ∧
  (∀ c g img, Moves (.bindPlaneLight c)
    (fun f => (f.core c).incoming = some g ∧ g.filled = true ∧ g.refused = false ∧ (f.core c).group = none ∧
      (f.core c).kindling = .bind ∧ (f.region g.region).acts = true ∧ (f.core c).gangHold = none ∧
      (g.gang ≠ 0 → (f.region g.region).turn = some g.slice) ∧ g.restored = true ∧ sfind (f.region g.region).images g.group = some img)
    fun f => ((f.modRegion g.region fun r =>
        { r with cores := (r.cores.filter fun p => p.2 ≠ g.group) ++ [(c, g.group)], idle := 0 }).modRegion g.region fun r =>
        { r with images := sdel r.images g.group }).modCore c fun k => k.lightSaved { g with filled := false } img) ∧
  (∀ c e slot, Moves (.cswapLighting c)
    (fun f => (f.core c).exec (.seq c) = some e ∧ e.waits.find? (fun w => w.2 = .drain) = some (slot, .drain) ∧
      (f.core c).dbg.frozen = false ∧ (∀ w ∈ e.waits, w.2 ≠ .queue) ∧ (f.core c).kindling = .program ∧
      (f.core c).noFiring = true ∧ (f.core c).drained = true)
    fun f => (f.modRegion (f.core c).regionId fun r => { r with idle := 0 }).modCore c fun k =>
      k.lightProgram.modExec (.seq c) fun e => e.mark slot fNone) ∧
  (∀ c g, MemMoves (.groupComplete c)
    (fun _ f => Completes f c g ∧ f.units.table.find? (ofGang g) = none)
    fun m f => (f.flushAll m ((f.core c).entries fun _ => true),
      f.modCore c fun k => { k.idle with gangHold := if g.gang = 0 then none else some g.gang })) ∧
  (∀ c g q, MemMoves (.groupComplete c)
    (fun _ f => Completes f c g ∧ f.units.table.find? (ofGang g) = some q)
    fun m f => (f.flushAll m ((f.core c).entries fun _ => true),
      (f.modUnits fun u => { u with table := sset u.table q.1 (BitVec.ofNat 128 (q.2.toNat - 1)) }).modCore c fun k =>
        { k.idle with gangHold := if g.gang = 0 then none else some g.gang })) ∧
  (∀ reg, MemMoves (.regionEnd reg)
    (fun _ f => shas f.units.regions reg = true ∧ f.unitsSettled reg = true ∧ f.regionDone reg = true)
    fun m f => f.endRegion m reg 0) ∧
  ∀ reg, MemMoves (.regionEnd reg)
    (fun _ f => shas f.units.regions reg = true ∧ f.unitsSettled reg = true ∧
      ∃ q ∈ f.cores, ∃ g, q.2.incoming = some g ∧ g.region = reg ∧ g.refused = true)
    fun m f => f.endRegion m reg 0x86

/-- The fabric after the members of a gang in a list miss instant `n`: each is counted, and its host told (R321). -/
def missed (f : Fabric) (gang n : Nat) (l : List Nat) : Fabric := l.foldl (fun f r => f.missInstant gang n r) f

/-- A member of a gang judged before an instant of slice `slice` (R321): ready when every incoming group stands filled, no reroute
pausing the module; a member that is not has missed it, and one without incoming groups is not judged. `f` is the fabric before the
judgement. -/
def judged (f : Fabric) (gang n slice : Nat) (g : Fabric) (reg : Nat) : Fabric :=
  if f.incomingOf reg slice = [] then g.modRegion reg fun r => { r with ready := false }
  else if (f.incomingOf reg slice).all (f.boundFilled reg) && !f.units.paused then g.modRegion reg fun r => { r with ready := true }
  else g.missInstant gang n reg

/-- A gang's turn taken at the instant judged (R321, R322): its entry, the count kept with the judgement, and the slice due. -/
structure TurnDue (f : Fabric) (gang n slice : Nat) : Prop where
  valid : bitOf (sget 0 f.units.gangs gang).toNat 0 = true
  judged : sget 0 f.units.judged gang = n + 1
  fresh : sget 0 f.units.switched gang ≠ n + 1
  instant : gangInstant (sget 0 f.units.gangs gang).toNat n ≤ ptpNanos f.units.ptp
  slice : n % field (sget 0 f.units.gangs gang).toNat 15 8 = slice

/-- The members of a gang that were judged ready. -/
def readyMembers (f : Fabric) (gang : Nat) : List Nat := (f.units.regions.filter fun q => q.2.gang = gang && q.2.ready).map Prod.fst

/-- The fabric with a gang's turn noted as taken and the cores that its completed groups left idle free again (R324). -/
def turnNoted (f : Fabric) (gang n : Nat) : Fabric :=
  { f with
    units := { f.units with switched := sset f.units.switched gang (n + 1) }
    cores := f.cores.map fun (q : Nat × Core) => if q.2.gangHold = some gang then (q.1, { q.2 with gangHold := none }) else q }

/-- R307, R321, R322, R324, R355: a ganged record within LEAD of its slice's turn is ready; within 2 µs before an instant not yet
judged every member is judged; at the instant judged the turn of each ready member comes, once, and markers enter the regions that
run where its groups are bound; in a reroute's pause the ready members miss it. -/
def GangsTurn : Prop :=
  (∀ i, Moves (.gangRecordReady i)
    (fun f => recV (f.units.record i) = true ∧ recGang (f.units.record i) ≠ 0 ∧ f.units.due (f.units.record i) = true ∧
      f.placed (f.units.record i) = false ∧ i ∉ f.units.readyRec)
    fun f => f.modUnits fun u => { u with readyRec := u.readyRec ++ [i] }) ∧
  (∀ gang n e, gang ≠ 0 → bitOf e 0 = true → Moves (.gangReadinessCheck gang)
    (fun f => (sget 0 f.units.gangs gang).toNat = e ∧ gangNext e (ptpNanos f.units.ptp) = n ∧
      gangInstant e n ≤ ptpNanos f.units.ptp + 2000 ∧ sget 0 f.units.judged gang ≠ n + 1)
    fun f => ((f.units.regions.filter fun q => q.2.gang = gang).map Prod.fst).foldl (judged f gang n (n % field e 15 8))
      (f.modUnits fun u => { u with judged := sset u.judged gang (n + 1) })) ∧
  (∀ gang n slice, Moves (.gangSwitch gang)
    (fun f => TurnDue f gang n slice ∧ f.units.paused = true)
    fun f => missed (turnNoted f gang n) gang n (readyMembers f gang)) ∧
  ∀ gang n slice, Moves (.gangSwitch gang)
    (fun f => TurnDue f gang n slice ∧ f.units.paused = false)
    fun f =>
      let ready := readyMembers f gang
      let now := ptpNanos f.units.ptp
      let g := turnNoted f gang n
      let out := g.cores.filterMap fun q => q.2.outgoing gang ready
      let turn (q : Nat × Region) : Nat × Region :=
        if ready.contains q.1 then (q.1, { q.2 with ready := false, turn := some slice, drain := now, overran := [] })
        else if out.contains q.1 then (q.1, { q.2 with turn := none, drain := now, overran := [] })
        else q
      let mine := (g.cores.filter fun q => q.2.goesOut gang slice (out ++ ready) ready).map Prod.fst
      let h : Fabric :=
        { cores := g.cores.map fun q => if mine.contains q.1 then (q.1, { q.2 with marking := true }) else q
          units := { g.units with regions := g.units.regions.map turn } }
      (mine.filter fun c => h.markersIn c 8).foldl Fabric.beginSave h

end Sys2Proof.Claims

/-- Groups are dispatched, bound, lit and completed; gangs turn at their instants. What is the model's own choice or inference in it:
log entries 50, 51, 52, 69. -/
def Obligations.GroupsAndGangsMove : Prop :=
  DispatchAndBind ∧ GroupsComeAndGo ∧ GangsTurn

namespace Sys2Proof.Claims

/-- R28, R313, R322, R323, R347: a core that markers have come to on every input begins its save; then a marker meets the firings of a
PE; the sequencer's marker, with everything in flight settled and no BIND plane half filled, saves the core: its image stands under
its group in the region, its requests are forgotten and the core is idle. A half filled BIND plane is filled again from the start. A
drain that overruns is told to the host. -/
def PreemptionSaves : Prop :=
  (∀ c el, el ≠ 256 → Moves (.preemptionMarker c el)
    (fun f => (f.core c).saving = false ∧ (f.core c).marking = true ∧ (f.core c).dbg.frozen = false ∧ f.markersIn c 8 = true)
    fun f => f.beginSave c) ∧
  (∀ c el, Moves (.preemptionMarker c el)
    (fun f => (f.core c).saving = true ∧ (f.core c).dbg.frozen = false ∧ el < 256)
    fun f => f.modCore c fun k => k.markPe el) ∧
  (∀ c g, MemMoves (.preemptionMarker c 256)
    (fun _ f => (f.core c).saving = true ∧ (f.core c).dbg.frozen = false ∧ (f.core c).group = some g ∧
      (f.noteOverrun c).settled c = true ∧ ∀ h, (f.core c).incoming = some h → h.filled = true ∨ h.refused = true)
    fun m f => ((f.noteOverrun c).flushAll m ((f.core c).entries fun _ => true),
      ((((f.noteOverrun c).modUnits fun u => { u with reqs := u.reqs.filter fun r => r.who.core ≠ c }).modRegion g.region fun r =>
        { r with images := sset r.images g.group (f.core c).image }).modCore c fun k => { k.idle with mx := {} }).pruneHome)) ∧
  (∀ c g, Moves (.preemptionMarker c 256)
    (fun f => (f.core c).saving = true ∧ (f.core c).dbg.frozen = false ∧ (f.core c).incoming = some g ∧ g.filled = false ∧
      g.refused = false)
    fun f => (f.noteOverrun c).beginFill c g) ∧
  ∀ c, Moves (.preemptionMarker c 256)
    (fun f => (f.core c).saving = true ∧ (f.core c).dbg.frozen = false ∧
      (∀ h, (f.core c).incoming = some h → h.filled = true ∨ h.refused = true) ∧ (f.noteOverrun c).settled c = false ∧
      (f.core c).eng.net ≠ [] ∧ (f.region (f.core c).regionId).overran.contains c = false ∧
      (f.region (f.core c).regionId).drain + 60000 < ptpNanos f.units.ptp)
    fun f => (f.modRegion (f.core c).regionId fun r => { r with overran := r.overran ++ [c] }).modContext
      (f.region (f.core c).regionId).context fun x =>
        { x with notices := x.notices ++ [.overrun (f.region (f.core c).regionId).tag c] }

/-- R409, R410, R411, R413, R344: a core whose inputs have all brought the marker and whose elements let it pass is saved for the cut,
sends it on and its RETIRED starts again; the timer
and a half full undo log begin a cut; a cut whose lit cores have all passed, whose markers have all arrived and whose units are
performed is complete, and the logs of the interval before it are released; a full log leaves the interval unrecoverable. -/
def CutsComplete : Prop :=
  (∀ c, Moves (.snapshotMarker c)
    (fun f => (f.core c).group.isSome = true ∧ (f.region (f.core c).regionId).cutting = true ∧ (f.core c).cutDone = false ∧
      f.markersIn c 9 = true ∧ f.passable c = true)
    fun f =>
      let img := (f.core c).image
      (Fabric.passMarker (f.modRegion (f.core c).regionId fun r =>
        { r with fresh := sset r.fresh c { img with dbg := { img.dbg with retired := 0 } }, commits := r.commits ++ [(c, 2048)] }) c 9).modCore
        c fun k => { k with cutDone := true, dbg := { k.dbg with retired := 0 } }) ∧
  (∀ reg, Moves (.snapshotTimer reg)
    (fun f => (f.region reg).snap ≠ 0 ∧ 2 ^ (f.region reg).snap ≤ (f.region reg).snapAge ∧ (f.region reg).acts = true)
    fun f => (f.modRegion reg fun r => { r with snapAge := 0 }).beginCut reg) ∧
  (∀ reg, Moves (.undoLogHalf reg)
    (fun f => (f.region reg).undo ≠ [] ∧ (f.region reg).half = false ∧ (f.region reg).acts = true)
    fun f => (f.modRegion reg fun r => { r with half := true }).beginCut reg) ∧
  (∀ reg, Moves (.undoLogFull reg)
    (fun f => (f.region reg).full = false ∧ ((f.region reg).half = true ∨ (f.region reg).inputs ≠ [] ∨
      (f.region reg).rowsIn ≠ [] ∨ (f.region reg).commits ≠ []))
    fun f => f.modRegion reg fun r => { r with full := true }) ∧
  ∀ reg, Moves (.cutComplete reg)
    (fun f => (f.region reg).cutting = true ∧ (f.region reg).rollback = false ∧ f.unitsSettled reg = true ∧
      ∀ q ∈ f.cores, q.2.group.isSome = true → q.2.regionId = reg → q.2.cutDone = true ∧ f.markerOut q.1 = false)
    fun f =>
      let g := f.modRegion reg fun r =>
        { r with
          cutting := false, complete := true, half := false, full := false, interval := r.interval + 1
          saved := r.fresh, savedImages := r.images, fresh := []
          undo := [], lines := [], inputs := [], rowsIn := [], commits := newCommits r.commits }
      { cores := f.cores.map (fun q =>
          (q.1, if q.2.group.isSome && q.2.regionId = reg then { q.2 with cutDone := false } else q.2)), units := g.units }

end Sys2Proof.Claims

/-- A preempted core is saved; a snapshot cut passes and completes. What is the model's own choice or inference in it: log entries 31,
55, 69, 71. -/
def Obligations.PreemptionAndCuts : Prop :=
  PreemptionSaves ∧ CutsComplete

namespace Sys2Proof.Claims

/-- R412, R413: a rollback of a region that acts, its last cut complete and no log full, restores the cut; an impossible one stops
the region with an uncorrected record. -/
def RollbackRestores : Prop :=
  (∀ reg, MemMoves (.regionRollback reg)
    (fun _ f => (f.region reg).rollback = true ∧ (f.region reg).acts = true ∧ (f.region reg).complete = true ∧
      (f.region reg).full = false)
    fun m f => f.rollback m reg) ∧
  ∀ reg, Moves (.regionRollback reg)
    (fun f => (f.region reg).rollback = true ∧ (f.region reg).acts = true ∧
      ((f.region reg).complete = false ∨ (f.region reg).full = true))
    fun f => (f.modRegion reg fun r => { r with rollback := false }).stopRecorded reg

/-- R400, R431, R432, R272: a region with a stop pending stops: its cores freeze and a stop record is on its way; a core of a region
that does not act freezes, and its clocks are gated once it has; a core whose RETIRED has reached the armed stop freezes with
its region. -/
def StopsFreeze : Prop :=
  (∀ s reg c t, (s.fab.region reg).stop = some (c, t) → (s.fab.region reg).stopped = false →
    exec (.regionStop reg) s = .next { s with
      fab := ((s.fab.modRegion reg fun r => { r with stopped := true }).freezeCores reg).complete (s.fab.region reg).context
        (s.fab.stopRow reg c t (freeFrom s.run.free))
      run := { s.run with free := s.run.free + 6 } }) ∧
  (∀ c, Moves (.coreFreeze c)
    (fun f => (f.core c).dbg.frozen = false ∧ (f.core c).group.isSome = true ∧ (f.region (f.core c).regionId).acts = false)
    fun f => f.modCore c fun k => { k with dbg := { k.dbg with frozen := true } }) ∧
  (∀ c, Moves (.coreFreeze c) (fun f => (f.core c).dbg.frozen = true)
    fun f => f.modCore c fun k => { k with dbg := { k.dbg with gating := true } }) ∧
  ∀ c n, Moves (.rwcStop c)
    (fun f => (f.core c).dbg.stop = some n ∧ n ≤ (f.core c).dbg.retired ∧ (f.core c).dbg.frozen = false ∧
      (f.core c).group.isSome = true ∧
      (f.region (f.core c).regionId).rollback = false)
    fun f => (f.modRegion (f.core c).regionId fun r => { r with frozen := true }).modCore c fun k =>
      { k with dbg := { k.dbg with frozen := true, stop := none } }

/-- R405, R406, R407, R348, R416, R418, R420, R423: the next record on its way enters its bank, and the Kiln frees an entry that it
has consumed; once a cut has completed a lasting core goes on at a spare site of its die, to which the paths of its routes move; a
region whose detector has counted out without being idle is walked; a walk that finds a cycle is a deadlock, and a new longest chain
is reported. -/
def RecoveryActs : Prop :=
  (∀ die e r, Moves (.errorRecordWrite die .coming)
    (fun f => (sget {} f.units.banks die).coming = e :: r)
    fun f => f.modUnits fun u => { u with banks := sset u.banks die (({ (sget {} u.banks die : Bank) with coming := r } : Bank).enter e) }) ∧
  (∀ die i, Moves (.errorRecordWrite die (.consumed i))
    (fun f => i < 16 ∧ shas (sget {} f.units.banks die).entries i = true)
    fun f => f.modUnits fun u =>
      let b : Bank := sget {} u.banks die
      { u with banks := sset u.banks die { b with
        entries := sset b.entries i (BitVec.ofNat 256 ((sget 0 b.entries i).toNat &&& (2 ^ 256 - 1 - 2 ^ 63))) } }) ∧
  (∀ c site n g paths now, Moves (.coreRetire c ⟨site, paths⟩)
    (fun f => (sget {} f.units.banks (dieOf c)).lasting.find? (fun p => p.1 = c) = some (c, n) ∧ site ∈ f.spares (dieOf c) ∧
      (f.core c).group = some g ∧ n < (f.region (f.core c).regionId).interval ∧
      f.units.movePaths (f.core c).regionId (f.coreAt c) (dieOf c * 162 + site) paths = some now)
    fun f =>
      let b : Bank := sget {} f.units.banks (dieOf c)
      let b : Bank := { b with lasting := b.lasting.filter fun p => p.1 ≠ c, gone := b.gone ++ [f.site c] }
      ((f.modUnits fun u => { u with banks := sset u.banks (dieOf c) b }).modRegion (f.core c).regionId fun r =>
        { r with sites := r.sites ++ [dieOf c * 256 + f.site c], paths := now }).modCore c fun k => { k with site := some site }) ∧
  (∀ reg, Moves (.deadlockDetectorExpiry reg)
    (fun f => (f.region reg).running = true ∧ (f.region reg).acts = true ∧ (f.region reg).walking = false ∧
      (f.region reg).dlock ≤ (f.region reg).idle ∧ f.regionIdle reg = false)
    fun f => f.modRegion reg fun r => { r with walking := true }) ∧
  (∀ reg l g, MemMoves (.stallWalkDone reg)
    (fun _ f => (f.region reg).walking = true ∧ (f.region reg).acts = true ∧
      f.modRegion reg (fun r => { r with walking := false, idle := 0 }) = g ∧ g.walkRegion reg = (true, l))
    fun m _ => g.deadlock m reg l) ∧
  ∀ reg l g rows, MemMoves (.stallWalkDone reg)
    (fun _ f => (f.region reg).walking = true ∧ (f.region reg).acts = true ∧
      f.modRegion reg (fun r => { r with walking := false, idle := 0 }) = g ∧ g.walkRegion reg = (false, l) ∧
      reportRows (f.region reg).context (f.region reg).repRows false l = rows ∧ rows ≠ [] ∧ rows ≠ (f.region reg).lastStall)
    fun m f => (g.modRegion reg fun r => { r with lastStall := rows }).writeReport m reg (f.region reg).report rows

end Sys2Proof.Claims

/-- Rollback, stops, error records, retirement and deadlock walks act. What is the model's own choice or inference in it: log entries
15, 21, 31, 55, 56, 64, 69, 72. -/
def Obligations.RecoveryAndStops : Prop :=
  RollbackRestores ∧ StopsFreeze ∧ RecoveryActs

namespace Sys2Proof.Claims

/-- Where `pre` holds of a core and the two free values of the step, an operator's event answers the next state in which the core is
that of `post` and its region has moved. -/
def Steps (i : Instr) (c : Nat) (pre : Core → Row → Row → Prop) (post : Core → Row → Row → Core) : Prop :=
  ∀ s, pre (s.fab.core c) (Config.freeValue s.run.free) (Config.freeValue (s.run.free + 1)) →
    exec i s = .next { s with
      fab := (s.fab.modCore c fun k => post k (Config.freeValue s.run.free) (Config.freeValue (s.run.free + 1))).modRegion
        (s.fab.core c).regionId fun r => { r with idle := 0 }
      run := { s.run with free := s.run.free + 2 } }

/-- The output of a steer, or the data input of a merge, that a predicate token selects. -/
def armOf (p : Tok) : Nat := if predTrue p then 0 else 1

/-- An input of an operator is attached and a data token stands at its head. -/
def HeadData (k : Core) (op inp : Nat) (t : Tok) : Prop := ∃ b, k.inHead op inp = some b ∧ b.tag = 0 ∧ b.tok = t

/-- R218, Table 7-8: a steer sends its data to the output its predicate selects and the predicate on; a merge passes the selected
data; a carry passes a first token, then one for each true predicate; an invariant holds a token and repeats it for each true
predicate. Each consumes what it used, with room on every output. -/
def RouterOperatorsStep : Prop :=
  (∀ c op cfg d p, Steps (.steerStep c op) c
    (fun k a b => k.operRuns op 0x2C5 = some cfg ∧ k.inData op 0 a = some d ∧ k.inData op 1 b = some p ∧
      k.hasSpace op (armOf p) = true ∧ k.hasSpace op 2 = true)
    fun k _ _ => (((k.consume op 0).consume op 1).emit op (armOf p) (dataBeat d p)).emit op 2 ⟨0, p⟩) ∧
  (∀ c op cfg d p, Steps (.mergeStep c op) c
    (fun k a b => k.operRuns op 0x2C6 = some cfg ∧ k.inData op 2 b = some p ∧ k.inData op (armOf p) a = some d ∧
      k.hasSpace op 0 = true)
    fun k _ _ => ((k.consume op 2).consume op (armOf p)).emit op 0 (dataBeat d p)) ∧
  (∀ c op cfg d, Steps (.carryStep c op) c
    (fun k a _ => k.operRuns op 0x2C7 = some cfg ∧ (k.oper op).phase = 0 ∧ k.inData op 0 a = some d ∧ k.hasSpace op 0 = true)
    fun k _ _ => ((k.consume op 0).emit op 0 ⟨0, d⟩).modOper op fun o => { o with phase := 1 }) ∧
  (∀ c op cfg d p, Steps (.carryStep c op) c
    (fun k a b => k.operRuns op 0x2C7 = some cfg ∧ (k.oper op).phase ≠ 0 ∧ k.inData op 2 b = some p ∧ predTrue p = true ∧
      k.inData op 1 a = some d ∧ k.hasSpace op 0 = true)
    fun k _ _ => ((k.consume op 2).consume op 1).emit op 0 (dataBeat d p)) ∧
  (∀ c op cfg p, Steps (.carryStep c op) c
    (fun k _ b => k.operRuns op 0x2C7 = some cfg ∧ (k.oper op).phase ≠ 0 ∧ k.inData op 2 b = some p ∧ predTrue p = false)
    fun k _ _ => (k.consume op 2).modOper op fun o => { o with phase := 0 }) ∧
  (∀ c op cfg d, Steps (.invariantStep c op) c
    (fun k a _ => k.operRuns op 0x2C8 = some cfg ∧ (k.oper op).held = none ∧ k.inData op 0 a = some d ∧ k.hasSpace op 0 = true)
    fun k _ _ => ((k.consume op 0).emit op 0 ⟨0, d⟩).modOper op fun o => { o with held := some d }) ∧
  (∀ c op cfg v p, Steps (.invariantStep c op) c
    (fun k _ b => k.operRuns op 0x2C8 = some cfg ∧ (k.oper op).held = some v ∧ k.inData op 1 b = some p ∧ predTrue p = true ∧
      k.hasSpace op 0 = true)
    fun k _ _ => (k.consume op 1).emit op 0 (dataBeat v p)) ∧
  ∀ c op cfg v p, Steps (.invariantStep c op) c
    (fun k _ b => k.operRuns op 0x2C8 = some cfg ∧ (k.oper op).held = some v ∧ k.inData op 1 b = some p ∧ predTrue p = false)
    fun k _ _ => (k.consume op 1).modOper op fun o => { o with held := none }

/-- R220, R221, R222: a chain's run is begun by its trigger, and it emits its next index or end token; a loop takes its next bound
and emits its indices, then its end token; a corner turn takes sixteen rows and gives out their columns. -/
def IndexOperatorsStep : Prop :=
  (∀ c op cfg t, Steps (.chainIndexEmit c op) c
    (fun k _ _ => k.operRuns op 0x2C9 = some cfg ∧ k.inHead op 1 = none ∧ (k.oper op).started = false ∧
      (k.inRoute op 0).isSome = true ∧ HeadData k op 0 t)
    fun k _ _ => (k.consume op 0).modOper op fun o => { o with started := true, ix := [0] }) ∧
  (∀ c op cfg ix, Steps (.chainIndexEmit c op) c
    (fun k _ _ => k.operRuns op 0x2C9 = some cfg ∧ k.inHead op 1 = none ∧ k.inRoute op 1 = none ∧ (k.oper op).started = true ∧
      k.hasSpace op 0 = true ∧ cfg.chainNext 5 (k.oper op).ix = (none, ix))
    fun k _ _ => (k.emit op 0 ⟨0, ⟨cfg.chainToken (cfg.chainOpen 5 (k.oper op).ix), false⟩⟩).modOper op fun o =>
      { o with ix := ix, sent := o.sent + 1 }) ∧
  (∀ c op cfg d, Steps (.loopIndexEmit c op) c
    (fun k a _ => k.operRuns op 0x2CA = some cfg ∧ (k.oper op).started = false ∧ k.inData op 0 a = some d)
    fun k _ _ => (k.consume op 0).modOper op fun o =>
      { o with started := true, bound := d.bits, ix := [0], held := some ⟨0, d.ember⟩ }) ∧
  (∀ c op cfg, Steps (.loopIndexEmit c op) c
    (fun k _ _ => k.operRuns op 0x2CA = some cfg ∧ (k.oper op).started = true ∧ k.hasSpace op 0 = true ∧
      loopCount (k.oper op).bound ≤ (k.oper op).ix.headD 0)
    fun k _ _ => (k.emit op 0 ⟨field cfg.arg 2 0, {}⟩).modOper op fun o => { o with started := false, ix := [], held := none }) ∧
  (∀ c op cfg i b, Steps (.loopIndexEmit c op) c
    (fun k _ _ => k.operRuns op 0x2CA = some cfg ∧ (k.oper op).started = true ∧ k.hasSpace op 0 = true ∧
      (k.oper op).ix.headD 0 = i ∧ (k.oper op).bound = b ∧ i < loopCount b)
    fun k _ _ =>
      let flags := (if i = 0 then 1 else 0) + (if i + 1 = loopCount b then 2 else 0)
      let t := ofElems 32 16 fun e =>
        if e = 0 then wrapTo 32 (s32At b 0 + (i : Int) * s32At b 2) else if e = 4 then flags else 0
      (k.emit op 0 ⟨0, ⟨t, (k.oper op).held.any (·.ember)⟩⟩).modOper op fun o => { o with ix := [i + 1] }) ∧
  (∀ c op cfg t, Steps (.cornerTurnStep c op) c
    (fun k _ _ => k.operRuns op 0x2CB = some cfg ∧ (k.oper op).phase = 0 ∧ HeadData k op 0 t)
    fun k _ _ => (k.consume op 0).modOper op fun o =>
      { o with buf := (k.oper op).buf ++ [t], phase := if (k.oper op).buf.length + 1 = 16 then 1 else 0, ix := [0] }) ∧
  ∀ c op cfg j, Steps (.cornerTurnStep c op) c
    (fun k _ _ => k.operRuns op 0x2CB = some cfg ∧ (k.oper op).phase ≠ 0 ∧ k.hasSpace op 0 = true ∧ (k.oper op).ix.headD 0 = j)
    fun k _ _ =>
      let t : Tok := ⟨ofElems 32 16 fun e => elem 32 ((k.oper op).buf.getD e {}).bits j, (k.oper op).buf.any (·.ember)⟩
      (k.emit op 0 ⟨0, t⟩).modOper op fun o => if j = 15 then { o with phase := 0, buf := [], ix := [] } else { o with ix := [j + 1] }

end Sys2Proof.Claims

/-- Dataflow operators consume their inputs and emit their outputs. What is the model's own choice or inference in it: log entries
23, 53. -/
def Obligations.OperatorsStep : Prop :=
  RouterOperatorsStep ∧ IndexOperatorsStep

namespace Sys2Proof.Claims

/-- R218, R219: one control token at every attached input of an operator, all of one level, passes to every output with room; levels
that differ stop the operator with CTRL_MISMATCH. -/
def ControlTokensPass : Prop :=
  (∀ c op cfg level, Moves (.controlTokenPass c op)
    (fun f =>
      let k := f.core c
      let ins := (List.range (operPorts cfg.op).1).filter fun i => (k.inRoute op i).isSome
      sfind k.plane.opers op = some cfg ∧ k.dbg.frozen = false ∧ k.group.isSome = true ∧ (k.oper op).stuck = false ∧
        k.operIdle op cfg.op = true ∧ ins ≠ [] ∧ level ≠ 0 ∧
        (∀ i ∈ ins, ∃ b, k.inHead op i = some b ∧ b.tag = level) ∧ ∀ o < (operPorts cfg.op).2, k.hasSpace op o = true)
    fun f =>
      let ins := (List.range (operPorts cfg.op).1).filter fun i => ((f.core c).inRoute op i).isSome
      (f.modCore c fun k => (List.range (operPorts cfg.op).2).foldl (fun k o => k.emit op o ⟨level, {}⟩)
        (ins.foldl (fun k i => k.consume op i) k)).modRegion (f.core c).regionId fun r => { r with idle := 0 }) ∧
  ∀ c op cfg i j b d, Moves (.controlTokenPass c op)
    (fun f =>
      let k := f.core c
      let ins := (List.range (operPorts cfg.op).1).filter fun i => (k.inRoute op i).isSome
      sfind k.plane.opers op = some cfg ∧ k.dbg.frozen = false ∧ k.group.isSome = true ∧ (k.oper op).stuck = false ∧
        k.operIdle op cfg.op = true ∧ i ∈ ins ∧ j ∈ ins ∧ k.inHead op i = some b ∧ k.inHead op j = some d ∧ b.tag ≠ d.tag ∧
        ∀ i ∈ ins, ∃ b, k.inHead op i = some b ∧ b.tag ≠ 0)
    fun f => (f.modCore c fun k => k.modOper op fun o => { o with stuck := true }).postTrap c
      { code := 0x11, async := true, addr := op, src := .engine }

/-- The head `b` of the outbound buffer of a route may be sent to the core `d` across, and nothing can be taken from its window at the
same time: injection goes on, a credit is held, and no marker that has been sent holds it back (R346, R347). -/
structure MaySend (f : Fabric) (c route : Nat) (b : Beat) (d : Nat) : Prop where
  goes : (f.core c).dbg.frozen = false
  lit : (f.core c).group.isSome = true
  head : ((f.core c).outBeats route).head? = some b
  full : f.takeBeat c route = none
  across : f.peerOf (f.core c).regionId route = some d
  open_ : f.units.paused = false
  credit : ((f.core d).inBeats route).length + ((f.core c).airBeats route).length < f.recvDepth (f.core c).regionId route
  ahead : 8 ≤ b.tag ∨ ((f.core c).saving = false ∧ ((f.core c).cutDone = true → (f.core d).cutDone = true))

/-- The sending core after the head of an outbound buffer has left it. -/
def beatLeft (f : Fabric) (c route : Nat) : Fabric := f.modCore c fun k => (k.modOut route fun l => l.drop 1).crossed (256 + route)

/-- R255, R342, R346, R347, R344, R410: a beat moves from a landing window to its outbound buffer, the oldest row or a control beat,
when no credit lets one be sent; from an outbound buffer to the receive buffer at the other end, with room there, or first onto the
lanes of the die edges that its path crosses; and from a receive buffer into its landing window, a control beat without a row. A
marker on a back edge is dropped where it lands; from an input whose marker has come nothing further is delivered. -/
def CircuitsCarry : Prop :=
  (∀ s c route b d, MaySend s.fab c route b d → s.fab.edgesOf (s.fab.core c).regionId route = 0 →
    exec (.circuitBeatSend c route) s = .next { s with
      fab := ((beatLeft s.fab c route).landBeat c d route b).modRegion (s.fab.core c).regionId fun r => { r with idle := 0 }
      run := { s.run with free := s.run.free + 1 } }) ∧
  (∀ s c route b d, MaySend s.fab c route b d → s.fab.edgesOf (s.fab.core c).regionId route ≠ 0 →
    exec (.circuitBeatSend c route) s = .next { s with
      fab := ((beatLeft s.fab c route).modCore c fun k =>
          { k with ends := smod {} k.ends (route * 2) fun e => { e with air := e.air ++ [(0, b)] } }).modRegion
        (s.fab.core c).regionId fun r => { r with idle := 0 }
      run := { s.run with free := s.run.free + 1 } }) ∧
  (∀ f : Fabric, ∀ c d route b, (f.core d).cutDone = false → (b.tag < 8 ∨ f.isBack (f.core c).regionId route = false) →
    f.landBeat c d route b = f.modCore d fun k => k.modIn route fun l => l ++ [b]) ∧
  (∀ f : Fabric, ∀ c d route b, 8 ≤ b.tag → f.isBack (f.core c).regionId route = true → f.landBeat c d route b = f) ∧
  (∀ s c route g, (s.fab.core c).dbg.frozen = false → (s.fab.core c).group.isSome = true →
    s.fab.sendBeat c route = none → s.fab.takeBeat c route = some g →
    exec (.circuitBeatSend c route) s = .next { s with
      fab := g.modRegion (s.fab.core c).regionId fun r => { r with idle := 0 }
      run := { s.run with free := s.run.free + 1 } }) ∧
  (∀ c route, Moves (.circuitBeatReceive c route) (fun f => (f.core c).inMarked route = true) fun f => f) ∧
  (∀ c route e b r, Moves (.circuitBeatReceive c route)
    (fun f => sfind (f.core c).plane.ends (route * 2 + 1) = some e ∧ (f.core c).inBeats route = b :: r ∧
      (f.core c).inMarked route = false ∧ e.kind = 0 ∧
      (f.core c).dbg.frozen = false ∧ (f.core c).restoring e.obj = false ∧ b.tag = 0 ∧ (f.core c).freeRows e.obj ≠ 0)
    fun f => (f.modCore c fun k => (k.modIn route fun l => l.drop 1).fillWin e.obj b.tok).modRegion (f.core c).regionId fun r =>
      { r with idle := 0 }) ∧
  ∀ c route e b r, Moves (.circuitBeatReceive c route)
    (fun f => sfind (f.core c).plane.ends (route * 2 + 1) = some e ∧ (f.core c).inBeats route = b :: r ∧
      (f.core c).inMarked route = false ∧ e.kind = 0 ∧
      (f.core c).dbg.frozen = false ∧ (f.core c).restoring e.obj = false ∧ b.tag ≠ 0)
    fun f => (f.modCore c fun k => (k.modIn route fun l => l.drop 1).modWin e.obj fun n =>
      { n with ctl := n.ctl ++ [(n.f, b.tag)] }).modRegion (f.core c).regionId fun r => { r with idle := 0 }

end Sys2Proof.Claims

/-- Control tokens pass and circuits carry beats. What is the model's own choice or inference in it: log entries 53, 54, 70, 71. -/
def Obligations.ControlTokensAndCircuits : Prop :=
  ControlTokensPass ∧ CircuitsCarry

namespace Sys2Proof.Claims

/-- The unit `what` is the next to cross the live link `n` (R353): it goes as flit `g` under LSEQ `q` with the sender as `l` then,
replayed from the retry buffer, or, that having room, sent anew by the router or lane behind it, which leaves the fabric as `g'`. -/
def Crosses (f : Fabric) (n : Nat) (what : LinkUnit) (g : Flit) (q : Nat) (l : Link) (g' : Fabric) : Prop :=
  (f.units.link n).dead = false ∧ (linkEnds n).2 ≠ 4 ∧ (linkEnds n).2 ≠ 5 ∧ (farEnd (linkEnds n).1 (linkEnds n).2).isSome = true ∧
  ((∃ e, (f.units.link n).buf[(f.units.link n).cursor]? = some e ∧ e.flit.what = what ∧ g = e.flit ∧ q = e.lseq ∧
      l = (f.units.link n).replay ∧ g' = f) ∨
   ((f.units.link n).buf[(f.units.link n).cursor]? = none ∧ (f.units.link n).buf.length < 32 ∧ f.takeUnit n what = some (g, g') ∧
      q = (f.units.link n).next ∧ l = (f.units.link n).send g))

/-- R353: what a link's receiver accepts goes on to the router or lane beyond it; a bad unit or a gap is discarded with a NAK; an
acknowledgement frees what was accepted, a NAK replays from the LSEQ it names, a timeout replays from the oldest. -/
def RetryCarries : Prop :=
  (∀ n what g q l g', Moves (.linkUnitReceive n what true)
    (fun f => Crosses f n what g q l g' ∧ q = l.expect)
    fun _ => (g'.modLink n fun _ => { l with expect := (l.expect + 1) % 256, refusing := false }).deliver n g) ∧
  (∀ n what good g q l g', Moves (.linkUnitReceive n what good)
    (fun f => Crosses f n what g q l g' ∧ (good = false ∨ q ≠ l.expect))
    fun _ => g'.modLink n fun _ => if l.refusing then l else { l with refusing := true, nak := true }) ∧
  (∀ n, Moves (.linkAckReceive n) (fun f => (f.units.link n).dead = false ∧ (f.units.link n).accepted ≠ 0)
    fun f => f.modLink n fun l => { l with buf := l.buf.drop l.accepted, cursor := l.cursor - l.accepted, stall := 0 }) ∧
  (∀ n, Moves (.linkNakReceive n) (fun f => (f.units.link n).dead = false ∧ (f.units.link n).nak = true)
    fun f => f.modLink n fun l => { l with nak := false, cursor := l.accepted }) ∧
  ∀ n, Moves (.linkRetryTimeout n)
    (fun f => (f.units.link n).dead = false ∧ (f.units.link n).buf ≠ [] ∧ 256 ≤ (f.units.link n).stall)
    fun f => f.modLink n fun l => { l with cursor := 0, stall := 0 }

/-- R349, R350, R352, R355: a unit that its source may send enters the local input buffer of its router, with the next SSEQ of the
source, configuration alone while injection pauses; the local port gives one that has come to its destination to what it was sent
to. -/
def RoutersServe : Prop :=
  (∀ n site what g, MemMoves (.linkUnitReceive n what true)
    (fun m f => linkEnds n = (site, 5) ∧ f.flitOf m what = some g ∧ g.src / 2 = site ∧
      (f.units.paused = false ∨ ∃ d, what = .config d) ∧ f.units.carries what = false ∧
      (f.units.mesh.buf (bufKey site 4 g.vc)).length < bufCap g.vc)
    fun m f => (m, (f.modUnits fun u => { u with mesh := { u.mesh with sseq := sset u.mesh.sseq g.src (g.sseq + 1) } }).enterRouter
      site 4 g)) ∧
  (∀ n site what g g', Moves (.linkUnitReceive n what true)
    (fun f => linkEnds n = (site, 4) ∧ f.takeFlit site 4 what (fun _ => true) = some (g, g') ∧ g'.awaited what = true ∧
      ∀ d, what ≠ .config d)
    fun _ => g'.modUnits fun u => { u with mesh := { u.mesh with home := u.mesh.home ++ [g] } }) ∧
  (∀ n site d g g', Moves (.linkUnitReceive n (.config d) true)
    (fun f => linkEnds n = (site, 4) ∧ f.takeFlit site 4 (.config d) (fun _ => true) = some (g, g')) fun _ => g') ∧
  ∀ n site what, Moves (.linkUnitReceive n what true)
    (fun f => linkEnds n = (site, 5) ∧ f.units.paused = true ∧ ∀ d, what ≠ .config d) fun f => f

/-- R354, R355, R356: eight replays of a unit or a lost training kill both directions of a link: what their retry buffers hold and
what was to go over them next is lost, and injection pauses. Once every unit in flight is settled, and with tables and paths that
avoid the dead links, the reroute ends: the losses are recorded, one record a source, and resolved, and injection goes on. -/
def LinksDie : Prop :=
  (∀ n e, Moves (.linkDead n) (fun f => e ∈ (f.units.link n).buf ∧ 8 ≤ e.replays) fun f => f.linkDies n) ∧
  (∀ n, Moves (.linkDead n) (fun f => ∀ e ∈ (f.units.link n).buf, e.replays < 8) fun f => f) ∧
  (∀ n, Moves (.phyTrainingLoss n) (fun _ => (reverseLink n).isSome = true) fun f => f.linkDies n) ∧
  (∀ f : Fabric, ∀ n, (f.units.link n).dead = false → reverseLink n = none → f.linkDies n = f.directionDies n) ∧
  (∀ f : Fabric, ∀ n r, (f.units.link n).dead = false → (f.units.link r).dead = false → n ≠ r → reverseLink n = some r →
    f.linkDies n = (f.directionDies n).directionDies r) ∧
  (∀ f : Fabric, ∀ n,
    (f.directionDies n).units.link n = { f.units.link n with dead := true, buf := [], cursor := 0, nak := false } ∧
    (f.directionDies n).units.paused = true ∧ (f.directionDies n).units.deadLinks = f.units.deadLinks ++ [n] ∧
    (∀ e ∈ (f.units.link n).buf, e.flit ∈ (f.directionDies n).units.lost) ∧
    (∀ q ∈ f.units.mesh.bufs, ∀ g ∈ q.2, q.1 / 64 = (linkEnds n).1 → f.units.mesh.out (linkEnds n).1 g = (linkEnds n).2 →
      g ∈ (f.directionDies n).units.lost)) ∧
  ∀ s tables paths, s.run.plan = ⟨tables, paths⟩ → s.fab.units.paused = true → s.fab.allStill = true →
    (∀ n ∈ s.fab.units.deadLinks, (s.fab.units.mesh.rewrite tables).avoids n = true) →
    (∀ e ∈ tables, (s.fab.units.mesh.rewrite tables).reaches e.2.1 256 e.1 = true) → s.fab.units.relaysAll paths = true →
    exec .rerouteComplete s = .next { s with
      fab :=
        let f := s.fab.modUnits fun u => { u.relay paths with mesh := s.fab.units.mesh.rewrite tables }
        let f := (s.fab.units.lost.map Flit.src).eraseDups.zipIdx.foldl
          (fun f p => f.lossRecord s.fab.units.lost (freeFrom s.run.free) p.1 p.2) f
        ((s.fab.units.lost.foldl (fun f g => f.resolveLoss g.what) f).modUnits fun u =>
          { u with lost := [], paused := false }).pruneHome
      run := { s.run with
        free := s.run.free + 2 * s.fab.units.lost.length + 1, plan := Config.plan s.run.free } }

end Sys2Proof.Claims

/-- Links carry and retry units, routers inject and land them, and dead links are rerouted. What is the model's own choice or
inference in it: log entries 32, 58, 70. -/
def Obligations.LinksRecover : Prop :=
  RetryCarries ∧ RoutersServe ∧ LinksDie

namespace Sys2Proof.Claims

/-- The request `m` of operation `op` stands at the head of context 0's command window and is taken up: the module serves, no record
is on its way, the request keeps its map, and a key is enrolled unless this is ENROL (R442, R445, R446). -/
structure Asked (f : Fabric) (m op : Nat) : Prop where
  head : ∃ row rest, (f.context 0).cmd = row :: rest ∧ row.toNat = m
  serves : f.units.serves = true
  isOpen : f.isOpen 0 = true
  idle : (f.context 0).cplHeld = []
  form : requestOk m = true
  names : reqOp m = op
  enrolled : f.units.admin = none → op = 1

/-- Memory and the fabric after a request is shrunk from its window and answered with a status and value (R446). -/
def replied (m status value : Nat) (addrs : List Nat) (mem : Memory) (f : Fabric) : Memory × Fabric :=
  (mem, (f.modContext 0 fun x => { x with cmd := x.cmd.drop 1 }).complete 0 (responseRow m status value addrs))

/-- Where request `m` is taken up and `pre` holds, its event answers it with STATUS 0 and makes the change `post`. -/
def Manages (i : Instr) (op : Nat) (pre : Nat → Memory → Fabric → Prop) (value : Nat → Fabric → Nat)
    (post : Nat → Memory → Fabric → Memory × Fabric) : Prop :=
  ∀ s m, Asked s.fab m op → pre m s.mem s.fab →
    exec i s = .next { s with
      mem := (replied m 0 (value m s.fab) [] (post m s.mem s.fab).1 (post m s.mem s.fab).2).1
      fab := (replied m 0 (value m s.fab) [] (post m s.mem s.fab).1 (post m s.mem s.fab).2).2 }

/-- The context of a request is an open tenant context. -/
def OnTenant (m : Nat) (f : Fabric) : Prop := reqCtx m ≠ 0 ∧ f.isOpen (reqCtx m) = true

/-- A request's TAG names live region `r` of its open tenant context. -/
def OnRegionOf (m : Nat) (f : Fabric) (r : Nat) : Prop := OnTenant m f ∧ f.tagged (reqCtx m) (reqArg0 m) = some r

/-- R445, R446, R447: the requests on keys, contexts, connections and gangs that are permitted are answered with STATUS 0. ENROL
takes the first key; OPEN gives a context its page-table pool, its side table and its windows (the four RMA addresses are free
values); SEAL seals a context without pages and regions; CKEY wraps a sealed context's key; CONNECT opens a connection; GANG
enters a gang's schedule, which begins anew, and cores no longer wait for an instant of a gang without a valid one. -/
def ContextRequestsComplete : Prop :=
  Manages .enrol 1 (fun _ _ f => f.units.admin = none) (fun _ _ => 0)
    (fun m mem f => (mem, f.modUnits fun u => { u with admin := some (BitVec.ofNat 256 (reqKey m)) })) ∧
  (∀ s m place, Asked s.fab m 2 → reqCtx m ≠ 0 → s.fab.isOpen (reqCtx m) = false →
    let n := field (reqArg1 m) 31 0
    n ≠ 0 → s.fab.units.hasRun (3 * n) 1 = true → s.fab.units.freeAt place (3 * n) = true →
    let base := place * 65536
    let c : Context :=
      { root := base, ptBase := base, ptNext := base + 65536, ptEnd := base + n * 65536, side := base + n * 65536
        cmdCap := field (reqArg0 m) 11 0 + 1, cplCap := field (reqArg0 m) 27 16 + 1 }
    let q := replied m 0 base ((List.range 4).map fun i => (freeFrom s.run.free i).toNat % 2 ^ 64) (s.mem.scrub base (3 * n * 65536))
      (s.fab.modUnits fun u => { u.take place (3 * n) with contexts := sset u.contexts (reqCtx m) c })
    exec (.openCtx place) s = .next { s with mem := q.1, fab := q.2, run := { s.run with free := s.run.free + 4 } }) ∧
  Manages .sealCtx 3
    (fun m mem f => OnTenant m f ∧ emptyTable mem 4 (f.context (reqCtx m)).root = true ∧
      ∀ q ∈ f.units.regions, q.2.context ≠ reqCtx m) (fun _ _ => 0)
    (fun m mem f => (mem, f.modContext (reqCtx m) fun c => { c with isSealed := true, build := BitVec.ofNat 256 (reqKey m) })) ∧
  Manages (.ckey true) 4 (fun m _ f => OnTenant m f ∧ (f.context (reqCtx m)).isSealed = true) (fun _ _ => 0)
    (fun m mem f => (mem, f.modContext (reqCtx m) fun c => { c with ckey := some (BitVec.ofNat 256 (reqKey m)) })) ∧
  Manages .connect 7
    (fun m _ f => OnTenant m f ∧ shas (f.context (reqCtx m)).conns (field (reqArg0 m) 7 0) = false) (fun _ _ => 0)
    (fun m mem f => (mem, f.modContext (reqCtx m) fun c =>
      { c with conns := sset c.conns (field (reqArg0 m) 7 0) { peer := BitVec.ofNat 64 (reqArg1 m) } })) ∧
  Manages .gangEntry 8
    (fun m _ _ => field (reqKey m) 11 0 ≠ 0 ∧ gangEntryOk (reqArg1 m <<< 64 + reqArg0 m) = true) (fun _ _ => 0)
    (fun m mem f => (mem, Fabric.freeHolds (f.modUnits fun u =>
      { u with gangs := sset u.gangs (field (reqKey m) 11 0) (BitVec.ofNat 128 (reqArg1 m <<< 64 + reqArg0 m))
               judged := sset u.judged (field (reqKey m) 11 0) 0, switched := sset u.switched (field (reqKey m) 11 0) 0 })
      (field (reqKey m) 11 0) (reqArg1 m <<< 64 + reqArg0 m)))

/-- R287, R290, R447: MAP enters a leaf for a free aligned page of HBM or of the peat tier, the page zero and the frame tags of HBM
set; its VALUE is the frame's address, 0 on a sealed context. UNMAP clears the leaf, drops the page's translations and misses,
and scrubs and frees its frame. CLOSE removes a context whose regions' units are performed. -/
def PageRequestsComplete : Prop :=
  (∀ frame level mem' next, Manages (.mapPage frame) 5
    (fun m mem f =>
      let c := f.context (reqCtx m)
      let size := pageBytes level
      let n := size / 65536
      let base := if bitOf (reqArg1 m) 4 then 0x8000000000000 + frame * 65536 else frame * 65536
      OnTenant m f ∧ level = field (reqArg1 m) 1 0 + 1 ∧ level ≠ 4 ∧ reqArg0 m % size = 0 ∧ reqArg0 m < 2 ^ 56 ∧
        field (reqArg1 m) 7 6 ≠ 3 ∧ (bitOf (reqArg1 m) 4 = true → level ≠ 3) ∧ frame % n = 0 ∧
        enterLeaf (reqArg0 m) (mapLeaf (reqArg1 m) c.isSealed base) level c.ptEnd 4 mem c.ptNext c.root = .ok (mem', next) ∧
        (if bitOf (reqArg1 m) 4 then (peatRun f.units.peat f.units.peatCap n).isSome = true ∧ f.units.peatFree frame n = true
         else f.units.hasRun n n = true ∧ f.units.freeAt frame n = true))
    (fun m f => if (f.context (reqCtx m)).isSealed then 0
      else if bitOf (reqArg1 m) 4 then 0x8000000000000 + frame * 65536 else frame * 65536)
    (fun m _ f =>
      let size := pageBytes level
      let base := if bitOf (reqArg1 m) 4 then 0x8000000000000 + frame * 65536 else frame * 65536
      (if bitOf (reqArg1 m) 4 then mem'.scrub base size
       else (mem'.scrub base size).setTags (reqCtx m) base size (mapLeaf (reqArg1 m) (f.context (reqCtx m)).isSealed base),
       (f.modContext (reqCtx m) fun c => { c with ptNext := next }).modUnits fun u =>
         if bitOf (reqArg1 m) 4 then { u with peat := u.peat ++ [(frame, size / 65536)] } else u.take frame (size / 65536)))) ∧
  (∀ l p e, Manages .unmap 6
    (fun m mem f => OnTenant m f ∧ reqArg0 m < 2 ^ 56 ∧ (f.context (reqCtx m)).leaf mem (reqArg0 m) = some (l, p, e) ∧
      f.inTransit (reqCtx m) (reqArg0 m / pageBytes l * pageBytes l) = false) (fun _ _ => 0)
    (fun m mem f =>
      let q := f.dropPage (mem.writeNat p 8 0) (reqCtx m) (reqArg0 m / pageBytes l * pageBytes l) (pageBytes l)
      (q.2.settlePage (reqCtx m) (reqArg0 m / pageBytes l * pageBytes l) (pageBytes l)).freeFrame q.1 l e)) ∧
  Manages .closeCtx 13
    (fun m _ f => OnTenant m f ∧ ∀ q ∈ f.units.regions, q.2.context = reqCtx m → f.unitsSettled q.1 = true) (fun _ _ => 0)
    (fun m mem f => f.closeContext mem (reqCtx m))

/-- R315, R412, R431, R447: FREEZE freezes a region and its cores; RESUME lets one that is frozen or stopped go on; ROLLBACK goes
back to a complete cut while no log is full; END ends a region whose units are performed. -/
def RegionRequestsComplete : Prop :=
  (∀ r, Manages .freezeRegion 9 (fun m _ f => OnRegionOf m f r) (fun _ _ => 0)
    (fun _ mem f => (mem, (f.modRegion r fun x => { x with frozen := true }).freezeCores r))) ∧
  (∀ r, Manages .resumeRegion 10 (fun m _ f => OnRegionOf m f r ∧ (f.region r).acts = false) (fun _ _ => 0)
    (fun _ mem f => (mem, f.resume r))) ∧
  (∀ r, Manages .rollbackRegion 11
    (fun m _ f => OnRegionOf m f r ∧ (f.region r).complete = true ∧ (f.region r).full = false) (fun _ _ => 0)
    (fun _ mem f => (f.modRegion r fun x => { x with stop := none, stopped := false, frozen := false }).rollback mem r)) ∧
  ∀ r, Manages .endRegion 12 (fun m _ f => OnRegionOf m f r ∧ f.unitsSettled r = true) (fun _ _ => 0)
    (fun _ mem f => f.endRegion mem r 0)

end Sys2Proof.Claims

/-- Permitted management requests make their change and are answered with STATUS 0. What is the model's own choice or inference in
it: log entries 14, 34, 57. -/
def Obligations.ManagementRequestsComplete : Prop :=
  ContextRequestsComplete ∧ PageRequestsComplete ∧ RegionRequestsComplete

namespace Sys2Proof.Claims

/-- R445, R449: the administrator's proof over a nonce with the enrolled key opens its connection; a read of an open tenant
context's attestation window returns the report with its signature. -/
def AdministratorProves : Prop :=
  (∀ key nonce proof_ d, Moves (.adminConnectionSetup key nonce proof_)
    (fun f => f.units.admin = some d ∧ f.units.serves = true ∧ (Config.shake256 key).setWidth 256 = d ∧
      Config.slhVerify key nonce proof_ = true)
    fun f => f.modUnits fun u => { u with adminOpen := true }) ∧
  ∀ ctx nonce, Moves (.attestationRead ctx nonce)
    (fun f => f.units.serves = true ∧ ctx ≠ 0 ∧ f.isOpen ctx = true)
    fun f => f.modContext ctx fun x =>
      { x with reports := x.reports ++ [f.reportBytes ctx nonce ++ Config.deviceSign (f.reportBytes ctx nonce)] }

/-- R2, R448, R441, R451, R7: a module without service boots into reduced service when its firmware's signature holds, and is dead
when it does not; training ends in full service at 940 MHz; an expander that fails ends the moves of its pages; the clock moves
by one step, each open tenant context told; too great a temperature stops every region and gates every clock; the PTP clock
takes the time of its ports. -/
def ModuleServes : Prop :=
  (∀ fw sig, Moves (.powerOnBoot fw sig)
    (fun f => f.units.service = .none ∧ Config.slhVerify Config.vendorKey fw sig = true)
    fun f => f.modUnits fun u =>
      { u with
        service := .reduced, firmware := some (Config.shake256 fw), enabled := List.range 32, clock := 8
        contexts := sset u.contexts 0 { cmdCap := 64, cplCap := 64 } }) ∧
  (∀ fw sig, Moves (.powerOnBoot fw sig)
    (fun f => f.units.service = .none ∧ Config.slhVerify Config.vendorKey fw sig = false)
    fun f => f.modUnits fun u => { u with service := .dead }) ∧
  (∀ enabled expanders, trained enabled expanders = true → Moves (.fullServiceStart enabled expanders)
    (fun f => f.units.service = .reduced)
    fun f => f.modUnits fun u => { u with service := .full, enabled := enabled, expanders := expanders, clock := 16 }) ∧
  (∀ s port, port < s.fab.units.expanders.length → port ∉ s.fab.units.failed →
    let f := s.fab.modUnits fun u => { u with failed := u.failed ++ [port] }
    exec (.expanderFailure port) s = .next { s with
      fab := (f.units.transits.filter fun t => f.units.failedAt (t.peatAt s.mem)).zipIdx.foldl
        (fun f p => f.failMove (freeFrom s.run.free p.2) p.1) f
      run := { s.run with free := s.run.free + s.fab.units.transits.length } }) ∧
  (∀ step, 4 ≤ step → Moves (.throttleStep step)
    (fun f => f.units.serves = true ∧ step ≤ f.units.topStep ∧ (step + 1 = f.units.clock ∨ step = f.units.clock + 1))
    fun f => (skeys f.units.contexts).foldl
      (fun g x => if x = 0 then g else g.complete x (completionRow 0 5 step 0 x 0 0 0 0 0 0 f.units.ptp.toNat))
      (f.modUnits fun u => { u with clock := step })) ∧
  (∀ s, s.fab.units.serves = true → 
    let f := (skeys s.fab.units.regions).zipIdx.foldl
      (fun f p => f.stopNow (fun i => freeFrom s.run.free (6 * p.2 + i)) p.1) s.fab
    exec .thermalStop s = .next { s with
      fab := { cores := f.cores.map fun q => (q.1, { q.2 with dbg := { q.2.dbg with frozen := true, gating := true } })
               units := { f.units with service := .gated, paused := true } }
      run := { s.run with free := s.run.free + 6 * s.fab.units.regions.length } }) ∧
  ∀ time, field time.toNat 31 0 < 1000000000 → Moves (.ptpClockDiscipline time) (fun _ => True)
    fun f => f.modUnits fun u => { u with ptp := time, frac := 0 }

end Sys2Proof.Claims

/-- The administrator proves itself; the module boots, throttles and stops. What is the model's own choice or inference in it: log
entries 4, 35. -/
def Obligations.AdministratorAndModule : Prop :=
  AdministratorProves ∧ ModuleServes

/-- R103, R105 to R113: every well-formed instruction has words, and the decoder reads it back from them, with every operand at
every value that the encoding admits. -/
def Obligations.DecodeOfEncode : Prop :=
  ∀ i, WellFormed i → ∃ w r, encode i = w :: r ∧ decodeWord w (r.headD 0) = .ok i

/-- R103, R105 to R113: a word that the decoder accepts is the first word of what it read, and the word after it is the second word
of a LIT: no bit of a word is dropped, and no two words hold one instruction. -/
def Obligations.EncodeOfDecode : Prop :=
  ∀ w lit i, decodeWord w lit = .ok i → encode i = match i with | .lit _ => [w, lit] | _ => [w]

/-- Memory keeps its canonical form through every step (log entry 1's list of bytes, addresses strictly rising and no byte listed at
the value that an unlisted address reads as), whatever turn comes. What is the model's own choice or inference in it: log entry
1. -/
def Obligations.StepsKeepMemoryCanonical : Prop :=
  ∀ s t, step s = .next t → s.mem.wf → t.mem.wf

namespace Sys2Proof.Claims

/-- A result raises no flag, its formed elements (all of them, or element 0 alone under V) are those of `g` cut to the width, and
the others are zero. -/
def Elements (f : DFields) (r : Row × Fpx) (g : Nat → Nat) : Prop :=
  r.2 = fNone ∧
  (∀ e, e < laneCount f.ty f.mod → elem (tyBits f.ty) r.1 e = g e % 2 ^ tyBits f.ty) ∧
  ∀ e, laneCount f.ty f.mod ≤ e → elem (tyBits f.ty) r.1 e = 0

/-- The low `w` bits of an integer. -/
def lowBits (w : Nat) (x : Int) : Nat := (x % 2 ^ w).toNat

/-- An integer limited to [lo, hi]. -/
def within (lo hi x : Int) : Int := if x < lo then lo else if hi < x then hi else x

/-- The range of an integer type (Table 2-1). -/
def rangeOf (ty : BitVec 4) : Int × Int :=
  match ty.toNat with
  | 0 => (0, 255) | 1 => (-128, 127) | 2 => (0, 65535) | 3 => (-32768, 32767)
  | 4 => (0, 4294967295) | 5 => (-2147483648, 2147483647)
  | 6 => (0, 18446744073709551615) | _ => (-9223372036854775808, 9223372036854775807)

/-- The value of an element of an integer type: its bits, less 2^w where an s type's bits exceed its maximum. -/
def valueOf (ty : BitVec 4) (t : Row) (e : Nat) : Int :=
  let x : Int := elem (tyBits ty) t e
  if (rangeOf ty).2 < x then x - 2 ^ tyBits ty else x

/-- The exact result of an integer instruction of Table 5-3 on the values of an element, and whether it lists S or always
saturates. -/
def exactOf (i : Instr) (a b c : Int) : Option (DFields × Int × Bool) :=
  match i with
  | .add f => some (f, a + b, f.mod.getLsbD 2)
  | .sub f => some (f, a - b, f.mod.getLsbD 2)
  | .mul f => some (f, a * b, f.mod.getLsbD 2)
  | .mulh f => some (f, (a * b) / 2 ^ tyBits f.ty, false)
  | .mad f => some (f, a * b + c, f.mod.getLsbD 2)
  | .quo f => some (f, if b = 0 then -1 else Int.tdiv a b, false)
  | .rem f => some (f, if b = 0 then a else a - b * Int.tdiv a b, false)
  | .neg f => some (f, -a, f.mod.getLsbD 2)
  | .abs f => some (f, if a < 0 then -a else a, f.mod.getLsbD 2)
  | .min f => some (f, if a ≤ b then a else b, false)
  | .max f => some (f, if a ≤ b then b else a, false)
  | .clamp f => some (f, min (max a b) c, false)
  | .adds f => some (f, a + b, true)
  | .subs f => some (f, a - b, true)
  | _ => none

/-- R131, R132, R53, R54, R13: an element of an integer instruction's result is the exact result of Table 5-3 on the elements'
values, limited to the type's range where the instruction saturates, and reduced modulo 2^w; no flag is raised, and under V
every other element is zero. QUO by zero is all ones, REM by zero the dividend. -/
def IntegerElements : Prop :=
  ∀ i x r f, resultOf i x = some r → (exactOf i 0 0 0).map Prod.fst = some f → f.ty.toNat < 8 →
    Elements f r fun e =>
      match exactOf i (valueOf f.ty x.a e) (valueOf f.ty x.b e) (valueOf f.ty x.c e) with
      | some (_, y, sat) => lowBits (tyBits f.ty) (if sat then within (rangeOf f.ty).1 (rangeOf f.ty).2 y else y)
      | none => 0

end Sys2Proof.Claims

/-- R140: SEL gives, per element, A where C is not zero as raw bits, else B, in every type code; the type fixes the width and the
immediate rule alone. -/
def Obligations.SelChooses : Prop :=
  (∀ f a b c, Elements f (aluSel f a b c) fun e =>
    if elem (tyBits f.ty) c e ≠ 0 then elem (tyBits f.ty) a e else elem (tyBits f.ty) b e) ∧
  (shapeOf 0x084).imm = .byType

/-- R136: a shift takes its amount per element from B, unsigned, modulo w; SRA copies the element's top bit in for z and s types
alike, and ROTL is the two shifts joined. Widths are those of types 0 to 7. -/
def Obligations.ShiftsReduce : Prop :=
  ∀ f a b, f.ty.toNat < 8 →
    let w := tyBits f.ty
    let x (e : Nat) : Nat := elem w a e
    let s (e : Nat) : Nat := elem w b e % w
    Elements f (aluShl f a b) (fun e => x e * 2 ^ s e) ∧
    Elements f (aluShr f a b) (fun e => x e / 2 ^ s e) ∧
    Elements f (aluSra f a b) (fun e =>
      x e / 2 ^ s e + if (x e).testBit (w - 1) then 2 ^ w - 2 ^ (w - s e) else 0) ∧
    Elements f (aluRotl f a b) (fun e => (x e * 2 ^ s e % 2 ^ w) ||| (x e / 2 ^ (w - s e)))

/-- R142: an element of MOVH's result is the element of A shifted left by 16 joined with imm16, modulo 2^w, w being 64 for type 15;
for 16-bit types it is imm16. -/
def Obligations.MovhBuilds : Prop :=
  (∀ f a, Elements f (aluMovh f a) fun e => (elem (tyBits f.ty) a e * 65536) ||| f.imm.toNat) ∧
  tyBits 15 = 64 ∧
  ∀ f a e, tyBits f.ty = 16 → e < laneCount f.ty f.mod → elem 16 (aluMovh f a).1 e = f.imm.toNat

/-- R148, R55, R56, R58: FABS clears and FNEG inverts the sign bit of every element that is not NaN, the other bits standing; a NaN
gives the canonical NaN. NV is raised when some element formed is a signalling NaN, and no other flag. -/
def Obligations.SignsAlone : Prop :=
  ∀ f a, f.ty = 12 ∨ f.ty = 13 ∨ f.ty = 14 →
    let w := tyBits f.ty
    let n := (fmtOf f.ty).mb
    let x (e : Nat) : Nat := elem w a e
    let top : Nat := 2 ^ (w - 1)
    let inf : Nat := top - 2 ^ n
    let nan (e : Nat) : Prop := inf < x e % top
    let flagged (fl : Fpx) : Prop :=
      (fl = fNV ∧ ∃ e, e < laneCount f.ty f.mod ∧ nan e ∧ (x e).testBit (n - 1) = false) ∨
        (fl = fNone ∧ ∀ e, e < laneCount f.ty f.mod → nan e → (x e).testBit (n - 1) = true)
    (flagged (aluFabs f a).2 ∧ flagged (aluFneg f a).2) ∧
    ∀ e, e < laneCount f.ty f.mod →
      (nan e → elem w (aluFabs f a).1 e = inf + 2 ^ (n - 1) ∧ elem w (aluFneg f a).1 e = inf + 2 ^ (n - 1)) ∧
      (¬ nan e → elem w (aluFabs f a).1 e = x e % top ∧
        elem w (aluFneg f a).1 e = x e % top + if x e < top then top else 0)

/-- R13: an instruction of the compute chapter that takes the width bit and carries it writes zero to every element of its result
but element 0. -/
def Obligations.ScalarWritesZero : Prop :=
  ∀ i x r f, resultOf i x = some r → fieldsOf i = some (.d f) → (shapeIn i).mods / 8 % 2 = 1 → f.mod.getLsbD 3 = true →
    ∀ e, 1 ≤ e → elem (tyBits f.ty) r.1 e = 0

/-- R135 (Table 5-5): AND, OR, XOR, ANDN and NOT act on every bit of the token, whatever the type; under V the result keeps element
0 alone, which is bytes 0 to 7 for type 15. The type extends the immediate. -/
def Obligations.BitwiseOnEveryBit : Prop :=
  (∀ f a b, f.mod.getLsbD 3 = false →
    (aluAnd f a b).1 = a &&& b ∧ (aluOr f a b).1 = a ||| b ∧ (aluXor f a b).1 = a ^^^ b ∧
      (aluAndn f a b).1 = a &&& ~~~b ∧ (aluNot f a).1 = ~~~a) ∧
  (∀ f a b, f.mod.getLsbD 3 = true →
    let low (r : Row) : Row := BitVec.ofNat 512 (r.toNat % 2 ^ tyBits f.ty)
    (aluAnd f a b).1 = low (a &&& b) ∧ (aluOr f a b).1 = low (a ||| b) ∧ (aluXor f a b).1 = low (a ^^^ b) ∧
      (aluAndn f a b).1 = low (a &&& ~~~b) ∧ (aluNot f a).1 = low (~~~a)) ∧
  tyBits 15 = 64 ∧
  ∀ i f, i = .and f ∨ i = .or f ∨ i = .xor f ∨ i = .andn f ∨ i = .not f → (shapeIn i).imm = .byType

namespace Sys2Proof.Claims

/-- R139, R53: a compare gives all ones in w bits where its relation holds of the elements' values, unsigned for z types and signed
for s types, and zero where it does not. -/
def ComparesWriteOnes : Prop :=
  ∀ f a b, f.ty.toNat < 8 →
    let x := valueOf f.ty a
    let y := valueOf f.ty b
    let all : Nat := 2 ^ tyBits f.ty - 1
    Elements f (aluCmpeq f a b) (fun e => if x e = y e then all else 0) ∧
    Elements f (aluCmpne f a b) (fun e => if x e = y e then 0 else all) ∧
    Elements f (aluCmplt f a b) (fun e => if x e < y e then all else 0) ∧
    Elements f (aluCmple f a b) (fun e => if x e ≤ y e then all else 0)

end Sys2Proof.Claims

/-- Integer arithmetic is exact, then limited or reduced; compares write all ones or zero. -/
def Obligations.IntegerAndCompareElements : Prop :=
  IntegerElements ∧ ComparesWriteOnes

/-- R166: WCNT of a bound port never waits and never faults; its token's elements of 32 bits are F, C − F, C and head of the window
as it stood at firing start, and the rest is zero. F and head come from the firing's own start, so the token does not depend on
what the filler does since. -/
def Obligations.WcntDescribesWindow : Prop :=
  ∀ w s who slot e b n, Issues s who slot (.wcnt w) e b → (s.fab.core who.core).winOf who w.port.toNat = some n →
    ∃ t : Row,
      exec (.wcnt w) s = .next { s with fab := (gather who slot (.wcnt w) e).result t fNone s.fab } ∧
      elem 32 t 0 = sget 0 e.snap.f0 n % 2 ^ 32 ∧
      elem 32 t 1 = (((s.fab.core who.core).winCfg n).cap - sget 0 e.snap.f0 n) % 2 ^ 32 ∧
      elem 32 t 2 = ((s.fab.core who.core).winCfg n).cap % 2 ^ 32 ∧
      elem 32 t 3 = sget 0 e.snap.head0 n % 2 ^ 32 ∧
      ∀ j, 4 ≤ j → elem 32 t j = 0

namespace Sys2Proof.Claims

/-- The events in which memory may change: accesses at the slices, store units, walks and side counters, page moves, launches, stack
spills, cuts, rollbacks and reports, groups and regions that end, storage errors, arrivals of the network, and the requests of the
management context. -/
def memoryEvent (i : Instr) : Bool :=
  match i with
  | .sliceAccess _ | .storeUnitPerform _ | .engineCommandComplete _ _ => true
  | .sequencerBlockComplete _ | .trapDelivery _ => true
  | .pageWalk _ | .sideCounterFlush _ _ | .tinComplete _ _ | .toutComplete _ _ | .kilnPageIn _ _ | .kilnFaultResolve _ _ _ => true
  | .launch _ _ _ _ | .launchRetake _ _ _ _ | .groupBind _ | .preemptionMarker _ _ => true
  | .regionRollback _ | .stallWalkDone _ | .groupComplete _ | .regionEnd _ | .errorRecordWrite _ _ => true
  | .networkWriteArrival _ _ _ _ | .networkReadArrival _ _ _ _ | .networkAtomicArrival _ _ _ _ _ _ _ | .nredRowArrival _ _ _ _ _ _ _ => true
  | .openCtx _ | .mapPage _ | .unmap | .rollbackRegion | .endRegion | .closeCtx => true
  | _ => false

end Sys2Proof.Claims

/-- R24, R161, R182: no instruction of a block changes memory when it executes, nor does the passing of cycles; memory changes in
the events of `memoryEvent` alone. -/
def Obligations.OnlyTheseWriteMemory : Prop :=
  ∀ s t, step s = .next t → t.mem ≠ s.mem → ∃ i, s.nextTurn.1 = .event i ∧ memoryEvent i = true

/-- A step stops only at the offer of a slot whose word holds no instruction (R113: such a word never enters a store); every
instruction and every event answers a next state, in every state. What is the model's own choice or inference in it: log entry
2. -/
def Obligations.StepsGoOn : Prop :=
  (∀ i s, ∃ t, exec i s = .next t) ∧
  ∀ s, (∃ t, step s = .next t) ∨
    (step s = .fault .illegalWord ∧ ∃ who slot w, s.nextTurn.1 = .issue who slot ∧ s.nextTurn.2.fab.fetch who slot = some (w, none))

namespace Sys2Proof.Claims

/-- A step runs the decoded instruction: when the next turn offers the slot at which the words of a well-formed instruction stand in
the block that an agent runs, the step is that instruction with its slot as the acting one, which is cleared after. The next
turn itself is the model's choice (log entry 2). -/
def StepRunsDecodedPart : Prop :=
  ∀ s who r e b pre i post, s.run.turns = .issue who (pre.flatMap encode).length :: r →
    (s.fab.core who.core).exec who = some e → (s.fab.core who.core).blockOf who e = some b →
    b.words = (pre ++ i :: post).flatMap encode → (∀ j ∈ pre ++ i :: post, WellFormed j) →
    step s =
      match exec i { s with run := { s.run with turns := r, acting := some (who, (pre.flatMap encode).length) } } with
      | .next t => .next { t with run := { t.run with acting := none } }
      | .fault x => .fault x
      | .refused x => .refused x

/-- An event that is the next turn is executed, cycles that are the next turn pass, and with no turn chosen ahead the next one is
`Config.turn` of the count of turns drawn (log entry 2). -/
def TurnsHappen : Prop :=
  (∀ s i r, s.run.turns = .event i :: r → step s = exec i { s with run := { s.run with turns := r } }) ∧
  (∀ s n r, s.run.turns = .elapse n :: r → step s = .next { s with fab := s.fab.elapse n, run := { s.run with turns := r } }) ∧
  (∀ s i, s.run.turns = [] → Config.turn s.run.draw = .event i →
    step s = exec i { s with run := { s.run with draw := s.run.draw + 1 } }) ∧
  ∀ s who slot, s.run.turns = [] → Config.turn s.run.draw = .issue who slot →
    step s = ({ s with run := { s.run with draw := s.run.draw + 1 } } : State).issue who slot

end Sys2Proof.Claims

/-- A step runs the instruction decoded at the slot offered, or the event whose turn it is. What is the model's own choice or
inference in it: log entries 2, 59. -/
def Obligations.StepRunsDecoded : Prop :=
  StepRunsDecodedPart ∧ TurnsHappen

/-- The machine at power-on: memory in canonical form with every byte zero (log entry 1), no core has a group, kindling planes are
EMPTY (Table 7-6), the control registers of Table 1-7 that a core reads are at their reset values, an actor's FPX and FIRING_CNT
are zero, and no service is given (R2). What is the model's own choice or inference in it: log entries 1, 16. -/
def Obligations.ResetValues : Prop :=
  State.reset.mem.wf ∧
  (∀ a, State.reset.mem.byte a = 0) ∧
  (∀ c num, State.reset.fab.ctlSeq c num =
    if num = 0x000 then BitVec.ofNat 64 (c % 128) else if num = 0x001 then BitVec.ofNat 64 (c / 128)
    else if num = 0x002 then 0xFFFF else if num = 0x012 then 0xFFFFFFFFFFFFFFFF else 0) ∧
  (∀ c a num, num = 0x010 ∨ num = 0x030 → State.reset.fab.ctlActor c a num = 0) ∧
  (∀ c, (State.reset.fab.core c).kindling = .empty ∧ (State.reset.fab.core c).group = none ∧
  (State.reset.fab.core c).seq.phase = .off) ∧
  State.reset.fab.units.service = .none

/-- Words written out from the encodings of chapter 4 decode to the instructions they stand for: R133's ADD, R144's NOP, and one of
each other format. -/
def Obligations.WordsDecode : Prop :=
  decodeTableWord 64 0x000514084000FFFF = some (.add ⟨0, 5, 0, 5, 0, 0x084, 0, 0xFFFF⟩) ∧
  decodeTableWord 64 0x224FD80000000000 = some (.nop ⟨0, 15, 6, 6, 0, 0, 0, 0⟩) ∧
  decodeTableWord 64 0x308E144820003F00 = some (.fmul ⟨0, 14, 0, 5, 1, 0x082, 0, 0x3F00⟩) ∧
  decodeTableWord 64 0x600EC00810000000 = some (.wrd ⟨0, 14, 6, 0, 0, 0x081, 0, 0, 0⟩) ∧
  decodeTableWord 128 (0x3F800000BF800000 * 2 ^ 64 + 0x220E000810000000) = some (.lit ⟨0, 14, 0x081, 0, 0x3F800000BF800000⟩) ∧
  decodeTableWord 64 0xFFFFFFFFFFFFFFFF = none

namespace Sys2Proof.Claims

/-- An actor but for its firing and what holds it back: its held registers, FPX, FIRING_CNT, age and last contribution. -/
def keptActor (a : Actor) : Actor :=
  { a with firing := none, trapHeld := false, missPage := none, deadHeld := false, accWait := none, fence := none, stepOver := none }

/-- A core but for its actors, translation cache, waits for slots, misses, faults and traps on their way, strike bits, and the
detector's and FINJ's marks: windows and their rows, the matrix region, the sequencer, the planes, barriers, engines, circuits and
watchpoints. -/
def keptCore (k : Core) : Core :=
  { k with
    actors := [], tlb := [], askers := [], misses := [], missWait := [], faults := []
    seq := { k.seq with pending := [] }
    eng := { k.eng with tierEv := false }
    dbg := { k.dbg with
      hit := 0, frozen := false, finj := [], prof := k.dbg.prof.map fun (p : Prof) => { p with moved := false } } }

/-- The units but for requests and the walks they ask for, the numbers given, records of machine checks, and regions. -/
def keptUnits (u : Units) : Units := { u with reqs := [], walks := [], nextId := 0, banks := [], regions := [] }

/-- A region but for its stop and a rollback asked for. -/
def keptRegion (r : Region) : Region := { r with stop := none, rollback := false }

/-- The instructions of an actor's block whose effect waits for commit: all that such a block may hold but the eager atomics. -/
def actsAtCommit (i : Instr) : Bool := (fieldsOf i).isSome && (shapeIn i).actK && !isEager i

end Sys2Proof.Claims

/-- R21, R24, R26, R40, R127: an instruction of an actor's block, eager atomics apart, changes nothing outside its firing when it
executes, whether it completes, waits, is squashed or faults: memory, every other core, the windows, accumulator rows, g and
control registers, the sequencer's stack, every actor's held registers, FPX and FIRING_CNT, barriers, planes, engines, circuits,
store units, contexts and regions stay as they were. What may change is the firings, the translation cache, requests and their walks,
the marks that a channel was crossed (R275), and faults and records on their way. -/
def Obligations.FiringsActAtCommit : Prop :=
  ∀ i s t c a slot, actsAtCommit i = true → s.run.acting = some (.actor c a, slot) → exec i s = .next t →
    t.mem = s.mem ∧
    (∀ d, d ≠ c → t.fab.core d = s.fab.core d) ∧
    keptCore (t.fab.core c) = keptCore (s.fab.core c) ∧
    (∀ b, keptActor ((t.fab.core c).actor b) = keptActor ((s.fab.core c).actor b)) ∧
    keptUnits t.fab.units = keptUnits s.fab.units ∧
    ∀ r, keptRegion (t.fab.region r) = keptRegion (s.fab.region r)

namespace Sys2Proof.Claims

/-- A core but for its sequencer's block in progress, place and pending traps, the outstanding counts, translation cache, misses,
faults with the Kiln, strike bits, and the detector's and FINJ's marks. -/
def keptSequencer (k : Core) : Core :=
  { k with
    counts := {}, tlb := [], misses := [], missWait := [], faults := []
    seq := { k.seq with exec := none, phase := .off, pending := [] }
    eng := { k.eng with tierEv := false }
    dbg := { k.dbg with hit := 0, frozen := false, finj := [] } }

/-- The instructions of a sequencer's block whose effect waits for the end of the block: the compute chapter, register moves,
branches, TRAP, the waits, the fences and the stores (R197). -/
def actsAtBlockEnd (i : Instr) : Bool :=
  match i with
  | .br _ | .brc _ | .brx _ | .call _ | .ret _ | .rft _ | .halt _ | .trap _ => true
  | .grd _ | .mfk _ | .mtk _ | .fpxClear _ | .wpHitClear _ | .nop _ | .barw _ | .waitc _ | .fence _ | .xfence _ => true
  | .st _ | .sts _ | .scat _ | .pref _ => true
  | .lit _ => true
  | i => match opcodeOf i with | some op => op < 0x180 | none => false

end Sys2Proof.Claims

/-- R39, R197, R198, R201: an instruction of a sequencer's block whose effect waits for the block's end changes nothing else when it
executes, completing, waiting, squashed or faulting: memory, every other core, g and control registers, FPX, the call stack,
every actor, the windows, the matrix region, barriers, planes, engines, circuits, store units, contexts and regions stay as they
were. -/
def Obligations.BlocksActAtTheirEnd : Prop :=
  ∀ i s t c slot, actsAtBlockEnd i = true → s.run.acting = some (.seq c, slot) → exec i s = .next t →
    t.mem = s.mem ∧
    (∀ d, d ≠ c → t.fab.core d = s.fab.core d) ∧
    keptSequencer (t.fab.core c) = keptSequencer (s.fab.core c) ∧
    keptUnits t.fab.units = keptUnits s.fab.units ∧
    ∀ r, keptRegion (t.fab.region r) = keptRegion (s.fab.region r)

namespace Sys2Proof.Claims

/-- A byte address lies outside the bytes of a lane. -/
def Outside (a : Nat) (l : MemLane) : Prop := a < l.pa ∨ l.pa + l.n ≤ a

/-- R3, R182, R367: what a store unit changes in memory when it is performed: every byte outside its lanes stays, and each byte of a
store's lane that no later lane of the unit covers is that byte of the lane's data, the least significant at the lowest address. -/
def StoresWriteTheirBytesPart : Prop :=
  ∀ s t id u, s.fab.units.stores.find? (fun u => u.id = id) = some u → u.performed = false → s.fab.holdsAll u = true →
    (s.fab.region u.region).redo = [] →
    exec (.storeUnitPerform id) s = .next t →
    (∀ a, (∀ l ∈ u.lanes, Outside a l) → t.mem.byte a = s.mem.byte a) ∧
    ∀ pre l post j, u.lanes = pre ++ l :: post → l.op = 0 → j < l.n → (∀ x ∈ post, Outside (l.pa + j) x) →
      (t.mem.byte (l.pa + j)).toNat = l.data / 256 ^ j % 256

/-- R3: a number stored in `n` bytes is stored little-endian and reads back reduced to those bytes; bytes outside are unchanged. -/
def MemoryLittleEndian : Prop :=
  ∀ (m : Memory) (a n v : Nat),
    (m.writeNat a n v).readNat a n = v % 256 ^ n ∧
    (∀ i, i < n → ((m.writeNat a n v).byte (a + i)).toNat = v / 256 ^ i % 256) ∧
    ∀ c, c < a ∨ a + n ≤ c → (m.writeNat a n v).byte c = m.byte c

end Sys2Proof.Claims

/-- A performed store unit writes its bytes, little-endian, and no other byte. -/
def Obligations.StoresWriteTheirBytes : Prop :=
  StoresWriteTheirBytesPart ∧ MemoryLittleEndian

/-- R291: a translation of a page of HBM agrees with the tag of the granule at the page's base: its LAYOUT and SEAL are the tag's,
and a sealed one is its owner's. So no context translates an address to a granule that is sealed to another. -/
def Obligations.SealedFramesKept : Prop :=
  ∀ m x ctx va t, Machine.translate m x ctx va = .ok t → bitOf t.attr 4 = false →
    let g : FrameTag := sget {} m.tags (t.pa / 65536)
    bitOf t.attr 8 = g.layout ∧ bitOf t.attr 5 = g.isSealed ∧ (g.isSealed = true → g.owner = ctx)
end

