-- ==== Sys2Proof/Laws/Sparse.lean ====
section
/-!
SUPPORT. Reading, writing and the canonical form of the maps of Machine/Sparse.
-/

namespace Sys2Proof.Machine

variable {α : Type}

@[simp] theorem sfind_nil (i : Nat) : sfind ([] : Sparse α) i = none := rfl

@[simp] theorem sget_nil (d : α) (i : Nat) : sget d ([] : Sparse α) i = d := rfl

theorem sfind_sset_same (m : Sparse α) (i : Nat) (v : α) : sfind (sset m i v) i = some v := by
  induction m with
  | nil => simp [sset, sfind]
  | cons p r ih => simp only [sset]; split <;> (try split) <;> simp_all [sfind]

/-- Of two writes at one key the second stays. -/
@[simp] theorem sset_sset (m : Sparse α) (i : Nat) (v w : α) : sset (sset m i v) i w = sset m i w := by
  induction m with
  | nil => simp [sset]
  | cons p r ih =>
    obtain ⟨k, u⟩ := p
    simp only [sset]
    split
    · simp [sset]
    · split
      · subst_vars; simp [sset]
      · rename_i h1 h2; simp [sset, h1, h2, ih]

theorem sfind_sset_other (m : Sparse α) {i j : Nat} (v : α) (h : j ≠ i) : sfind (sset m i v) j = sfind m j := by
  induction m with
  | nil => simp [sset, sfind, h]
  | cons p r ih => simp only [sset]; split <;> (try split) <;> simp_all [sfind]

theorem sfind_sdel_other (m : Sparse α) {i j : Nat} (h : j ≠ i) :
    sfind (sdel m i) j = sfind m j := by
  unfold sdel
  induction m with
  | nil => rfl
  | cons p r ih =>
    obtain ⟨k, w⟩ := p
    by_cases hk : k = i
    · subst hk; rw [List.filter_cons_of_neg (by simp), ih]; simp [sfind, h]
    · rw [List.filter_cons_of_pos (by simpa using hk)]; simp only [sfind, ih]

theorem sfind_sdel_same (m : Sparse α) (i : Nat) : sfind (sdel m i) i = none := by
  unfold sdel
  induction m with
  | nil => rfl
  | cons p r ih =>
    obtain ⟨k, w⟩ := p
    by_cases hk : k = i
    · subst hk; rw [List.filter_cons_of_neg (by simp), ih]
    · rw [List.filter_cons_of_pos (by simpa using hk)]; simp only [sfind, Ne.symm hk, if_false]; exact ih

@[simp] theorem sget_sset_same (d : α) (m : Sparse α) (i : Nat) (v : α) : sget d (sset m i v) i = v := by
  simp [sget, sfind_sset_same]

theorem sget_sset_other (d : α) (m : Sparse α) {i j : Nat} (v : α) (h : j ≠ i) : sget d (sset m i v) j = sget d m j := by
  simp [sget, sfind_sset_other m v h]

@[simp] theorem sget_smod_same (d : α) (m : Sparse α) (i : Nat) (f : α → α) : sget d (smod d m i f) i = f (sget d m i) := by
  simp [smod]

theorem sget_smod_other (d : α) (m : Sparse α) {i j : Nat} (f : α → α) (h : j ≠ i) :
    sget d (smod d m i f) j = sget d m j := by
  simp [smod, sget_sset_other d m _ h]

@[simp] theorem sget_sput_same [DecidableEq α] (d : α) (m : Sparse α) (i : Nat) (v : α) : sget d (sput d m i v) i = v := by
  unfold sput; split
  · rename_i h; simp [sget, sfind_sdel_same, h]
  · simp

theorem sget_sput_other [DecidableEq α] (d : α) (m : Sparse α) {i j : Nat} (v : α) (h : j ≠ i) :
    sget d (sput d m i v) j = sget d m j := by
  unfold sput; split
  · simp [sget, sfind_sdel_other m h]
  · exact sget_sset_other d m v h

/-- A key listed by `sset` is the new one or was listed before. -/
theorem mem_sset {m : Sparse α} {i : Nat} {v : α} {p : Nat × α} (h : p ∈ sset m i v) : p = (i, v) ∨ p ∈ m := by
  induction m with
  | nil => exact .inl (List.mem_singleton.1 h)
  | cons q r ih => unfold sset at h; grind

theorem sset_rising {m : Sparse α} (h : m.Pairwise fun a b => a.1 < b.1) (i : Nat) (v : α) :
    (sset m i v).Pairwise fun a b => a.1 < b.1 := by
  induction m with
  | nil => simp [sset]
  | cons q r ih =>
    rw [List.pairwise_cons] at h
    simp only [sset]
    split
    · rename_i hi
      refine List.pairwise_cons.2 ⟨?_, List.pairwise_cons.2 h⟩
      intro b hb
      rcases List.mem_cons.1 hb with hb | hb
      · subst hb; exact hi
      · exact Nat.lt_trans hi (h.1 b hb)
    · split
      · rename_i hi
        subst hi
        exact List.pairwise_cons.2 h
      · rename_i h1 h2
        refine List.pairwise_cons.2 ⟨?_, ih h.2⟩
        intro b hb
        rcases mem_sset hb with hb | hb
        · subst hb; simp; omega
        · exact h.1 b hb

/-- Writing keeps the canonical form. -/
theorem sput_wf [DecidableEq α] {d : α} {m : Sparse α} (h : Swf d m) (i : Nat) (v : α) : Swf d (sput d m i v) := by
  unfold sput
  split
  · exact ⟨h.1.filter _, fun p hp => h.2 p (List.mem_of_mem_filter hp)⟩
  · refine ⟨sset_rising h.1 i v, fun p hp => ?_⟩
    rcases mem_sset hp with hp | hp
    · subst hp; assumption
    · exact h.2 p hp

/-- Dropping entries keeps the canonical form. -/
theorem filter_wf [DecidableEq α] {d : α} {m : Sparse α} (h : Swf d m) (p : Nat × α → Bool) : Swf d (m.filter p) :=
  ⟨h.1.filter _, fun q hq => h.2 q (List.mem_of_mem_filter hq)⟩

end Sys2Proof.Machine
end

