-- ==== Sys2Proof/Laws/State.lean ====
section
/-!
SUPPORT. What each update of the state leaves of its fields: one lemma for each field and update, true by unfolding.
-/

namespace Sys2Proof.Machine

/-! ### The state and the fabric -/

@[simp] theorem State.onFabric_mem (s : State) (g : Fabric → Fabric) : (s.onFabric g).mem = s.mem := rfl
@[simp] theorem State.onFabric_run (s : State) (g : Fabric → Fabric) : (s.onFabric g).run = s.run := rfl

@[simp] theorem State.onFabric_fab (s : State) (g : Fabric → Fabric) : (s.onFabric g).fab = g s.fab := rfl

@[simp] theorem Fabric.modCore_units (f : Fabric) (c : Nat) (g : Core → Core) : (f.modCore c g).units = f.units := rfl

@[simp] theorem Fabric.modUnits_cores (f : Fabric) (g : Units → Units) : (f.modUnits g).cores = f.cores := rfl

@[simp] theorem Fabric.modUnits_units (f : Fabric) (g : Units → Units) : (f.modUnits g).units = g f.units := rfl

@[simp] theorem Fabric.modRegion_cores (f : Fabric) (r : Nat) (g : Region → Region) : (f.modRegion r g).cores = f.cores := rfl

@[simp] theorem Fabric.modContext_cores (f : Fabric) (x : Nat) (g : Context → Context) : (f.modContext x g).cores = f.cores := rfl

@[simp] theorem Fabric.sinkAll_cores (f : Fabric) (p : LinkUnit → Bool) : (f.sinkAll p).cores = f.cores := rfl
@[simp] theorem Fabric.sink_cores (f : Fabric) (x : LinkUnit) : (f.sink x).cores = f.cores := rfl
@[simp] theorem Fabric.modRegion_mesh (f : Fabric) (r : Nat) (g : Region → Region) : (f.modRegion r g).units.mesh = f.units.mesh := rfl
@[simp] theorem Fabric.modRegion_links (f : Fabric) (r : Nat) (g : Region → Region) : (f.modRegion r g).units.links = f.units.links := rfl
@[simp] theorem Fabric.modRegion_walks (f : Fabric) (r : Nat) (g : Region → Region) : (f.modRegion r g).units.walks = f.units.walks := rfl
@[simp] theorem Fabric.modContext_mesh (f : Fabric) (x : Nat) (g : Context → Context) : (f.modContext x g).units.mesh = f.units.mesh := rfl
@[simp] theorem Fabric.modContext_links (f : Fabric) (x : Nat) (g : Context → Context) : (f.modContext x g).units.links = f.units.links := rfl
@[simp] theorem Fabric.modContext_walks (f : Fabric) (x : Nat) (g : Context → Context) : (f.modContext x g).units.walks = f.units.walks := rfl

/-! ### A core -/

@[simp] theorem Core.modActor_site (k : Core) (a : Nat) (g : Actor → Actor) : (k.modActor a g).site = k.site := rfl
@[simp] theorem Core.modActor_lastRegion (k : Core) (a : Nat) (g : Actor → Actor) : (k.modActor a g).lastRegion = k.lastRegion := rfl
@[simp] theorem Core.modActor_group (k : Core) (a : Nat) (g : Actor → Actor) : (k.modActor a g).group = k.group := rfl
@[simp] theorem Core.modActor_incoming (k : Core) (a : Nat) (g : Actor → Actor) : (k.modActor a g).incoming = k.incoming := rfl
@[simp] theorem Core.modActor_bindExec (k : Core) (a : Nat) (g : Actor → Actor) : (k.modActor a g).bindExec = k.bindExec := rfl
@[simp] theorem Core.modActor_plane (k : Core) (a : Nat) (g : Actor → Actor) : (k.modActor a g).plane = k.plane := rfl
@[simp] theorem Core.modActor_kindling (k : Core) (a : Nat) (g : Actor → Actor) : (k.modActor a g).kindling = k.kindling := rfl
@[simp] theorem Core.modActor_kplane (k : Core) (a : Nat) (g : Actor → Actor) : (k.modActor a g).kplane = k.kplane := rfl
@[simp] theorem Core.modActor_seq (k : Core) (a : Nat) (g : Actor → Actor) : (k.modActor a g).seq = k.seq := rfl
@[simp] theorem Core.modActor_counts (k : Core) (a : Nat) (g : Actor → Actor) : (k.modActor a g).counts = k.counts := rfl
@[simp] theorem Core.modActor_ptrU (k : Core) (a : Nat) (g : Actor → Actor) : (k.modActor a g).ptrU = k.ptrU := rfl
@[simp] theorem Core.modActor_ptrN (k : Core) (a : Nat) (g : Actor → Actor) : (k.modActor a g).ptrN = k.ptrN := rfl
@[simp] theorem Core.modActor_picks (k : Core) (a : Nat) (g : Actor → Actor) : (k.modActor a g).picks = k.picks := rfl
@[simp] theorem Core.modActor_barWait (k : Core) (a : Nat) (g : Actor → Actor) : (k.modActor a g).barWait = k.barWait := rfl
@[simp] theorem Core.modActor_wins (k : Core) (a : Nat) (g : Actor → Actor) : (k.modActor a g).wins = k.wins := rfl
@[simp] theorem Core.modActor_rows (k : Core) (a : Nat) (g : Actor → Actor) : (k.modActor a g).rows = k.rows := rfl
@[simp] theorem Core.modActor_mx (k : Core) (a : Nat) (g : Actor → Actor) : (k.modActor a g).mx = k.mx := rfl
@[simp] theorem Core.modActor_eng (k : Core) (a : Nat) (g : Actor → Actor) : (k.modActor a g).eng = k.eng := rfl
@[simp] theorem Core.modActor_bars (k : Core) (a : Nat) (g : Actor → Actor) : (k.modActor a g).bars = k.bars := rfl
@[simp] theorem Core.modActor_tlb (k : Core) (a : Nat) (g : Actor → Actor) : (k.modActor a g).tlb = k.tlb := rfl
@[simp] theorem Core.modActor_askers (k : Core) (a : Nat) (g : Actor → Actor) : (k.modActor a g).askers = k.askers := rfl
@[simp] theorem Core.modActor_misses (k : Core) (a : Nat) (g : Actor → Actor) : (k.modActor a g).misses = k.misses := rfl
@[simp] theorem Core.modActor_missWait (k : Core) (a : Nat) (g : Actor → Actor) : (k.modActor a g).missWait = k.missWait := rfl
@[simp] theorem Core.modActor_faults (k : Core) (a : Nat) (g : Actor → Actor) : (k.modActor a g).faults = k.faults := rfl
@[simp] theorem Core.modActor_credits (k : Core) (a : Nat) (g : Actor → Actor) : (k.modActor a g).credits = k.credits := rfl
@[simp] theorem Core.modActor_ends (k : Core) (a : Nat) (g : Actor → Actor) : (k.modActor a g).ends = k.ends := rfl
@[simp] theorem Core.modActor_opers (k : Core) (a : Nat) (g : Actor → Actor) : (k.modActor a g).opers = k.opers := rfl
@[simp] theorem Core.modActor_dbg (k : Core) (a : Nat) (g : Actor → Actor) : (k.modActor a g).dbg = k.dbg := rfl
@[simp] theorem Core.modActor_passed (k : Core) (a : Nat) (g : Actor → Actor) : (k.modActor a g).passed = k.passed := rfl
@[simp] theorem Core.modActor_saving (k : Core) (a : Nat) (g : Actor → Actor) : (k.modActor a g).saving = k.saving := rfl
@[simp] theorem Core.modActor_cutDone (k : Core) (a : Nat) (g : Actor → Actor) : (k.modActor a g).cutDone = k.cutDone := rfl
@[simp] theorem Core.modActor_slotBack (k : Core) (a : Nat) (g : Actor → Actor) : (k.modActor a g).slotBack = k.slotBack := rfl
@[simp] theorem Core.modActor_commitAt (k : Core) (a : Nat) (g : Actor → Actor) : (k.modActor a g).commitAt = k.commitAt := rfl
@[simp] theorem Core.modActor_marking (k : Core) (a : Nat) (g : Actor → Actor) : (k.modActor a g).marking = k.marking := rfl
@[simp] theorem Core.modActor_gangHold (k : Core) (a : Nat) (g : Actor → Actor) : (k.modActor a g).gangHold = k.gangHold := rfl

@[simp] theorem Core.modWin_site (k : Core) (w : Nat) (g : Win → Win) : (k.modWin w g).site = k.site := rfl
@[simp] theorem Core.modWin_lastRegion (k : Core) (w : Nat) (g : Win → Win) : (k.modWin w g).lastRegion = k.lastRegion := rfl
@[simp] theorem Core.modWin_group (k : Core) (w : Nat) (g : Win → Win) : (k.modWin w g).group = k.group := rfl
@[simp] theorem Core.modWin_incoming (k : Core) (w : Nat) (g : Win → Win) : (k.modWin w g).incoming = k.incoming := rfl
@[simp] theorem Core.modWin_bindExec (k : Core) (w : Nat) (g : Win → Win) : (k.modWin w g).bindExec = k.bindExec := rfl
@[simp] theorem Core.modWin_plane (k : Core) (w : Nat) (g : Win → Win) : (k.modWin w g).plane = k.plane := rfl
@[simp] theorem Core.modWin_kindling (k : Core) (w : Nat) (g : Win → Win) : (k.modWin w g).kindling = k.kindling := rfl
@[simp] theorem Core.modWin_kplane (k : Core) (w : Nat) (g : Win → Win) : (k.modWin w g).kplane = k.kplane := rfl
@[simp] theorem Core.modWin_seq (k : Core) (w : Nat) (g : Win → Win) : (k.modWin w g).seq = k.seq := rfl
@[simp] theorem Core.modWin_counts (k : Core) (w : Nat) (g : Win → Win) : (k.modWin w g).counts = k.counts := rfl
@[simp] theorem Core.modWin_actors (k : Core) (w : Nat) (g : Win → Win) : (k.modWin w g).actors = k.actors := rfl
@[simp] theorem Core.modWin_ptrU (k : Core) (w : Nat) (g : Win → Win) : (k.modWin w g).ptrU = k.ptrU := rfl
@[simp] theorem Core.modWin_ptrN (k : Core) (w : Nat) (g : Win → Win) : (k.modWin w g).ptrN = k.ptrN := rfl
@[simp] theorem Core.modWin_picks (k : Core) (w : Nat) (g : Win → Win) : (k.modWin w g).picks = k.picks := rfl
@[simp] theorem Core.modWin_barWait (k : Core) (w : Nat) (g : Win → Win) : (k.modWin w g).barWait = k.barWait := rfl
@[simp] theorem Core.modWin_rows (k : Core) (w : Nat) (g : Win → Win) : (k.modWin w g).rows = k.rows := rfl
@[simp] theorem Core.modWin_mx (k : Core) (w : Nat) (g : Win → Win) : (k.modWin w g).mx = k.mx := rfl
@[simp] theorem Core.modWin_eng (k : Core) (w : Nat) (g : Win → Win) : (k.modWin w g).eng = k.eng := rfl
@[simp] theorem Core.modWin_bars (k : Core) (w : Nat) (g : Win → Win) : (k.modWin w g).bars = k.bars := rfl
@[simp] theorem Core.modWin_tlb (k : Core) (w : Nat) (g : Win → Win) : (k.modWin w g).tlb = k.tlb := rfl
@[simp] theorem Core.modWin_askers (k : Core) (w : Nat) (g : Win → Win) : (k.modWin w g).askers = k.askers := rfl
@[simp] theorem Core.modWin_misses (k : Core) (w : Nat) (g : Win → Win) : (k.modWin w g).misses = k.misses := rfl
@[simp] theorem Core.modWin_missWait (k : Core) (w : Nat) (g : Win → Win) : (k.modWin w g).missWait = k.missWait := rfl
@[simp] theorem Core.modWin_faults (k : Core) (w : Nat) (g : Win → Win) : (k.modWin w g).faults = k.faults := rfl
@[simp] theorem Core.modWin_credits (k : Core) (w : Nat) (g : Win → Win) : (k.modWin w g).credits = k.credits := rfl
@[simp] theorem Core.modWin_ends (k : Core) (w : Nat) (g : Win → Win) : (k.modWin w g).ends = k.ends := rfl
@[simp] theorem Core.modWin_opers (k : Core) (w : Nat) (g : Win → Win) : (k.modWin w g).opers = k.opers := rfl
@[simp] theorem Core.modWin_dbg (k : Core) (w : Nat) (g : Win → Win) : (k.modWin w g).dbg = k.dbg := rfl
@[simp] theorem Core.modWin_passed (k : Core) (w : Nat) (g : Win → Win) : (k.modWin w g).passed = k.passed := rfl
@[simp] theorem Core.modWin_saving (k : Core) (w : Nat) (g : Win → Win) : (k.modWin w g).saving = k.saving := rfl
@[simp] theorem Core.modWin_cutDone (k : Core) (w : Nat) (g : Win → Win) : (k.modWin w g).cutDone = k.cutDone := rfl
@[simp] theorem Core.modWin_slotBack (k : Core) (w : Nat) (g : Win → Win) : (k.modWin w g).slotBack = k.slotBack := rfl
@[simp] theorem Core.modWin_commitAt (k : Core) (w : Nat) (g : Win → Win) : (k.modWin w g).commitAt = k.commitAt := rfl
@[simp] theorem Core.modWin_marking (k : Core) (w : Nat) (g : Win → Win) : (k.modWin w g).marking = k.marking := rfl
@[simp] theorem Core.modWin_gangHold (k : Core) (w : Nat) (g : Win → Win) : (k.modWin w g).gangHold = k.gangHold := rfl

@[simp] theorem Core.setRow_site (k : Core) (r : Nat) (t : Tok) : (k.setRow r t).site = k.site := rfl
@[simp] theorem Core.setRow_lastRegion (k : Core) (r : Nat) (t : Tok) : (k.setRow r t).lastRegion = k.lastRegion := rfl
@[simp] theorem Core.setRow_group (k : Core) (r : Nat) (t : Tok) : (k.setRow r t).group = k.group := rfl
@[simp] theorem Core.setRow_incoming (k : Core) (r : Nat) (t : Tok) : (k.setRow r t).incoming = k.incoming := rfl
@[simp] theorem Core.setRow_bindExec (k : Core) (r : Nat) (t : Tok) : (k.setRow r t).bindExec = k.bindExec := rfl
@[simp] theorem Core.setRow_plane (k : Core) (r : Nat) (t : Tok) : (k.setRow r t).plane = k.plane := rfl
@[simp] theorem Core.setRow_kindling (k : Core) (r : Nat) (t : Tok) : (k.setRow r t).kindling = k.kindling := rfl
@[simp] theorem Core.setRow_kplane (k : Core) (r : Nat) (t : Tok) : (k.setRow r t).kplane = k.kplane := rfl
@[simp] theorem Core.setRow_seq (k : Core) (r : Nat) (t : Tok) : (k.setRow r t).seq = k.seq := rfl
@[simp] theorem Core.setRow_counts (k : Core) (r : Nat) (t : Tok) : (k.setRow r t).counts = k.counts := rfl
@[simp] theorem Core.setRow_actors (k : Core) (r : Nat) (t : Tok) : (k.setRow r t).actors = k.actors := rfl
@[simp] theorem Core.setRow_ptrU (k : Core) (r : Nat) (t : Tok) : (k.setRow r t).ptrU = k.ptrU := rfl
@[simp] theorem Core.setRow_ptrN (k : Core) (r : Nat) (t : Tok) : (k.setRow r t).ptrN = k.ptrN := rfl
@[simp] theorem Core.setRow_picks (k : Core) (r : Nat) (t : Tok) : (k.setRow r t).picks = k.picks := rfl
@[simp] theorem Core.setRow_barWait (k : Core) (r : Nat) (t : Tok) : (k.setRow r t).barWait = k.barWait := rfl
@[simp] theorem Core.setRow_wins (k : Core) (r : Nat) (t : Tok) : (k.setRow r t).wins = k.wins := rfl
@[simp] theorem Core.setRow_mx (k : Core) (r : Nat) (t : Tok) : (k.setRow r t).mx = k.mx := rfl
@[simp] theorem Core.setRow_eng (k : Core) (r : Nat) (t : Tok) : (k.setRow r t).eng = k.eng := rfl
@[simp] theorem Core.setRow_bars (k : Core) (r : Nat) (t : Tok) : (k.setRow r t).bars = k.bars := rfl
@[simp] theorem Core.setRow_tlb (k : Core) (r : Nat) (t : Tok) : (k.setRow r t).tlb = k.tlb := rfl
@[simp] theorem Core.setRow_askers (k : Core) (r : Nat) (t : Tok) : (k.setRow r t).askers = k.askers := rfl
@[simp] theorem Core.setRow_misses (k : Core) (r : Nat) (t : Tok) : (k.setRow r t).misses = k.misses := rfl
@[simp] theorem Core.setRow_missWait (k : Core) (r : Nat) (t : Tok) : (k.setRow r t).missWait = k.missWait := rfl
@[simp] theorem Core.setRow_faults (k : Core) (r : Nat) (t : Tok) : (k.setRow r t).faults = k.faults := rfl
@[simp] theorem Core.setRow_credits (k : Core) (r : Nat) (t : Tok) : (k.setRow r t).credits = k.credits := rfl
@[simp] theorem Core.setRow_ends (k : Core) (r : Nat) (t : Tok) : (k.setRow r t).ends = k.ends := rfl
@[simp] theorem Core.setRow_opers (k : Core) (r : Nat) (t : Tok) : (k.setRow r t).opers = k.opers := rfl
@[simp] theorem Core.setRow_dbg (k : Core) (r : Nat) (t : Tok) : (k.setRow r t).dbg = k.dbg := rfl
@[simp] theorem Core.setRow_passed (k : Core) (r : Nat) (t : Tok) : (k.setRow r t).passed = k.passed := rfl
@[simp] theorem Core.setRow_saving (k : Core) (r : Nat) (t : Tok) : (k.setRow r t).saving = k.saving := rfl
@[simp] theorem Core.setRow_cutDone (k : Core) (r : Nat) (t : Tok) : (k.setRow r t).cutDone = k.cutDone := rfl
@[simp] theorem Core.setRow_slotBack (k : Core) (r : Nat) (t : Tok) : (k.setRow r t).slotBack = k.slotBack := rfl
@[simp] theorem Core.setRow_commitAt (k : Core) (r : Nat) (t : Tok) : (k.setRow r t).commitAt = k.commitAt := rfl
@[simp] theorem Core.setRow_marking (k : Core) (r : Nat) (t : Tok) : (k.setRow r t).marking = k.marking := rfl
@[simp] theorem Core.setRow_gangHold (k : Core) (r : Nat) (t : Tok) : (k.setRow r t).gangHold = k.gangHold := rfl

@[simp] theorem Core.crossed_site (k : Core) (n : Nat) : (k.crossed n).site = k.site := rfl
@[simp] theorem Core.crossed_lastRegion (k : Core) (n : Nat) : (k.crossed n).lastRegion = k.lastRegion := rfl
@[simp] theorem Core.crossed_group (k : Core) (n : Nat) : (k.crossed n).group = k.group := rfl
@[simp] theorem Core.crossed_incoming (k : Core) (n : Nat) : (k.crossed n).incoming = k.incoming := rfl
@[simp] theorem Core.crossed_bindExec (k : Core) (n : Nat) : (k.crossed n).bindExec = k.bindExec := rfl
@[simp] theorem Core.crossed_plane (k : Core) (n : Nat) : (k.crossed n).plane = k.plane := rfl
@[simp] theorem Core.crossed_kindling (k : Core) (n : Nat) : (k.crossed n).kindling = k.kindling := rfl
@[simp] theorem Core.crossed_kplane (k : Core) (n : Nat) : (k.crossed n).kplane = k.kplane := rfl
@[simp] theorem Core.crossed_seq (k : Core) (n : Nat) : (k.crossed n).seq = k.seq := rfl
@[simp] theorem Core.crossed_counts (k : Core) (n : Nat) : (k.crossed n).counts = k.counts := rfl
@[simp] theorem Core.crossed_actors (k : Core) (n : Nat) : (k.crossed n).actors = k.actors := rfl
@[simp] theorem Core.crossed_ptrU (k : Core) (n : Nat) : (k.crossed n).ptrU = k.ptrU := rfl
@[simp] theorem Core.crossed_ptrN (k : Core) (n : Nat) : (k.crossed n).ptrN = k.ptrN := rfl
@[simp] theorem Core.crossed_picks (k : Core) (n : Nat) : (k.crossed n).picks = k.picks := rfl
@[simp] theorem Core.crossed_barWait (k : Core) (n : Nat) : (k.crossed n).barWait = k.barWait := rfl
@[simp] theorem Core.crossed_wins (k : Core) (n : Nat) : (k.crossed n).wins = k.wins := rfl
@[simp] theorem Core.crossed_rows (k : Core) (n : Nat) : (k.crossed n).rows = k.rows := rfl
@[simp] theorem Core.crossed_mx (k : Core) (n : Nat) : (k.crossed n).mx = k.mx := rfl
@[simp] theorem Core.crossed_eng (k : Core) (n : Nat) : (k.crossed n).eng = k.eng := rfl
@[simp] theorem Core.crossed_bars (k : Core) (n : Nat) : (k.crossed n).bars = k.bars := rfl
@[simp] theorem Core.crossed_tlb (k : Core) (n : Nat) : (k.crossed n).tlb = k.tlb := rfl
@[simp] theorem Core.crossed_askers (k : Core) (n : Nat) : (k.crossed n).askers = k.askers := rfl
@[simp] theorem Core.crossed_misses (k : Core) (n : Nat) : (k.crossed n).misses = k.misses := rfl
@[simp] theorem Core.crossed_missWait (k : Core) (n : Nat) : (k.crossed n).missWait = k.missWait := rfl
@[simp] theorem Core.crossed_faults (k : Core) (n : Nat) : (k.crossed n).faults = k.faults := rfl
@[simp] theorem Core.crossed_credits (k : Core) (n : Nat) : (k.crossed n).credits = k.credits := rfl
@[simp] theorem Core.crossed_ends (k : Core) (n : Nat) : (k.crossed n).ends = k.ends := rfl
@[simp] theorem Core.crossed_opers (k : Core) (n : Nat) : (k.crossed n).opers = k.opers := rfl
@[simp] theorem Core.crossed_passed (k : Core) (n : Nat) : (k.crossed n).passed = k.passed := rfl
@[simp] theorem Core.crossed_saving (k : Core) (n : Nat) : (k.crossed n).saving = k.saving := rfl
@[simp] theorem Core.crossed_cutDone (k : Core) (n : Nat) : (k.crossed n).cutDone = k.cutDone := rfl
@[simp] theorem Core.crossed_slotBack (k : Core) (n : Nat) : (k.crossed n).slotBack = k.slotBack := rfl
@[simp] theorem Core.crossed_commitAt (k : Core) (n : Nat) : (k.crossed n).commitAt = k.commitAt := rfl
@[simp] theorem Core.crossed_marking (k : Core) (n : Nat) : (k.crossed n).marking = k.marking := rfl
@[simp] theorem Core.crossed_gangHold (k : Core) (n : Nat) : (k.crossed n).gangHold = k.gangHold := rfl

@[simp] theorem Core.fillWin_site (k : Core) (w : Nat) (t : Tok) : (k.fillWin w t).site = k.site := rfl
@[simp] theorem Core.fillWin_lastRegion (k : Core) (w : Nat) (t : Tok) : (k.fillWin w t).lastRegion = k.lastRegion := rfl
@[simp] theorem Core.fillWin_group (k : Core) (w : Nat) (t : Tok) : (k.fillWin w t).group = k.group := rfl
@[simp] theorem Core.fillWin_incoming (k : Core) (w : Nat) (t : Tok) : (k.fillWin w t).incoming = k.incoming := rfl
@[simp] theorem Core.fillWin_bindExec (k : Core) (w : Nat) (t : Tok) : (k.fillWin w t).bindExec = k.bindExec := rfl
@[simp] theorem Core.fillWin_plane (k : Core) (w : Nat) (t : Tok) : (k.fillWin w t).plane = k.plane := rfl
@[simp] theorem Core.fillWin_kindling (k : Core) (w : Nat) (t : Tok) : (k.fillWin w t).kindling = k.kindling := rfl
@[simp] theorem Core.fillWin_kplane (k : Core) (w : Nat) (t : Tok) : (k.fillWin w t).kplane = k.kplane := rfl
@[simp] theorem Core.fillWin_seq (k : Core) (w : Nat) (t : Tok) : (k.fillWin w t).seq = k.seq := rfl
@[simp] theorem Core.fillWin_counts (k : Core) (w : Nat) (t : Tok) : (k.fillWin w t).counts = k.counts := rfl
@[simp] theorem Core.fillWin_actors (k : Core) (w : Nat) (t : Tok) : (k.fillWin w t).actors = k.actors := rfl
@[simp] theorem Core.fillWin_ptrU (k : Core) (w : Nat) (t : Tok) : (k.fillWin w t).ptrU = k.ptrU := rfl
@[simp] theorem Core.fillWin_ptrN (k : Core) (w : Nat) (t : Tok) : (k.fillWin w t).ptrN = k.ptrN := rfl
@[simp] theorem Core.fillWin_picks (k : Core) (w : Nat) (t : Tok) : (k.fillWin w t).picks = k.picks := rfl
@[simp] theorem Core.fillWin_barWait (k : Core) (w : Nat) (t : Tok) : (k.fillWin w t).barWait = k.barWait := rfl
@[simp] theorem Core.fillWin_mx (k : Core) (w : Nat) (t : Tok) : (k.fillWin w t).mx = k.mx := rfl
@[simp] theorem Core.fillWin_eng (k : Core) (w : Nat) (t : Tok) : (k.fillWin w t).eng = k.eng := rfl
@[simp] theorem Core.fillWin_bars (k : Core) (w : Nat) (t : Tok) : (k.fillWin w t).bars = k.bars := rfl
@[simp] theorem Core.fillWin_tlb (k : Core) (w : Nat) (t : Tok) : (k.fillWin w t).tlb = k.tlb := rfl
@[simp] theorem Core.fillWin_askers (k : Core) (w : Nat) (t : Tok) : (k.fillWin w t).askers = k.askers := rfl
@[simp] theorem Core.fillWin_misses (k : Core) (w : Nat) (t : Tok) : (k.fillWin w t).misses = k.misses := rfl
@[simp] theorem Core.fillWin_missWait (k : Core) (w : Nat) (t : Tok) : (k.fillWin w t).missWait = k.missWait := rfl
@[simp] theorem Core.fillWin_faults (k : Core) (w : Nat) (t : Tok) : (k.fillWin w t).faults = k.faults := rfl
@[simp] theorem Core.fillWin_credits (k : Core) (w : Nat) (t : Tok) : (k.fillWin w t).credits = k.credits := rfl
@[simp] theorem Core.fillWin_ends (k : Core) (w : Nat) (t : Tok) : (k.fillWin w t).ends = k.ends := rfl
@[simp] theorem Core.fillWin_opers (k : Core) (w : Nat) (t : Tok) : (k.fillWin w t).opers = k.opers := rfl
@[simp] theorem Core.fillWin_passed (k : Core) (w : Nat) (t : Tok) : (k.fillWin w t).passed = k.passed := rfl
@[simp] theorem Core.fillWin_saving (k : Core) (w : Nat) (t : Tok) : (k.fillWin w t).saving = k.saving := rfl
@[simp] theorem Core.fillWin_cutDone (k : Core) (w : Nat) (t : Tok) : (k.fillWin w t).cutDone = k.cutDone := rfl
@[simp] theorem Core.fillWin_slotBack (k : Core) (w : Nat) (t : Tok) : (k.fillWin w t).slotBack = k.slotBack := rfl
@[simp] theorem Core.fillWin_commitAt (k : Core) (w : Nat) (t : Tok) : (k.fillWin w t).commitAt = k.commitAt := rfl
@[simp] theorem Core.fillWin_marking (k : Core) (w : Nat) (t : Tok) : (k.fillWin w t).marking = k.marking := rfl
@[simp] theorem Core.fillWin_gangHold (k : Core) (w : Nat) (t : Tok) : (k.fillWin w t).gangHold = k.gangHold := rfl

@[simp] theorem Core.shrinkWin_site (k : Core) (w n : Nat) : (k.shrinkWin w n).site = k.site := rfl
@[simp] theorem Core.shrinkWin_lastRegion (k : Core) (w n : Nat) : (k.shrinkWin w n).lastRegion = k.lastRegion := rfl
@[simp] theorem Core.shrinkWin_group (k : Core) (w n : Nat) : (k.shrinkWin w n).group = k.group := rfl
@[simp] theorem Core.shrinkWin_incoming (k : Core) (w n : Nat) : (k.shrinkWin w n).incoming = k.incoming := rfl
@[simp] theorem Core.shrinkWin_bindExec (k : Core) (w n : Nat) : (k.shrinkWin w n).bindExec = k.bindExec := rfl
@[simp] theorem Core.shrinkWin_plane (k : Core) (w n : Nat) : (k.shrinkWin w n).plane = k.plane := rfl
@[simp] theorem Core.shrinkWin_kindling (k : Core) (w n : Nat) : (k.shrinkWin w n).kindling = k.kindling := rfl
@[simp] theorem Core.shrinkWin_kplane (k : Core) (w n : Nat) : (k.shrinkWin w n).kplane = k.kplane := rfl
@[simp] theorem Core.shrinkWin_seq (k : Core) (w n : Nat) : (k.shrinkWin w n).seq = k.seq := rfl
@[simp] theorem Core.shrinkWin_counts (k : Core) (w n : Nat) : (k.shrinkWin w n).counts = k.counts := rfl
@[simp] theorem Core.shrinkWin_actors (k : Core) (w n : Nat) : (k.shrinkWin w n).actors = k.actors := rfl
@[simp] theorem Core.shrinkWin_ptrU (k : Core) (w n : Nat) : (k.shrinkWin w n).ptrU = k.ptrU := rfl
@[simp] theorem Core.shrinkWin_ptrN (k : Core) (w n : Nat) : (k.shrinkWin w n).ptrN = k.ptrN := rfl
@[simp] theorem Core.shrinkWin_picks (k : Core) (w n : Nat) : (k.shrinkWin w n).picks = k.picks := rfl
@[simp] theorem Core.shrinkWin_barWait (k : Core) (w n : Nat) : (k.shrinkWin w n).barWait = k.barWait := rfl
@[simp] theorem Core.shrinkWin_rows (k : Core) (w n : Nat) : (k.shrinkWin w n).rows = k.rows := rfl
@[simp] theorem Core.shrinkWin_mx (k : Core) (w n : Nat) : (k.shrinkWin w n).mx = k.mx := rfl
@[simp] theorem Core.shrinkWin_eng (k : Core) (w n : Nat) : (k.shrinkWin w n).eng = k.eng := rfl
@[simp] theorem Core.shrinkWin_bars (k : Core) (w n : Nat) : (k.shrinkWin w n).bars = k.bars := rfl
@[simp] theorem Core.shrinkWin_tlb (k : Core) (w n : Nat) : (k.shrinkWin w n).tlb = k.tlb := rfl
@[simp] theorem Core.shrinkWin_askers (k : Core) (w n : Nat) : (k.shrinkWin w n).askers = k.askers := rfl
@[simp] theorem Core.shrinkWin_misses (k : Core) (w n : Nat) : (k.shrinkWin w n).misses = k.misses := rfl
@[simp] theorem Core.shrinkWin_missWait (k : Core) (w n : Nat) : (k.shrinkWin w n).missWait = k.missWait := rfl
@[simp] theorem Core.shrinkWin_faults (k : Core) (w n : Nat) : (k.shrinkWin w n).faults = k.faults := rfl
@[simp] theorem Core.shrinkWin_credits (k : Core) (w n : Nat) : (k.shrinkWin w n).credits = k.credits := rfl
@[simp] theorem Core.shrinkWin_ends (k : Core) (w n : Nat) : (k.shrinkWin w n).ends = k.ends := rfl
@[simp] theorem Core.shrinkWin_opers (k : Core) (w n : Nat) : (k.shrinkWin w n).opers = k.opers := rfl
@[simp] theorem Core.shrinkWin_passed (k : Core) (w n : Nat) : (k.shrinkWin w n).passed = k.passed := rfl
@[simp] theorem Core.shrinkWin_saving (k : Core) (w n : Nat) : (k.shrinkWin w n).saving = k.saving := rfl
@[simp] theorem Core.shrinkWin_cutDone (k : Core) (w n : Nat) : (k.shrinkWin w n).cutDone = k.cutDone := rfl
@[simp] theorem Core.shrinkWin_slotBack (k : Core) (w n : Nat) : (k.shrinkWin w n).slotBack = k.slotBack := rfl
@[simp] theorem Core.shrinkWin_commitAt (k : Core) (w n : Nat) : (k.shrinkWin w n).commitAt = k.commitAt := rfl
@[simp] theorem Core.shrinkWin_marking (k : Core) (w n : Nat) : (k.shrinkWin w n).marking = k.marking := rfl
@[simp] theorem Core.shrinkWin_gangHold (k : Core) (w n : Nat) : (k.shrinkWin w n).gangHold = k.gangHold := rfl

@[simp] theorem Core.setAcc_site (k : Core) (r : Nat) (t : Tok) : (k.setAcc r t).site = k.site := rfl
@[simp] theorem Core.setAcc_lastRegion (k : Core) (r : Nat) (t : Tok) : (k.setAcc r t).lastRegion = k.lastRegion := rfl
@[simp] theorem Core.setAcc_group (k : Core) (r : Nat) (t : Tok) : (k.setAcc r t).group = k.group := rfl
@[simp] theorem Core.setAcc_incoming (k : Core) (r : Nat) (t : Tok) : (k.setAcc r t).incoming = k.incoming := rfl
@[simp] theorem Core.setAcc_bindExec (k : Core) (r : Nat) (t : Tok) : (k.setAcc r t).bindExec = k.bindExec := rfl
@[simp] theorem Core.setAcc_plane (k : Core) (r : Nat) (t : Tok) : (k.setAcc r t).plane = k.plane := rfl
@[simp] theorem Core.setAcc_kindling (k : Core) (r : Nat) (t : Tok) : (k.setAcc r t).kindling = k.kindling := rfl
@[simp] theorem Core.setAcc_kplane (k : Core) (r : Nat) (t : Tok) : (k.setAcc r t).kplane = k.kplane := rfl
@[simp] theorem Core.setAcc_seq (k : Core) (r : Nat) (t : Tok) : (k.setAcc r t).seq = k.seq := rfl
@[simp] theorem Core.setAcc_counts (k : Core) (r : Nat) (t : Tok) : (k.setAcc r t).counts = k.counts := rfl
@[simp] theorem Core.setAcc_actors (k : Core) (r : Nat) (t : Tok) : (k.setAcc r t).actors = k.actors := rfl
@[simp] theorem Core.setAcc_ptrU (k : Core) (r : Nat) (t : Tok) : (k.setAcc r t).ptrU = k.ptrU := rfl
@[simp] theorem Core.setAcc_ptrN (k : Core) (r : Nat) (t : Tok) : (k.setAcc r t).ptrN = k.ptrN := rfl
@[simp] theorem Core.setAcc_picks (k : Core) (r : Nat) (t : Tok) : (k.setAcc r t).picks = k.picks := rfl
@[simp] theorem Core.setAcc_barWait (k : Core) (r : Nat) (t : Tok) : (k.setAcc r t).barWait = k.barWait := rfl
@[simp] theorem Core.setAcc_wins (k : Core) (r : Nat) (t : Tok) : (k.setAcc r t).wins = k.wins := rfl
@[simp] theorem Core.setAcc_rows (k : Core) (r : Nat) (t : Tok) : (k.setAcc r t).rows = k.rows := rfl
@[simp] theorem Core.setAcc_eng (k : Core) (r : Nat) (t : Tok) : (k.setAcc r t).eng = k.eng := rfl
@[simp] theorem Core.setAcc_bars (k : Core) (r : Nat) (t : Tok) : (k.setAcc r t).bars = k.bars := rfl
@[simp] theorem Core.setAcc_tlb (k : Core) (r : Nat) (t : Tok) : (k.setAcc r t).tlb = k.tlb := rfl
@[simp] theorem Core.setAcc_askers (k : Core) (r : Nat) (t : Tok) : (k.setAcc r t).askers = k.askers := rfl
@[simp] theorem Core.setAcc_misses (k : Core) (r : Nat) (t : Tok) : (k.setAcc r t).misses = k.misses := rfl
@[simp] theorem Core.setAcc_missWait (k : Core) (r : Nat) (t : Tok) : (k.setAcc r t).missWait = k.missWait := rfl
@[simp] theorem Core.setAcc_faults (k : Core) (r : Nat) (t : Tok) : (k.setAcc r t).faults = k.faults := rfl
@[simp] theorem Core.setAcc_credits (k : Core) (r : Nat) (t : Tok) : (k.setAcc r t).credits = k.credits := rfl
@[simp] theorem Core.setAcc_ends (k : Core) (r : Nat) (t : Tok) : (k.setAcc r t).ends = k.ends := rfl
@[simp] theorem Core.setAcc_opers (k : Core) (r : Nat) (t : Tok) : (k.setAcc r t).opers = k.opers := rfl
@[simp] theorem Core.setAcc_dbg (k : Core) (r : Nat) (t : Tok) : (k.setAcc r t).dbg = k.dbg := rfl
@[simp] theorem Core.setAcc_passed (k : Core) (r : Nat) (t : Tok) : (k.setAcc r t).passed = k.passed := rfl
@[simp] theorem Core.setAcc_saving (k : Core) (r : Nat) (t : Tok) : (k.setAcc r t).saving = k.saving := rfl
@[simp] theorem Core.setAcc_cutDone (k : Core) (r : Nat) (t : Tok) : (k.setAcc r t).cutDone = k.cutDone := rfl
@[simp] theorem Core.setAcc_slotBack (k : Core) (r : Nat) (t : Tok) : (k.setAcc r t).slotBack = k.slotBack := rfl
@[simp] theorem Core.setAcc_commitAt (k : Core) (r : Nat) (t : Tok) : (k.setAcc r t).commitAt = k.commitAt := rfl
@[simp] theorem Core.setAcc_marking (k : Core) (r : Nat) (t : Tok) : (k.setAcc r t).marking = k.marking := rfl
@[simp] theorem Core.setAcc_gangHold (k : Core) (r : Nat) (t : Tok) : (k.setAcc r t).gangHold = k.gangHold := rfl

/-! ### A block in progress -/

@[simp] theorem Exec.addEffect_id (e : Exec) (n : Nat) (y : Effect) : (e.addEffect n y).id = e.id := rfl
@[simp] theorem Exec.addEffect_block (e : Exec) (n : Nat) (y : Effect) : (e.addEffect n y).block = e.block := rfl
@[simp] theorem Exec.addEffect_bufs (e : Exec) (n : Nat) (y : Effect) : (e.addEffect n y).bufs = e.bufs := rfl
@[simp] theorem Exec.addEffect_done (e : Exec) (n : Nat) (y : Effect) : (e.addEffect n y).done = e.done := rfl
@[simp] theorem Exec.addEffect_waits (e : Exec) (n : Nat) (y : Effect) : (e.addEffect n y).waits = e.waits := rfl
@[simp] theorem Exec.addEffect_queued (e : Exec) (n : Nat) (y : Effect) : (e.addEffect n y).queued = e.queued := rfl
@[simp] theorem Exec.addEffect_inflight (e : Exec) (n : Nat) (y : Effect) : (e.addEffect n y).inflight = e.inflight := rfl
@[simp] theorem Exec.addEffect_flags (e : Exec) (n : Nat) (y : Effect) : (e.addEffect n y).flags = e.flags := rfl
@[simp] theorem Exec.addEffect_tstamp (e : Exec) (n : Nat) (y : Effect) : (e.addEffect n y).tstamp = e.tstamp := rfl
@[simp] theorem Exec.addEffect_acted (e : Exec) (n : Nat) (y : Effect) : (e.addEffect n y).acted = e.acted := rfl
@[simp] theorem Exec.addEffect_choice (e : Exec) (n : Nat) (y : Effect) : (e.addEffect n y).choice = e.choice := rfl
@[simp] theorem Exec.addEffect_soft (e : Exec) (n : Nat) (y : Effect) : (e.addEffect n y).soft = e.soft := rfl
@[simp] theorem Exec.addEffect_snap (e : Exec) (n : Nat) (y : Effect) : (e.addEffect n y).snap = e.snap := rfl
@[simp] theorem Exec.addEffect_lines (e : Exec) (n : Nat) (y : Effect) : (e.addEffect n y).lines = e.lines := rfl
@[simp] theorem Exec.addEffect_serial (e : Exec) (n : Nat) (y : Effect) : (e.addEffect n y).serial = e.serial := rfl
@[simp] theorem Exec.addEffect_spoiled (e : Exec) (n : Nat) (y : Effect) : (e.addEffect n y).spoiled = e.spoiled := rfl
@[simp] theorem Exec.addEffect_stepOver (e : Exec) (n : Nat) (y : Effect) : (e.addEffect n y).stepOver = e.stepOver := rfl
@[simp] theorem Exec.addEffect_fences (e : Exec) (n : Nat) (y : Effect) : (e.addEffect n y).fences = e.fences := rfl

@[simp] theorem Exec.put_id (e : Exec) (n : Nat) (v : Arrival) : (e.put n v).id = e.id := rfl
@[simp] theorem Exec.put_block (e : Exec) (n : Nat) (v : Arrival) : (e.put n v).block = e.block := rfl
@[simp] theorem Exec.put_done (e : Exec) (n : Nat) (v : Arrival) : (e.put n v).done = e.done := rfl
@[simp] theorem Exec.put_waits (e : Exec) (n : Nat) (v : Arrival) : (e.put n v).waits = e.waits := rfl
@[simp] theorem Exec.put_queued (e : Exec) (n : Nat) (v : Arrival) : (e.put n v).queued = e.queued := rfl
@[simp] theorem Exec.put_inflight (e : Exec) (n : Nat) (v : Arrival) : (e.put n v).inflight = e.inflight := rfl
@[simp] theorem Exec.put_effects (e : Exec) (n : Nat) (v : Arrival) : (e.put n v).effects = e.effects := rfl
@[simp] theorem Exec.put_flags (e : Exec) (n : Nat) (v : Arrival) : (e.put n v).flags = e.flags := rfl
@[simp] theorem Exec.put_tstamp (e : Exec) (n : Nat) (v : Arrival) : (e.put n v).tstamp = e.tstamp := rfl
@[simp] theorem Exec.put_acted (e : Exec) (n : Nat) (v : Arrival) : (e.put n v).acted = e.acted := rfl
@[simp] theorem Exec.put_choice (e : Exec) (n : Nat) (v : Arrival) : (e.put n v).choice = e.choice := rfl
@[simp] theorem Exec.put_soft (e : Exec) (n : Nat) (v : Arrival) : (e.put n v).soft = e.soft := rfl
@[simp] theorem Exec.put_snap (e : Exec) (n : Nat) (v : Arrival) : (e.put n v).snap = e.snap := rfl
@[simp] theorem Exec.put_lines (e : Exec) (n : Nat) (v : Arrival) : (e.put n v).lines = e.lines := rfl
@[simp] theorem Exec.put_serial (e : Exec) (n : Nat) (v : Arrival) : (e.put n v).serial = e.serial := rfl
@[simp] theorem Exec.put_spoiled (e : Exec) (n : Nat) (v : Arrival) : (e.put n v).spoiled = e.spoiled := rfl
@[simp] theorem Exec.put_stepOver (e : Exec) (n : Nat) (v : Arrival) : (e.put n v).stepOver = e.stepOver := rfl
@[simp] theorem Exec.put_fences (e : Exec) (n : Nat) (v : Arrival) : (e.put n v).fences = e.fences := rfl

@[simp] theorem Exec.mark_id (e : Exec) (n : Nat) (fl : Fpx) : (e.mark n fl).id = e.id := rfl
@[simp] theorem Exec.mark_block (e : Exec) (n : Nat) (fl : Fpx) : (e.mark n fl).block = e.block := rfl
@[simp] theorem Exec.mark_bufs (e : Exec) (n : Nat) (fl : Fpx) : (e.mark n fl).bufs = e.bufs := rfl
@[simp] theorem Exec.mark_effects (e : Exec) (n : Nat) (fl : Fpx) : (e.mark n fl).effects = e.effects := rfl
@[simp] theorem Exec.mark_tstamp (e : Exec) (n : Nat) (fl : Fpx) : (e.mark n fl).tstamp = e.tstamp := rfl
@[simp] theorem Exec.mark_acted (e : Exec) (n : Nat) (fl : Fpx) : (e.mark n fl).acted = e.acted := rfl
@[simp] theorem Exec.mark_choice (e : Exec) (n : Nat) (fl : Fpx) : (e.mark n fl).choice = e.choice := rfl
@[simp] theorem Exec.mark_soft (e : Exec) (n : Nat) (fl : Fpx) : (e.mark n fl).soft = e.soft := rfl
@[simp] theorem Exec.mark_snap (e : Exec) (n : Nat) (fl : Fpx) : (e.mark n fl).snap = e.snap := rfl
@[simp] theorem Exec.mark_lines (e : Exec) (n : Nat) (fl : Fpx) : (e.mark n fl).lines = e.lines := rfl
@[simp] theorem Exec.mark_serial (e : Exec) (n : Nat) (fl : Fpx) : (e.mark n fl).serial = e.serial := rfl
@[simp] theorem Exec.mark_spoiled (e : Exec) (n : Nat) (fl : Fpx) : (e.mark n fl).spoiled = e.spoiled := rfl
@[simp] theorem Exec.mark_stepOver (e : Exec) (n : Nat) (fl : Fpx) : (e.mark n fl).stepOver = e.stepOver := rfl
@[simp] theorem Exec.mark_fences (e : Exec) (n : Nat) (fl : Fpx) : (e.mark n fl).fences = e.fences := rfl

end Sys2Proof.Machine
end

