-- ==== Sys2Proof/Laws/Access.lean ====
section
/-!
SUPPORT. Reading a core, region, context, actor, window, row or block in progress after a change of one.
-/

namespace Sys2Proof.Machine

@[simp] theorem Fabric.core_modCore (f : Fabric) (c : Nat) (g : Core → Core) : (f.modCore c g).core c = g (f.core c) := by
  simp [Fabric.modCore, Fabric.core]

/-- Two changes of one core are one. -/
@[simp] theorem Fabric.modCore_modCore (f : Fabric) (c : Nat) (g h : Core → Core) :
    (f.modCore c g).modCore c h = f.modCore c fun k => h (g k) := by
  rw [Fabric.modCore, Fabric.core_modCore]; simp [Fabric.modCore]

theorem Fabric.core_modCore_other (f : Fabric) {c d : Nat} (g : Core → Core) (h : d ≠ c) :
    (f.modCore c g).core d = f.core d := by
  simp [Fabric.modCore, Fabric.core, sget_sset_other _ _ _ h]

@[simp] theorem Fabric.core_modUnits (f : Fabric) (g : Units → Units) (c : Nat) : (f.modUnits g).core c = f.core c := rfl

@[simp] theorem Fabric.core_modRegion (f : Fabric) (r : Nat) (g : Region → Region) (c : Nat) :
    (f.modRegion r g).core c = f.core c := rfl

@[simp] theorem Fabric.core_modContext (f : Fabric) (x : Nat) (g : Context → Context) (c : Nat) :
    (f.modContext x g).core c = f.core c := rfl

@[simp] theorem Fabric.region_modRegion (f : Fabric) (r : Nat) (g : Region → Region) :
    (f.modRegion r g).region r = g (f.region r) := by
  simp [Fabric.modRegion, Fabric.region]

theorem Fabric.region_modRegion_other (f : Fabric) {r q : Nat} (g : Region → Region) (h : q ≠ r) :
    (f.modRegion r g).region q = f.region q := by
  simp [Fabric.modRegion, Fabric.region, sget_smod_other _ _ _ h]

@[simp] theorem Fabric.region_modCore (f : Fabric) (c : Nat) (g : Core → Core) (r : Nat) :
    (f.modCore c g).region r = f.region r := rfl

@[simp] theorem Fabric.context_modContext (f : Fabric) (x : Nat) (g : Context → Context) :
    (f.modContext x g).context x = g (f.context x) := by
  simp [Fabric.modContext, Fabric.context]

theorem Fabric.context_modContext_other (f : Fabric) {x y : Nat} (g : Context → Context) (h : y ≠ x) :
    (f.modContext x g).context y = f.context y := by
  simp [Fabric.modContext, Fabric.context, sget_smod_other _ _ _ h]

@[simp] theorem Fabric.context_modCore (f : Fabric) (c : Nat) (g : Core → Core) (x : Nat) :
    (f.modCore c g).context x = f.context x := rfl

@[simp] theorem Core.actor_modActor (k : Core) (a : Nat) (g : Actor → Actor) : (k.modActor a g).actor a = g (k.actor a) := by
  simp [Core.modActor, Core.actor]

theorem Core.actor_modActor_other (k : Core) {a b : Nat} (g : Actor → Actor) (h : b ≠ a) :
    (k.modActor a g).actor b = k.actor b := by
  simp [Core.modActor, Core.actor, sget_smod_other _ _ _ h]

@[simp] theorem Core.win_modWin (k : Core) (w : Nat) (g : Win → Win) : (k.modWin w g).win w = g (k.win w) := by
  simp [Core.modWin, Core.win]

theorem Core.win_modWin_other (k : Core) {w v : Nat} (g : Win → Win) (h : v ≠ w) : (k.modWin w g).win v = k.win v := by
  simp [Core.modWin, Core.win, sget_smod_other _ _ _ h]

@[simp] theorem Core.row_setRow (k : Core) (r : Nat) (t : Tok) : (k.setRow r t).row r = t := by
  simp [Core.setRow, Core.row]

theorem Core.row_setRow_other (k : Core) {r q : Nat} (t : Tok) (h : q ≠ r) : (k.setRow r t).row q = k.row q := by
  simp [Core.setRow, Core.row, sget_sput_other _ _ _ h]

@[simp] theorem Core.acc_setAcc (k : Core) (r : Nat) (t : Tok) : (k.setAcc r t).acc r = t := by
  simp [Core.setAcc, Core.acc]

theorem Core.acc_setAcc_other (k : Core) {r q : Nat} (t : Tok) (h : q ≠ r) : (k.setAcc r t).acc q = k.acc q := by
  simp [Core.setAcc, Core.acc, sget_sput_other _ _ _ h]

/-- A block in progress changed in place stays in progress. -/
@[simp] theorem Core.exec_modExec (k : Core) (who : Agent) (g : Exec → Exec) :
    (k.modExec who g).exec who = (k.exec who).map g := by
  cases who with
  | actor c a =>
    simp only [Core.modExec, Core.exec, Core.actor_modActor]
    cases (k.actor a).firing with
    | none => rfl
    | some y => simp only [Option.map_some, Option.bind_some]; split <;> rfl
  | seq c => by_cases h : k.seq.phase = .run <;> simp [Core.modExec, Core.exec, h]
  | bind c => rfl

/-- Two changes of one actor are one. -/
@[simp] theorem Core.modActor_modActor (k : Core) (a : Nat) (g h : Actor → Actor) :
    (k.modActor a g).modActor a h = k.modActor a fun x => h (g x) := by
  simp [Core.modActor, smod]

/-- Two changes of one block in progress are one. -/
@[simp] theorem Core.modExec_modExec (k : Core) (who : Agent) (g h : Exec → Exec) :
    (k.modExec who g).modExec who h = k.modExec who fun e => h (g e) := by
  cases who with
  | actor c a => simp [Core.modExec, Option.map_map, Function.comp_def]
  | seq c => simp [Core.modExec, Option.map_map, Function.comp_def]
  | bind c => simp [Core.modExec, Option.map_map, Function.comp_def]

/-- What `modExec` leaves of a core: all but its actors, the sequencer's block and the bind's block. -/
theorem Core.modExec_rest (k : Core) (who : Agent) (g : Exec → Exec) :
    { k.modExec who g with actors := k.actors, seq := k.seq, bindExec := k.bindExec } = k := by
  cases who <;> rfl

/-- A block in progress has its buffers changed at one key alone. -/
theorem Exec.put_bufs (e : Exec) (key : Nat) (v : Arrival) : sfind (e.put key v).bufs key = some v := by
  simp [Exec.put, sfind_sset_same]

end Sys2Proof.Machine
end

