-- ==== Sys2Proof/Laws/Memory.lean ====
section
/-!
SUPPORT. Memory: reading after writing, and that every memory operation keeps the canonical form.
-/

namespace Sys2Proof.Machine

@[simp] theorem Memory.byte_setByte (m : Memory) (a : Nat) (b : Byte) : (m.setByte a b).byte a = b := by
  simp [Memory.setByte, Memory.byte]

theorem Memory.byte_setByte_other (m : Memory) {a c : Nat} (b : Byte) (h : c ≠ a) : (m.setByte a b).byte c = m.byte c := by
  simp [Memory.setByte, Memory.byte, sget_sput_other _ _ _ h]

/-- A write leaves every byte outside its range as it was. -/
theorem Memory.byte_write_other (m : Memory) (a : Nat) (l : List Byte) {c : Nat} (h : c < a ∨ a + l.length ≤ c) :
    (m.write a l).byte c = m.byte c := by
  induction l generalizing m a with
  | nil => rfl
  | cons b r ih =>
    simp only [List.length_cons] at h
    rw [Memory.write, ih (m.setByte a b) (a + 1) (by omega), Memory.byte_setByte_other m b (by omega)]

/-- A write puts its bytes in their places. -/
theorem Memory.byte_write (m : Memory) (a : Nat) (l : List Byte) {i : Nat} (h : i < l.length) :
    (m.write a l).byte (a + i) = l[i] := by
  induction l generalizing m a i with
  | nil => simp at h
  | cons b r ih =>
    cases i with
    | zero => rw [Memory.write, Nat.add_zero, Memory.byte_write_other _ _ _ (by omega)]; simp
    | succ j =>
      simp only [List.length_cons] at h
      rw [Memory.write, show a + (j + 1) = a + 1 + j by omega, ih (m.setByte a b) (a + 1) (by omega)]; rfl

@[simp] theorem Memory.write_tags (m : Memory) (a : Nat) (l : List Byte) : (m.write a l).tags = m.tags := by
  induction l generalizing m a with
  | nil => rfl
  | cons b r ih => rw [Memory.write, ih]; rfl

theorem reset_wf : State.reset.mem.wf := by decide

theorem Memory.setByte_wf {m : Memory} (h : m.wf) (a : Nat) (b : Byte) : (m.setByte a b).wf := sput_wf h a b

theorem Memory.write_wf {m : Memory} (h : m.wf) (a : Nat) (l : List Byte) : (m.write a l).wf := by
  induction l generalizing m a with
  | nil => exact h
  | cons b r ih => exact ih (Memory.setByte_wf h a b) (a + 1)

theorem Memory.writeNat_wf {m : Memory} (h : m.wf) (a n v : Nat) : (m.writeNat a n v).wf := Memory.write_wf h a _

theorem Memory.store_wf {m : Memory} (h : m.wf) (a : Nat) (l : List Byte) : (m.store a l).wf := by
  unfold Memory.store; simp only; split
  · exact Memory.write_wf h a l
  · exact Memory.write_wf h a l

theorem Memory.lane_wf {m : Memory} (h : m.wf) (pa n op : Nat) (ty : BitVec 4) (data cmp : Nat) :
    (m.lane pa n op ty data cmp).wf := by
  unfold Memory.lane
  split
  · exact h
  · exact Memory.store_wf h _ _

theorem Memory.scrub_wf {m : Memory} (h : m.wf) (a n : Nat) : (m.scrub a n).wf := filter_wf h _

theorem Memory.setTags_wf {m : Memory} (h : m.wf) (ctx frame size e : Nat) : (m.setTags ctx frame size e).wf := h

theorem Memory.copy_wf {m : Memory} (h : m.wf) (src dst n : Nat) : (m.copy src dst n).wf := by
  refine ⟨?_, ?_⟩
  · simp only [Memory.copy]
    rw [List.pairwise_append, List.pairwise_append]
    refine ⟨⟨h.1.filter _, ?_, ?_⟩, h.1.filter _, ?_⟩
    · rw [List.pairwise_map]
      refine (h.1.filter _).imp_of_mem ?_
      intro a b ha hb hab
      simp at ha hb ⊢; omega
    · intro a ha b hb
      simp at ha hb
      obtain ⟨x, y, hx, hy⟩ := hb
      have := congrArg Prod.fst hy
      simp at this; omega
    · intro a ha b hb
      simp at ha hb
      rcases ha with ha | ⟨x, y, hx, hy⟩
      · omega
      · have := congrArg Prod.fst hy
        simp at this; omega
  · intro p hp
    simp only [Memory.copy, List.mem_append, List.mem_map, List.mem_filter] at hp
    rcases hp with (hp | ⟨q, hq, rfl⟩) | hp
    · exact h.2 p hp.1
    · exact h.2 q hq.1
    · exact h.2 p hp.1

/-- A fold of operations that keep the canonical form keeps it. -/
theorem foldl_wf {β : Type} (g : Memory → β → Memory) (hg : ∀ m b, m.wf → (g m b).wf) (l : List β) {m : Memory} (h : m.wf) :
    (l.foldl g m).wf := by
  induction l generalizing m with
  | nil => exact h
  | cons b r ih => exact ih (hg m b h)

theorem Memory.masked_wf {m : Memory} (h : m.wf) (t : Trans) (l : List MaskedByte) : (m.masked t l).wf := by
  have key := foldl_wf (fun (m : Memory) (b : MaskedByte) =>
    m.setByte (t.phys b.1) (BitVec.ofNat 8 (((m.byte (t.phys b.1)).toNat &&& (255 - b.2.1)) ||| b.2.2)))
    (fun m b hm => Memory.setByte_wf hm _ _) l h
  unfold Memory.masked
  cases l with
  | nil => exact h
  | cons b r =>
    simp only
    split <;> exact key

theorem Memory.addCounts_wf {m : Memory} (h : m.wf) (x : Context) (t : Trans) : (m.addCounts x t).wf := by
  have up : ∀ {m : Memory} (p n v : Nat), m.wf → (if n = 0 then m else m.writeNat p 4 v).wf := by
    intro m p n v hm; split
    · exact hm
    · exact Memory.writeNat_wf hm _ _ _
  unfold Memory.addCounts
  split
  · exact h
  · exact up _ _ _ (up _ _ _ (up _ _ _ h))

theorem enterLeaf_wf {va leaf target stop level : Nat} {m : Memory} {next a : Nat} {r : Memory × Nat} (h : m.wf)
    (hr : enterLeaf va leaf target stop level m next a = .ok r) : r.1.wf := by
  induction level generalizing m next a with
  | zero => simp [enterLeaf] at hr
  | succ l ih =>
    simp only [enterLeaf] at hr
    split at hr
    · split at hr
      · obtain rfl := Except.ok.inj hr; exact Memory.writeNat_wf h _ _ _
      · cases hr
    · split at hr
      · split at hr
        · cases hr
        · exact ih (Memory.writeNat_wf h _ _ _) hr
      · split at hr
        · cases hr
        · exact ih h hr

/-! ### Bytes of numbers and of lanes -/

/-- A number in `n` bytes is `n` bytes long. -/
theorem natBytes_length (n v : Nat) : (natBytes n v).length = n := by simp [natBytes]

/-- Byte `i` of a number is its digit to base 256. -/
theorem natBytes_get (n v i : Nat) (h : i < n) : ((natBytes n v)[i]'(by simp [natBytes]; exact h)).toNat = v / 256 ^ i % 256 := by
  simp only [natBytes, List.getElem_map, List.getElem_range, BitVec.toNat_ofNat, Nat.shiftRight_eq_div_pow, Nat.pow_mul]

/-- Bytes that are a number's digits make that number cut to their length. -/
theorem bytesNat_digits : ∀ (l : List Byte) (v : Nat), (∀ i (h : i < l.length), (l[i]).toNat = v / 256 ^ i % 256) → bytesNat l = v % 256 ^ l.length := by
  intro l
  induction l with
  | nil => intro v _; simp [bytesNat, Nat.mod_one]
  | cons b r ih =>
    intro v h
    have h0 := h 0 (by simp)
    have hr := ih (v / 256) (fun i hi => by
      have := h (i + 1) (by simp; exact hi)
      simp only [List.getElem_cons_succ] at this
      rw [this, Nat.div_div_eq_div_mul, Nat.pow_succ, Nat.mul_comm])
    simp only [List.getElem_cons_zero, Nat.pow_zero, Nat.div_one] at h0
    show bytesNat r * 256 + b.toNat = _
    rw [hr, h0, List.length_cons, Nat.pow_succ, Nat.mul_comm (256 ^ _) 256, Nat.mod_mul]
    omega

/-- A lane changes no byte outside it. -/
theorem Memory.byte_lane_other (m : Memory) (pa n op ty data cmp) {a : Nat} (h : a < pa ∨ pa + n ≤ a) :
    (m.lane pa n op ty data cmp).byte a = m.byte a := by
  have : ∀ l : List Byte, l.length = n → (m.store pa l).byte a = m.byte a := by
    intro l hl
    unfold Memory.store
    dsimp only
    have e : (m.write pa l).byte a = m.byte a := Memory.byte_write_other m pa l (by omega)
    split <;> exact e
  unfold Memory.lane
  split
  · rfl
  · exact this _ (natBytes_length _ _)

/-- A store's lane writes its data, the least significant byte at the lowest address. -/
theorem Memory.byte_lane (m : Memory) (pa n ty data cmp) {j : Nat} (h : j < n) :
    ((m.lane pa n 0 ty data cmp).byte (pa + j)).toNat = data / 256 ^ j % 256 := by
  have hl : j < (natBytes n data).length := by rw [natBytes_length]; exact h
  have e := Memory.byte_write m pa (natBytes n data) hl
  have : (m.lane pa n 0 ty data cmp).byte (pa + j) = (m.write pa (natBytes n data)).byte (pa + j) := by
    have e : m.lane pa n 0 ty data cmp = m.store pa (natBytes n data) := by simp [Memory.lane]
    rw [e]
    unfold Memory.store
    dsimp only
    split <;> rfl
  rw [this, e]
  exact natBytes_get n data j h

end Sys2Proof.Machine
end

