-- ==== Sys2Proof/Laws/Canonical.lean ====
section
/-!
SUPPORT. What the machine does to memory keeps its canonical form: one lemma for each function that answers a memory.
-/

namespace Sys2Proof.Machine

/-- A fold over memory and fabric keeps the canonical form when its step does. -/
theorem foldl_pair_wf {β : Type} (g : Memory × Fabric → β → Memory × Fabric) (hg : ∀ q b, q.1.wf → (g q b).1.wf)
    (l : List β) {q : Memory × Fabric} (h : q.1.wf) : (l.foldl g q).1.wf := by
  induction l generalizing q with
  | nil => exact h
  | cons b r ih => exact ih (hg q b h)

theorem keyless_wf {m : Memory} (h : m.wf) (f : Fabric) (reg pa n op : Nat) (ty : BitVec 4) (data cmp : Nat) :
    (f.keyless m reg pa n op ty data cmp).1.wf := Memory.lane_wf h _ _ _ _ _ _

theorem redoOne_wf {m : Memory} (h : m.wf) (f : Fabric) (reg : Nat) (x : Logged) : (f.redoOne m reg x).1.wf := by
  unfold Fabric.redoOne
  dsimp only
  split
  · exact keyless_wf h _ _ _ _ _ _ _ _
  · exact h

theorem redoFor_wf (n : Nat) {m : Memory} (h : m.wf) (f : Fabric) (reg line : Nat) : (f.redoFor n m reg line).1.wf := by
  induction n generalizing m f with
  | zero => exact h
  | succ n ih =>
    unfold Fabric.redoFor
    split
    · exact ih (redoOne_wf h _ _ _) _
    · exact h

theorem redoLine_wf {m : Memory} (h : m.wf) (f : Fabric) (reg line : Nat) : (f.redoLine m reg line).1.wf := redoFor_wf _ h _ _ _

theorem redoDue_wf {m : Memory} (h : m.wf) (f : Fabric) (reg : Nat) : (f.redoDue m reg).1.wf :=
  foldl_pair_wf _ (fun _ _ hq => redoLine_wf hq _ _ _) _ h

theorem flushAll_wf {m : Memory} (h : m.wf) (f : Fabric) (l : List Trans) : (f.flushAll m l).wf :=
  foldl_wf _ (fun _ _ hm => Memory.addCounts_wf hm _ _) _ h

theorem dropWhere_wf {m : Memory} (h : m.wf) (f : Fabric) (who p) : (f.dropWhere m who p).1.wf := flushAll_wf h f _

theorem dropPage_wf {m : Memory} (h : m.wf) (f : Fabric) (ctx page size : Nat) : (f.dropPage m ctx page size).1.wf :=
  dropWhere_wf h f _ _

theorem flushEntry_wf {m : Memory} (h : m.wf) (f : Fabric) (c n : Nat) : (f.flushEntry m c n).1.wf := by
  unfold Fabric.flushEntry
  dsimp only
  repeat' split
  all_goals first | exact h | exact Memory.addCounts_wf h _ _

theorem enterTrans_wf {m : Memory} (h : m.wf) (f : Fabric) (c : Nat) (t : Trans) : (f.enterTrans m c t).1.wf := by
  unfold Fabric.enterTrans
  dsimp only
  split
  · exact Memory.addCounts_wf h _ _
  · exact h

theorem walkReq_wf {m : Memory} (h : m.wf) (f : Fabric) (id : Nat) : (f.walkReq m id).1.wf := by
  unfold Fabric.walkReq
  dsimp only
  repeat' split
  all_goals first | exact h | exact enterTrans_wf h _ _ _

theorem walkGen_wf {m : Memory} (h : m.wf) (f : Fabric) (c i : Nat) : (f.walkGen m c i).1.wf := by
  unfold Fabric.walkGen
  dsimp only
  repeat' split
  all_goals first | exact h | exact flushAll_wf h _ _

theorem pageIn_wf {m : Memory} (h : m.wf) (f : Fabric) (ctx page size leaf frame : Nat) :
    (f.pageIn m ctx page size leaf frame).1.wf :=
  dropPage_wf (Memory.setTags_wf (Memory.writeNat_wf (Memory.copy_wf h _ _ _) _ _ _) _ _ _ _) _ _ _ _

theorem tinDone_wf {m : Memory} (h : m.wf) (f : Fabric) (ctx page : Nat) : (f.tinDone m ctx page).1.wf := by
  unfold Fabric.tinDone
  dsimp only
  repeat' split
  all_goals first | exact h | exact pageIn_wf h _ _ _ _ _ _

theorem toutDone_wf {m : Memory} (h : m.wf) (f : Fabric) (ctx page : Nat) : (f.toutDone m ctx page).1.wf := by
  have hm (src dst n leaf e : Nat) : ((m.copy src dst n).writeNat leaf 8 e).wf := Memory.writeNat_wf (Memory.copy_wf h _ _ _) _ _ _
  unfold Fabric.toutDone
  dsimp only
  repeat' split
  all_goals first
    | exact h
    | exact dropPage_wf (hm _ _ _ _ _) _ _ _ _
    | exact dropPage_wf (Memory.scrub_wf (hm _ _ _ _ _) _ _) _ _ _ _

theorem kilnPageIn_wf {m : Memory} (h : m.wf) (f : Fabric) (ctx page : Nat) : (f.kilnPageIn m ctx page).1.wf := by
  unfold Fabric.kilnPageIn
  dsimp only
  repeat' split
  all_goals first | exact h | exact pageIn_wf h _ _ _ _ _ _

theorem mapFrame_wf {m : Memory} (h : m.wf) (f : Fabric) (ctx level p leaf : Nat) : (f.mapFrame m ctx level p leaf).1.wf := by
  unfold Fabric.mapFrame
  dsimp only
  split
  · exact Memory.setTags_wf (Memory.writeNat_wf h _ _ _) _ _ _ _
  · exact Memory.writeNat_wf h _ _ _

theorem kilnResolve_wf {m : Memory} (h : m.wf) (f : Fabric) (c : Nat) (fix : Bool) (leaf : BitVec 64) :
    (f.kilnResolve m c fix leaf).1.wf := by
  unfold Fabric.kilnResolve
  dsimp only
  repeat' split
  all_goals first | exact h | exact dropPage_wf (mapFrame_wf h _ _ _ _ _) _ _ _ _

/-! ### Accesses performed -/

theorem loadLane_wf {m : Memory} (h : m.wf) (f : Fabric) (r : Req) (l : ReqLane) (pa cls : Nat) (free : Row) :
    (f.loadLane m r l pa cls free).1.wf := by
  unfold Fabric.loadLane
  extract_lets c reg go
  split
  · exact redoLine_wf h _ _ _
  · exact h

theorem eagerDone_wf {m : Memory} (h : m.wf) (f : Fabric) (r : Req) (l : ReqLane) (pa : Nat) : (f.eagerDone m r l pa).1.wf := by
  unfold Fabric.eagerDone
  dsimp only
  refine redoLine_wf ?_ _ _ _
  split
  · exact h
  · exact keyless_wf h _ _ _ _ _ _ _ _

theorem sliceReq_wf {m : Memory} (h : m.wf) (f : Fabric) (id lane : Nat) (free : Row) : (f.sliceReq m id lane free).1.wf := by
  unfold Fabric.sliceReq
  dsimp only
  repeat' split
  all_goals first | exact h | exact eagerDone_wf h _ _ _ _ | exact loadLane_wf h _ _ _ _ _ _

theorem performLanes_wf {m : Memory} (h : m.wf) (f : Fabric) (u : StoreUnit) : (Fabric.performLanes m f u).1.wf :=
  foldl_pair_wf _ (fun _ _ hq => Memory.lane_wf hq _ _ _ _ _ _) _ h

theorem unitPerform_wf {m : Memory} (h : m.wf) (f : Fabric) (id : Nat) : (f.unitPerform m id).1.wf := by
  unfold Fabric.unitPerform
  dsimp only
  repeat' split
  all_goals first
    | exact h
    | exact foldl_pair_wf _ (fun _ _ hq => redoLine_wf hq _ _ _) _ (performLanes_wf h _ _)

theorem engineWrite_wf {m : Memory} (h : m.wf) (f : Fabric) (reg : Nat) (t : Trans) (va : Nat) (l : List MaskedByte) :
    (f.engineWrite m reg t va l).1.wf := redoLine_wf (Memory.masked_wf h _ _) _ _ _

theorem genWrite_wf {m : Memory} (h : m.wf) (f : Fabric) (c i : Nat) (q : GenCmd) (t : Trans) (va r : Nat) :
    (f.genWrite m c i q t va r).1.wf := by
  unfold Fabric.genWrite
  dsimp only
  split
  · exact h
  · exact engineWrite_wf h _ _ _ _ _

theorem genRead_wf {m : Memory} (h : m.wf) (f : Fabric) (c i : Nat) (q : GenCmd) (t : Trans) (va r run : Nat) (free : Row) :
    (f.genRead m c i q t va r run free).1.wf := redoLine_wf h _ _ _

theorem genLine_wf {m : Memory} (h : m.wf) (f : Fabric) (c i va : Nat) (free : Row) : (f.genLine m c i va free).1.wf := by
  unfold Fabric.genLine
  dsimp only
  repeat' split
  all_goals first | exact h | with_reducible exact genRead_wf h _ _ _ _ _ _ _ _ _ | with_reducible exact genWrite_wf h _ _ _ _ _ _ _

theorem countRow_wf {m : Memory} (h : m.wf) (f : Fabric) (ctx : Nat) (t : Trans) (write : Bool) : (f.countRow m ctx t write).wf :=
  Memory.addCounts_wf h _ _

theorem loadLine_wf {m : Memory} (h : m.wf) (f : Fabric) (c va : Nat) (free : Row) : (f.loadLine m c va free).1.wf := by
  unfold Fabric.loadLine
  dsimp only
  repeat' split
  all_goals first | exact h | exact redoLine_wf h _ _ _ | exact redoLine_wf (countRow_wf h _ _ _ _) _ _ _

theorem netRead_wf {m : Memory} (h : m.wf) (f : Fabric) (c : Nat) (x : NetCmd) (t : Trans) (va r run : Nat) (free : Row) :
    (f.netRead m c x t va r run free).1.wf := redoLine_wf (countRow_wf h _ _ _ _) _ _ _

theorem netLine_wf {m : Memory} (h : m.wf) (f : Fabric) (c va : Nat) (free : Row) : (f.netLine m c va free).1.wf := by
  unfold Fabric.netLine
  dsimp only
  repeat' split
  all_goals first | exact h | exact netRead_wf h _ _ _ _ _ _ _ _

theorem saveRow_wf {m : Memory} (h : m.wf) (f : Fabric) (c : Nat) (x : Image) (t : Trans) (va : Nat) : (f.saveRow m c x t va).1.wf := by
  unfold Fabric.saveRow
  dsimp only
  refine countRow_wf ?_ _ _ _ _
  split
  · exact h
  · exact engineWrite_wf h _ _ _ _ _

theorem restRow_wf {m : Memory} (h : m.wf) (f : Fabric) (c : Nat) (x : Image) (t : Trans) (va : Nat) (free : Row) :
    (f.restRow m c x t va free).1.wf := by
  unfold Fabric.restRow
  exact redoLine_wf (countRow_wf h _ _ _ _) _ _ _

theorem imageLine_wf {m : Memory} (h : m.wf) (f : Fabric) (c id va : Nat) (free : Row) : (f.imageLine m c id va free).1.wf := by
  unfold Fabric.imageLine
  dsimp only
  repeat' split
  all_goals first | exact h | exact saveRow_wf h _ _ _ _ _ | exact restRow_wf h _ _ _ _ _ _

theorem sliceAccess_wf {m : Memory} (h : m.wf) (f : Fabric) (x : Access) (free : Row) : (f.sliceAccess m x free).1.wf := by
  unfold Fabric.sliceAccess
  repeat' split
  all_goals first
    | exact h | exact sliceReq_wf h _ _ _ _ | exact genLine_wf h _ _ _ _ _ | exact loadLine_wf h _ _ _ _
    | exact netLine_wf h _ _ _ _ | exact imageLine_wf h _ _ _ _ _

theorem completeNet_wf {m : Memory} (h : m.wf) (f : Fabric) (c : Nat) : (f.completeNet m c).1.wf := by
  unfold Fabric.completeNet
  dsimp only
  repeat' split
  all_goals first | exact h | exact dropWhere_wf h _ _ _

/-! ### Arrivals -/

theorem remoteCount_wf {m : Memory} (h : m.wf) (f : Fabric) (ctx : Nat) (t : Trans) : (f.remoteCount m ctx t).wf :=
  Memory.addCounts_wf h _ _

theorem performArrival_wf {m : Memory} (h : m.wf) (f : Fabric) (ctx : Nat) (t : Trans) (x : Logged) :
    (f.performArrival m ctx t x).1.wf := Memory.lane_wf h _ _ _ _ _ _

theorem writeArrival_wf {m : Memory} (h : m.wf) (f : Fabric) (ctx conn va : Nat) (bytes : List (BitVec 8)) :
    (f.writeArrival m ctx conn va bytes).1.wf := by
  unfold Fabric.writeArrival
  dsimp only
  repeat' split
  all_goals first | exact h | exact Memory.lane_wf (remoteCount_wf h f ctx _) _ _ _ _ _ _

theorem readArrival_wf {m : Memory} (h : m.wf) (f : Fabric) (ctx conn va n : Nat) : (f.readArrival m ctx conn va n).1.wf := by
  unfold Fabric.readArrival
  dsimp only
  repeat' split
  all_goals first | exact h | exact remoteCount_wf h _ _ _

theorem atomicArrival_wf {m : Memory} (h : m.wf) (f : Fabric) (ctx conn va op : Nat) (ty : BitVec 4) (b c : Nat) :
    (f.atomicArrival m ctx conn va op ty b c).1.wf := by
  unfold Fabric.atomicArrival
  dsimp only
  repeat' split
  all_goals first | exact h | exact Memory.lane_wf (remoteCount_wf h f ctx _) _ _ _ _ _ _

theorem nredElement_wf {m : Memory} (h : m.wf) (f : Fabric) (ctx conn : Nat) (x : RowIn) (t : Trans) :
    (f.nredElement m ctx conn x t).1.wf := by
  unfold Fabric.nredElement
  dsimp only
  with_reducible exact performArrival_wf h _ _ _ _

theorem nredGoOn_wf {m : Memory} (h : m.wf) (f : Fabric) (ctx conn : Nat) (x : RowIn) : (f.nredGoOn m ctx conn x).1.wf := by
  unfold Fabric.nredGoOn
  dsimp only
  repeat' split
  all_goals first | exact h | exact nredElement_wf h _ _ _ _ _

theorem nredArrival_wf {m : Memory} (h : m.wf) (f : Fabric) (ctx conn va op : Nat) (ty : BitVec 4) (n : Nat) (row : Row) :
    (f.nredArrival m ctx conn va op ty n row).1.wf := by
  unfold Fabric.nredArrival
  dsimp only
  repeat' split
  all_goals first
    | exact h
    | exact nredGoOn_wf h _ _ _ _
    | with_reducible exact nredElement_wf (remoteCount_wf h _ _ _) _ _ _ _ _

/-! ### The sequencer's stack, cuts, reports and launches -/

theorem spillCount_wf {m : Memory} (h : m.wf) (f : Fabric) (c n : Nat) (write : Bool) : (f.spillCount m c n write).1.wf := by
  unfold Fabric.spillCount
  dsimp only
  refine redoLine_wf ?_ _ _ _
  split
  · exact Memory.addCounts_wf h _ _
  · exact h

/-- A branch that goes on after a step that may take an exception code and an address goes on from that step's answer. -/
theorem branch_goesOn {X Y : Type} {s : Except (Nat × Nat) X} {k : X → Except (Nat × Nat) Y} {y : Y} :
    (s >>= k) = .ok y → ∃ x, s = .ok x ∧ k x = .ok y :=
  match s with
  | .ok x => fun h => ⟨x, rfl, h⟩
  | .error _ => nofun

/-- A stack line that is reached is the one the stack's access starts from. -/
theorem spilled {X Y : Type} {s : Except (Nat × Nat) X} {k : X → Y} {y : Y} : s.map k = .ok y → ∃ x, s = .ok x ∧ k x = y :=
  match s with
  | .ok x => fun h => ⟨x, rfl, by injection h⟩
  | .error _ => nofun

theorem push_wf {m : Memory} (h : m.wf) (f : Fabric) (c : Nat) (e : Entry) {q : Memory × Fabric} (hq : f.push m c e = .ok q) :
    q.1.wf := by
  unfold Fabric.push at hq
  dsimp only at hq
  repeat' split at hq
  all_goals first
    | (cases hq; exact h)
    | (obtain ⟨pa, -, rfl⟩ := spilled hq; exact spillCount_wf (keyless_wf h _ _ _ _ _ _ _ _) _ _ _ _)

theorem pop_wf {m : Memory} (h : m.wf) (f : Fabric) (c : Nat) {q : Entry × Memory × Fabric} (hq : f.pop m c = .ok q) : q.2.1.wf := by
  unfold Fabric.pop at hq
  dsimp only at hq
  repeat' split at hq
  all_goals first
    | (cases hq; done)
    | (cases hq; exact h)
    | (obtain ⟨pa, -, rfl⟩ := spilled hq; exact spillCount_wf h _ _ _ _)

theorem releaseHeld_wf {m : Memory} (h : m.wf) (f : Fabric) (t : Trap) : (f.releaseHeld m t).1.wf := by
  unfold Fabric.releaseHeld
  split
  · exact foldl_pair_wf _ (fun _ _ hq => redoDue_wf hq _ _) _ h
  · exact h

theorem takeTrap_wf {m : Memory} (h : m.wf) (f : Fabric) (c : Nat) (t : Trap) (ret : Option Nat) (free : Nat → Row) :
    (f.takeTrap m c t ret free).1.wf := by
  unfold Fabric.takeTrap
  dsimp only
  repeat' split
  all_goals first | exact h | (rename_i hq; have := push_wf h f c _ hq; exact this)

theorem deliverTrap_wf {m : Memory} (h : m.wf) (f : Fabric) (c : Nat) (free : Nat → Row) : (f.deliverTrap m c free).1.wf := by
  unfold Fabric.deliverTrap
  dsimp only
  repeat' split
  all_goals first | exact h | exact takeTrap_wf h _ _ _ _ _

theorem flushCore_wf {m : Memory} (h : m.wf) (f : Fabric) (c : Nat) : (f.flushCore m c).wf := flushAll_wf h _ _

theorem saveCore_wf {m : Memory} (h : m.wf) (f : Fabric) (c : Nat) : (f.saveCore m c).1.wf := by
  unfold Fabric.saveCore
  dsimp only
  split
  · exact h
  · exact flushCore_wf h _ _

theorem preempt_wf {m : Memory} (h : m.wf) (f : Fabric) (c el : Nat) : (f.preempt m c el).1.wf := by
  unfold Fabric.preempt
  dsimp only
  repeat' split
  all_goals first | exact h | exact saveCore_wf h _ _

theorem undoLines_wf {m : Memory} (h : m.wf) (f : Fabric) (ctx : Nat) (undo : Sparse Tok) : (f.undoLines m ctx undo).wf := by
  refine foldl_wf _ (fun m b hm => ?_) _ h
  split
  · exact Memory.store_wf hm _ _
  · exact hm

theorem rollback_wf {m : Memory} (h : m.wf) (f : Fabric) (reg : Nat) : (f.rollback m reg).1.wf :=
  redoDue_wf (undoLines_wf (foldl_wf _ (fun _ _ hm => flushCore_wf hm _ _) _ h) _ _ _) _ _

theorem regionRollback_wf {m : Memory} (h : m.wf) (f : Fabric) (reg : Nat) : (f.regionRollback m reg).1.wf := by
  unfold Fabric.regionRollback
  dsimp only
  repeat' split
  all_goals first | exact h | exact rollback_wf h _ _

theorem writeReport_wf {m : Memory} (h : m.wf) (f : Fabric) (reg va : Nat) (l : List Row) : (f.writeReport m reg va l).1.wf := by
  induction l generalizing m f va with
  | nil => exact h
  | cons r rest ih =>
    unfold Fabric.writeReport
    dsimp only
    repeat' split
    all_goals first | exact h | exact ih (keyless_wf h _ _ _ _ _ _ _ _) _ _

theorem deadlock_wf {m : Memory} (h : m.wf) (f : Fabric) (reg : Nat) (l : List Step) : (f.deadlock m reg l).1.wf := by
  unfold Fabric.deadlock
  dsimp only
  split <;> exact writeReport_wf h _ _ _ _

theorem walkDone_wf {m : Memory} (h : m.wf) (f : Fabric) (reg : Nat) : (f.walkDone m reg).1.wf := by
  unfold Fabric.walkDone
  dsimp only
  repeat' split
  all_goals first | exact h | exact deadlock_wf h _ _ _ | exact writeReport_wf h _ _ _ _

theorem launch_wf {m : Memory} (h : m.wf) (f : Fabric) (ctx place : Nat) (pool : List Nat) (layout : Option (List RoutePath)) :
    (f.launch m ctx place pool layout).1.wf := by
  unfold Fabric.launch
  dsimp only
  repeat' split
  all_goals first | exact h | exact Memory.write_wf h _ _

theorem groupComplete_wf {m : Memory} (h : m.wf) (f : Fabric) (c : Nat) : (f.groupComplete m c).1.wf := by
  unfold Fabric.groupComplete
  dsimp only
  repeat' split
  all_goals first | exact h | exact flushCore_wf h _ _

theorem endRegion_wf {m : Memory} (h : m.wf) (f : Fabric) (reg code : Nat) : (f.endRegion m reg code).1.wf := by
  have hm (l : List Nat) : (l.foldl f.flushCore m).wf := foldl_wf _ (fun _ _ hm => flushCore_wf hm _ _) _ h
  unfold Fabric.endRegion
  dsimp only
  split
  · exact foldl_wf _ (fun _ _ hm => Memory.scrub_wf hm _ _) _ (hm _)
  · exact hm _

theorem regionEnd_wf {m : Memory} (h : m.wf) (f : Fabric) (reg : Nat) : (f.regionEnd m reg).1.wf := by
  unfold Fabric.regionEnd
  repeat' split
  all_goals first | exact h | exact endRegion_wf h _ _ _

theorem recordWrite_wf {m : Memory} (h : m.wf) (f : Fabric) (die : Nat) (what : RecordEvent) : (f.recordWrite m die what).1.wf := by
  unfold Fabric.recordWrite Fabric.errorFound
  dsimp only
  repeat' split
  all_goals exact h

/-! ### The management context -/

theorem freeFrame_wf {m : Memory} (h : m.wf) (f : Fabric) (level e : Nat) : (f.freeFrame m level e).1.wf := Memory.scrub_wf h _ _

theorem closeContext_wf {m : Memory} (h : m.wf) (f : Fabric) (x : Nat) : (f.closeContext m x).1.wf :=
  Memory.scrub_wf (foldl_pair_wf _ (fun _ _ hq => freeFrame_wf hq _ _ _) _
    (dropWhere_wf (foldl_pair_wf _ (fun _ _ hq => endRegion_wf hq _ _ _) _ h) _ _ _)) _ _

/-- A request taken up keeps the canonical form when its operation does. -/
theorem manage_wf {m : Memory} (h : m.wf) (f : Fabric) (op : Nat) (act : Nat → Memory → Fabric → Option Reply)
    (ha : ∀ n r, act n m f = some r → r.mem.wf) : (f.manage m op act).1.wf := by
  unfold Fabric.manage
  dsimp only
  split
  · exact h
  · split
    · exact h
    · split
      · exact h
      · rename_i r hr
        revert hr
        repeat' split
        all_goals first
          | (intro hr; cases hr; done)
          | (intro hr; cases hr; exact h)
          | (intro hr; exact ha _ _ hr)

/-- A request on a tenant context keeps the canonical form when what it does there does. -/
theorem onContext_wf {n : Nat} {m : Memory} (h : m.wf) (f : Fabric) (go : Nat → Option Reply)
    (hg : ∀ x r, go x = some r → r.mem.wf) : ∀ r, onContext n m f go = some r → r.mem.wf := by
  intro r hr
  unfold onContext refused at hr
  dsimp only at hr
  repeat' split at hr
  all_goals first | (cases hr; exact h) | exact hg _ _ hr

/-- A request on a region keeps the canonical form when what it does there does. -/
theorem onRegion_wf {n : Nat} {m : Memory} (h : m.wf) (f : Fabric) (go : Nat → Option Reply)
    (hg : ∀ x r, go x = some r → r.mem.wf) : ∀ r, onRegion n m f go = some r → r.mem.wf := by
  unfold onRegion
  refine onContext_wf h f _ fun x r hr => ?_
  unfold refused at hr
  split at hr
  · cases hr; exact h
  · exact hg _ _ hr

theorem mapReply_wf {n : Nat} {m : Memory} (h : m.wf) (f : Fabric) (frame : Nat) : ∀ r, mapReply frame n m f = some r → r.mem.wf := by
  unfold mapReply
  refine onContext_wf h f _ fun x r hr => ?_
  dsimp only at hr
  unfold refused at hr
  split at hr
  · cases hr; exact h
  · split at hr
    · cases hr; exact h
    · rename_i hl
      have hm := enterLeaf_wf h hl
      repeat' split at hr
      all_goals first
        | (cases hr; done)
        | (cases hr; exact h)
        | (cases hr; exact Memory.scrub_wf hm _ _)

theorem openReply_wf {n : Nat} {m : Memory} (h : m.wf) (f : Fabric) (place : Nat) (addrs : List Nat) :
    ∀ r, openReply place addrs n m f = some r → r.mem.wf := by
  intro r hr
  unfold openReply refused at hr
  dsimp only at hr
  repeat' split at hr
  all_goals first | (cases hr; done) | (cases hr; exact h) | (cases hr; exact Memory.scrub_wf h _ _)

/-- Branching keeps the canonical form: a spilled call stack is written byte by byte. -/
theorem branch_wf {m : Memory} (h : m.wf) (f : Fabric) (c : Nat) (bs : List Block) (e : Exec) {r} (hr : f.branch m c bs e = .ok r) : r.2.1.wf := by
  unfold Fabric.branch at hr
  dsimp only at hr
  split at hr
  · cases hr
  · cases hr; exact h
  · obtain ⟨x, -, hr⟩ := branch_goesOn hr; cases hr; exact h
  · obtain ⟨x, -, hr⟩ := branch_goesOn hr
    obtain ⟨q, hp, hr⟩ := branch_goesOn hr
    cases hr; exact push_wf h f c _ hp
  · obtain ⟨⟨t, m', g⟩, hp, hr⟩ := branch_goesOn hr
    have hm : m'.wf := pop_wf h f c hp
    split at hr
    · cases hr
    · split at hr
      all_goals
        obtain ⟨n, -, hr⟩ := branch_goesOn hr
        split at hr
        · cases hr; exact releaseHeld_wf hm _ _
        · cases hr; exact hm
  · obtain ⟨⟨t, m', g⟩, hp, hr⟩ := branch_goesOn hr
    have hm : m'.wf := pop_wf h f c hp
    split at hr
    · cases hr
    · split at hr
      · obtain ⟨x, -, hr⟩ := branch_goesOn hr; cases hr; exact hm
      · cases hr; exact hm

/-- The end of a sequencer's block keeps the canonical form. -/
theorem seqComplete_wf {m : Memory} (h : m.wf) (f : Fabric) (c : Nat) : (f.seqComplete m c).1.wf := by
  unfold Fabric.seqComplete
  dsimp only
  split
  · exact h
  · split
    · exact h
    · split
      · exact h
      · split
        · split <;> exact h
        · rename_i hb; exact branch_wf h _ _ _ _ hb
  · exact h

end Sys2Proof.Machine
end

