-- ==== Sys2Proof/Laws/Elements.lean ====
section
/-!
SUPPORT. Tokens element by element: what reading an element of a token that was built element by element gives.
-/

namespace Sys2Proof.Machine

/-- The number that a list of elements of width `w` makes, element 0 lowest. -/
def packNat (w : Nat) (l : List Nat) : Nat := l.foldr (fun x acc => (acc <<< w) + x % 2 ^ w) 0

theorem packNat_lt (w : Nat) (l : List Nat) : packNat w l < 2 ^ (w * l.length) := by
  induction l with
  | nil => simp [packNat]
  | cons x r ih =>
    have hx : x % 2 ^ w < 2 ^ w := Nat.mod_lt _ (Nat.two_pow_pos w)
    have : packNat w (x :: r) = packNat w r * 2 ^ w + x % 2 ^ w := by simp [packNat, Nat.shiftLeft_eq]
    rw [this, List.length_cons, Nat.mul_succ, Nat.pow_add]
    calc packNat w r * 2 ^ w + x % 2 ^ w < packNat w r * 2 ^ w + 2 ^ w := by omega
      _ = (packNat w r + 1) * 2 ^ w := by ring
      _ ≤ 2 ^ (w * r.length) * 2 ^ w := Nat.mul_le_mul_right _ ih

theorem packNat_elem (w : Nat) (l : List Nat) (e : Nat) : (packNat w l >>> (w * e)) % 2 ^ w = l.getD e 0 % 2 ^ w := by
  induction l generalizing e with
  | nil => simp [packNat]
  | cons x r ih =>
    have hx : x % 2 ^ w < 2 ^ w := Nat.mod_lt _ (Nat.two_pow_pos w)
    have hp : packNat w (x :: r) = packNat w r * 2 ^ w + x % 2 ^ w := by simp [packNat, Nat.shiftLeft_eq]
    cases e with
    | zero => rw [hp]; simp [Nat.add_mod]
    | succ e =>
      rw [hp, Nat.mul_succ, Nat.add_comm (w * e) w, Nat.shiftRight_add, Nat.shiftRight_eq_div_pow _ w]
      rw [show (packNat w r * 2 ^ w + x % 2 ^ w) / 2 ^ w = packNat w r by
        rw [Nat.add_comm, Nat.add_mul_div_right _ _ (Nat.two_pow_pos w), Nat.div_eq_of_lt hx, Nat.zero_add]]
      rw [ih]; rfl

/-- An element of a token built from a list that fits in it is the list's element cut to the width; past the list it is zero. -/
theorem elem_ofVals {w : Nat} {l : List Nat} (h : w * l.length ≤ 512) (e : Nat) : elem w (ofVals w l) e = l.getD e 0 % 2 ^ w := by
  have hlt : packNat w l < 2 ^ 512 := Nat.lt_of_lt_of_le (packNat_lt w l) (Nat.pow_le_pow_right (by decide) h)
  show ((BitVec.ofNat 512 (packNat w l)).toNat >>> (w * e)) % 2 ^ w = _
  rw [BitVec.toNat_ofNat, Nat.mod_eq_of_lt hlt, packNat_elem]

theorem tyCount_bits (ty : BitVec 4) : tyBits ty * tyCount ty = 512 := by
  revert ty; decide

theorem laneCount_le (ty m : BitVec 4) : laneCount ty m ≤ tyCount ty := by
  unfold laneCount
  split
  · revert ty; decide
  · exact Nat.le_refl _

theorem laneCount_bits (ty m : BitVec 4) : tyBits ty * laneCount ty m ≤ 512 := by
  rw [← tyCount_bits ty]; exact Nat.mul_le_mul_left _ (laneCount_le ty m)

/-- An element that an element-wise instruction forms. -/
theorem lanesI_elem {ty m : BitVec 4} (g : Nat → Nat) {e : Nat} (h : e < laneCount ty m) :
    elem (tyBits ty) (lanesI ty m g).1 e = g e % 2 ^ tyBits ty := by
  have := laneCount_bits ty m
  rw [lanesI, elem_ofVals (by simpa using this)]
  simp [List.getD, h]

/-- An element that it does not form is zero (R13). -/
theorem lanesI_beyond {ty m : BitVec 4} (g : Nat → Nat) {e : Nat} (h : laneCount ty m ≤ e) :
    elem (tyBits ty) (lanesI ty m g).1 e = 0 := by
  have := laneCount_bits ty m
  rw [lanesI, elem_ofVals (by simpa using this)]
  simp [List.getD, h]

theorem lanes_elem {ty m : BitVec 4} (g : Nat → Nat × Fpx) {e : Nat} (h : e < laneCount ty m) :
    elem (tyBits ty) (lanes ty m g).1 e = (g e).1 % 2 ^ tyBits ty := by
  have := laneCount_bits ty m
  rw [lanes, elem_ofVals (by simpa using this)]
  simp [List.getD, h]

theorem lanes_beyond {ty m : BitVec 4} (g : Nat → Nat × Fpx) {e : Nat} (h : laneCount ty m ≤ e) :
    elem (tyBits ty) (lanes ty m g).1 e = 0 := by
  have := laneCount_bits ty m
  rw [lanes, elem_ofVals (by simpa using this)]
  simp [List.getD, h]

theorem elem_lt (w : Nat) (t : Row) (e : Nat) : elem w t e < 2 ^ w := Nat.mod_lt _ (Nat.two_pow_pos w)

end Sys2Proof.Machine
end

