-- ==== Sys2Proof/Laws/PerInstr.lean ====
section
/-!
SUPPORT. For every constructor: the decoder's table gives an instruction back from its opcode and fields, the word apart.
-/

namespace Sys2Proof.Laws

open Sys2Proof.Machine

set_option linter.unusedSimpArgs false

/-- The format of operand fields. -/
def formatFor : Fields → Format
  | .d _ => .d
  | .w _ => .w
  | .m _ => .m
  | .c _ => .c
  | .e _ => .e
  | .l _ => .l

/-- The instruction that the decoder builds from an opcode and fields. -/
def buildFor (op : Nat) : Fields → Option Instr
  | .d f => buildD op f
  | .w f => buildW op f
  | .m f => buildM op f
  | .c f => buildC op f
  | .e f => buildE op f
  | .l f => some (.lit f)

/-- An instruction whose constructor agrees with its selector fields is what the decoder builds from its opcode, which has
ten bits and the format of its fields. -/
def Rebuild.Statement (i : Instr) : Prop :=
  selectorOk i = true → ∀ op f, opcodeOf i = some op → fieldsOf i = some f →
    op < 1024 ∧ formatOf op = some (formatFor f) ∧ buildFor op f = some i

theorem Rebuild.add : ∀ f, Rebuild.Statement (.add f) := by
  intro f _ op g ho hg; cases ho; cases hg; exact ⟨by decide, rfl, rfl⟩

theorem Rebuild.sub : ∀ f, Rebuild.Statement (.sub f) := by
  intro f _ op g ho hg; cases ho; cases hg; exact ⟨by decide, rfl, rfl⟩

theorem Rebuild.mul : ∀ f, Rebuild.Statement (.mul f) := by
  intro f _ op g ho hg; cases ho; cases hg; exact ⟨by decide, rfl, rfl⟩

theorem Rebuild.mulh : ∀ f, Rebuild.Statement (.mulh f) := by
  intro f _ op g ho hg; cases ho; cases hg; exact ⟨by decide, rfl, rfl⟩

theorem Rebuild.mad : ∀ f, Rebuild.Statement (.mad f) := by
  intro f _ op g ho hg; cases ho; cases hg; exact ⟨by decide, rfl, rfl⟩

theorem Rebuild.quo : ∀ f, Rebuild.Statement (.quo f) := by
  intro f _ op g ho hg; cases ho; cases hg; exact ⟨by decide, rfl, rfl⟩

theorem Rebuild.rem : ∀ f, Rebuild.Statement (.rem f) := by
  intro f _ op g ho hg; cases ho; cases hg; exact ⟨by decide, rfl, rfl⟩

theorem Rebuild.neg : ∀ f, Rebuild.Statement (.neg f) := by
  intro f _ op g ho hg; cases ho; cases hg; exact ⟨by decide, rfl, rfl⟩

theorem Rebuild.abs : ∀ f, Rebuild.Statement (.abs f) := by
  intro f _ op g ho hg; cases ho; cases hg; exact ⟨by decide, rfl, rfl⟩

theorem Rebuild.min : ∀ f, Rebuild.Statement (.min f) := by
  intro f _ op g ho hg; cases ho; cases hg; exact ⟨by decide, rfl, rfl⟩

theorem Rebuild.max : ∀ f, Rebuild.Statement (.max f) := by
  intro f _ op g ho hg; cases ho; cases hg; exact ⟨by decide, rfl, rfl⟩

theorem Rebuild.clamp : ∀ f, Rebuild.Statement (.clamp f) := by
  intro f _ op g ho hg; cases ho; cases hg; exact ⟨by decide, rfl, rfl⟩

theorem Rebuild.adds : ∀ f, Rebuild.Statement (.adds f) := by
  intro f _ op g ho hg; cases ho; cases hg; exact ⟨by decide, rfl, rfl⟩

theorem Rebuild.subs : ∀ f, Rebuild.Statement (.subs f) := by
  intro f _ op g ho hg; cases ho; cases hg; exact ⟨by decide, rfl, rfl⟩

theorem Rebuild.dot4 : ∀ f, Rebuild.Statement (.dot4 f) := by
  intro f _ op g ho hg; cases ho; cases hg; exact ⟨by decide, rfl, rfl⟩

theorem Rebuild.and : ∀ f, Rebuild.Statement (.and f) := by
  intro f _ op g ho hg; cases ho; cases hg; exact ⟨by decide, rfl, rfl⟩

theorem Rebuild.or : ∀ f, Rebuild.Statement (.or f) := by
  intro f _ op g ho hg; cases ho; cases hg; exact ⟨by decide, rfl, rfl⟩

theorem Rebuild.xor : ∀ f, Rebuild.Statement (.xor f) := by
  intro f _ op g ho hg; cases ho; cases hg; exact ⟨by decide, rfl, rfl⟩

theorem Rebuild.andn : ∀ f, Rebuild.Statement (.andn f) := by
  intro f _ op g ho hg; cases ho; cases hg; exact ⟨by decide, rfl, rfl⟩

theorem Rebuild.not : ∀ f, Rebuild.Statement (.not f) := by
  intro f _ op g ho hg; cases ho; cases hg; exact ⟨by decide, rfl, rfl⟩

theorem Rebuild.shl : ∀ f, Rebuild.Statement (.shl f) := by
  intro f _ op g ho hg; cases ho; cases hg; exact ⟨by decide, rfl, rfl⟩

theorem Rebuild.shr : ∀ f, Rebuild.Statement (.shr f) := by
  intro f _ op g ho hg; cases ho; cases hg; exact ⟨by decide, rfl, rfl⟩

theorem Rebuild.sra : ∀ f, Rebuild.Statement (.sra f) := by
  intro f _ op g ho hg; cases ho; cases hg; exact ⟨by decide, rfl, rfl⟩

theorem Rebuild.rotl : ∀ f, Rebuild.Statement (.rotl f) := by
  intro f _ op g ho hg; cases ho; cases hg; exact ⟨by decide, rfl, rfl⟩

theorem Rebuild.clz : ∀ f, Rebuild.Statement (.clz f) := by
  intro f _ op g ho hg; cases ho; cases hg; exact ⟨by decide, rfl, rfl⟩

theorem Rebuild.popc : ∀ f, Rebuild.Statement (.popc f) := by
  intro f _ op g ho hg; cases ho; cases hg; exact ⟨by decide, rfl, rfl⟩

theorem Rebuild.bfx : ∀ f, Rebuild.Statement (.bfx f) := by
  intro f _ op g ho hg; cases ho; cases hg; exact ⟨by decide, rfl, rfl⟩

theorem Rebuild.bfi : ∀ f, Rebuild.Statement (.bfi f) := by
  intro f _ op g ho hg; cases ho; cases hg; exact ⟨by decide, rfl, rfl⟩

theorem Rebuild.cmpeq : ∀ f, Rebuild.Statement (.cmpeq f) := by
  intro f _ op g ho hg; cases ho; cases hg; exact ⟨by decide, rfl, rfl⟩

theorem Rebuild.cmpne : ∀ f, Rebuild.Statement (.cmpne f) := by
  intro f _ op g ho hg; cases ho; cases hg; exact ⟨by decide, rfl, rfl⟩

theorem Rebuild.cmplt : ∀ f, Rebuild.Statement (.cmplt f) := by
  intro f _ op g ho hg; cases ho; cases hg; exact ⟨by decide, rfl, rfl⟩

theorem Rebuild.cmple : ∀ f, Rebuild.Statement (.cmple f) := by
  intro f _ op g ho hg; cases ho; cases hg; exact ⟨by decide, rfl, rfl⟩

theorem Rebuild.sel : ∀ f, Rebuild.Statement (.sel f) := by
  intro f _ op g ho hg; cases ho; cases hg; exact ⟨by decide, rfl, rfl⟩

theorem Rebuild.mov : ∀ f, Rebuild.Statement (.mov f) := by
  intro f _ op g ho hg; cases ho; cases hg; exact ⟨by decide, rfl, rfl⟩

theorem Rebuild.movi : ∀ f, Rebuild.Statement (.movi f) := by
  intro f _ op g ho hg; cases ho; cases hg; exact ⟨by decide, rfl, rfl⟩

theorem Rebuild.movh : ∀ f, Rebuild.Statement (.movh f) := by
  intro f _ op g ho hg; cases ho; cases hg; exact ⟨by decide, rfl, rfl⟩

theorem Rebuild.lit : ∀ f, Rebuild.Statement (.lit f) := by
  intro f _ op g ho hg; cases ho; cases hg; exact ⟨by decide, rfl, rfl⟩

theorem Rebuild.nop : ∀ f, Rebuild.Statement (.nop f) := by
  intro f _ op g ho hg; cases ho; cases hg; exact ⟨by decide, rfl, rfl⟩

theorem Rebuild.fadd : ∀ f, Rebuild.Statement (.fadd f) := by
  intro f _ op g ho hg; cases ho; cases hg; exact ⟨by decide, rfl, rfl⟩

theorem Rebuild.fsub : ∀ f, Rebuild.Statement (.fsub f) := by
  intro f _ op g ho hg; cases ho; cases hg; exact ⟨by decide, rfl, rfl⟩

theorem Rebuild.fmul : ∀ f, Rebuild.Statement (.fmul f) := by
  intro f _ op g ho hg; cases ho; cases hg; exact ⟨by decide, rfl, rfl⟩

theorem Rebuild.fma : ∀ f, Rebuild.Statement (.fma f) := by
  intro f _ op g ho hg; cases ho; cases hg; exact ⟨by decide, rfl, rfl⟩

theorem Rebuild.fnma : ∀ f, Rebuild.Statement (.fnma f) := by
  intro f _ op g ho hg; cases ho; cases hg; exact ⟨by decide, rfl, rfl⟩

theorem Rebuild.fmin : ∀ f, Rebuild.Statement (.fmin f) := by
  intro f _ op g ho hg; cases ho; cases hg; exact ⟨by decide, rfl, rfl⟩

theorem Rebuild.fmax : ∀ f, Rebuild.Statement (.fmax f) := by
  intro f _ op g ho hg; cases ho; cases hg; exact ⟨by decide, rfl, rfl⟩

theorem Rebuild.fabs : ∀ f, Rebuild.Statement (.fabs f) := by
  intro f _ op g ho hg; cases ho; cases hg; exact ⟨by decide, rfl, rfl⟩

theorem Rebuild.fneg : ∀ f, Rebuild.Statement (.fneg f) := by
  intro f _ op g ho hg; cases ho; cases hg; exact ⟨by decide, rfl, rfl⟩

theorem Rebuild.fcmpeq : ∀ f, Rebuild.Statement (.fcmpeq f) := by
  intro f _ op g ho hg; cases ho; cases hg; exact ⟨by decide, rfl, rfl⟩

theorem Rebuild.fcmplt : ∀ f, Rebuild.Statement (.fcmplt f) := by
  intro f _ op g ho hg; cases ho; cases hg; exact ⟨by decide, rfl, rfl⟩

theorem Rebuild.fcmple : ∀ f, Rebuild.Statement (.fcmple f) := by
  intro f _ op g ho hg; cases ho; cases hg; exact ⟨by decide, rfl, rfl⟩

theorem Rebuild.fcmpun : ∀ f, Rebuild.Statement (.fcmpun f) := by
  intro f _ op g ho hg; cases ho; cases hg; exact ⟨by decide, rfl, rfl⟩

theorem Rebuild.fclass : ∀ f, Rebuild.Statement (.fclass f) := by
  intro f _ op g ho hg; cases ho; cases hg; exact ⟨by decide, rfl, rfl⟩

theorem Rebuild.fscale : ∀ f, Rebuild.Statement (.fscale f) := by
  intro f _ op g ho hg; cases ho; cases hg; exact ⟨by decide, rfl, rfl⟩

theorem Rebuild.fdiv : ∀ f, Rebuild.Statement (.fdiv f) := by
  intro f _ op g ho hg; cases ho; cases hg; exact ⟨by decide, rfl, rfl⟩

theorem Rebuild.frcp : ∀ f, Rebuild.Statement (.frcp f) := by
  intro f _ op g ho hg; cases ho; cases hg; exact ⟨by decide, rfl, rfl⟩

theorem Rebuild.frsq : ∀ f, Rebuild.Statement (.frsq f) := by
  intro f _ op g ho hg; cases ho; cases hg; exact ⟨by decide, rfl, rfl⟩

theorem Rebuild.fsqrt : ∀ f, Rebuild.Statement (.fsqrt f) := by
  intro f _ op g ho hg; cases ho; cases hg; exact ⟨by decide, rfl, rfl⟩

theorem Rebuild.fexp2 : ∀ f, Rebuild.Statement (.fexp2 f) := by
  intro f _ op g ho hg; cases ho; cases hg; exact ⟨by decide, rfl, rfl⟩

theorem Rebuild.flog2 : ∀ f, Rebuild.Statement (.flog2 f) := by
  intro f _ op g ho hg; cases ho; cases hg; exact ⟨by decide, rfl, rfl⟩

theorem Rebuild.fsig : ∀ f, Rebuild.Statement (.fsig f) := by
  intro f _ op g ho hg; cases ho; cases hg; exact ⟨by decide, rfl, rfl⟩

theorem Rebuild.ftanh : ∀ f, Rebuild.Statement (.ftanh f) := by
  intro f _ op g ho hg; cases ho; cases hg; exact ⟨by decide, rfl, rfl⟩

theorem Rebuild.cvt : ∀ f, Rebuild.Statement (.cvt f) := by
  intro f _ op g ho hg; cases ho; cases hg; exact ⟨by decide, rfl, rfl⟩

theorem Rebuild.cvts : ∀ f, Rebuild.Statement (.cvts f) := by
  intro f _ op g ho hg; cases ho; cases hg; exact ⟨by decide, rfl, rfl⟩

theorem Rebuild.pack : ∀ f, Rebuild.Statement (.pack f) := by
  intro f _ op g ho hg; cases ho; cases hg; exact ⟨by decide, rfl, rfl⟩

theorem Rebuild.unpk : ∀ f, Rebuild.Statement (.unpk f) := by
  intro f _ op g ho hg; cases ho; cases hg; exact ⟨by decide, rfl, rfl⟩

theorem Rebuild.bcast : ∀ f, Rebuild.Statement (.bcast f) := by
  intro f _ op g ho hg; cases ho; cases hg; exact ⟨by decide, rfl, rfl⟩

theorem Rebuild.shuf : ∀ f, Rebuild.Statement (.shuf f) := by
  intro f _ op g ho hg; cases ho; cases hg; exact ⟨by decide, rfl, rfl⟩

theorem Rebuild.rotx : ∀ f, Rebuild.Statement (.rotx f) := by
  intro f _ op g ho hg; cases ho; cases hg; exact ⟨by decide, rfl, rfl⟩

theorem Rebuild.lane : ∀ f, Rebuild.Statement (.lane f) := by
  intro f _ op g ho hg; cases ho; cases hg; exact ⟨by decide, rfl, rfl⟩

theorem Rebuild.insl : ∀ f, Rebuild.Statement (.insl f) := by
  intro f _ op g ho hg; cases ho; cases hg; exact ⟨by decide, rfl, rfl⟩

theorem Rebuild.redadd : ∀ f, Rebuild.Statement (.redadd f) := by
  intro f _ op g ho hg; cases ho; cases hg; exact ⟨by decide, rfl, rfl⟩

theorem Rebuild.redmax : ∀ f, Rebuild.Statement (.redmax f) := by
  intro f _ op g ho hg; cases ho; cases hg; exact ⟨by decide, rfl, rfl⟩

theorem Rebuild.redmin : ∀ f, Rebuild.Statement (.redmin f) := by
  intro f _ op g ho hg; cases ho; cases hg; exact ⟨by decide, rfl, rfl⟩

theorem Rebuild.scan : ∀ f, Rebuild.Statement (.scan f) := by
  intro f _ op g ho hg; cases ho; cases hg; exact ⟨by decide, rfl, rfl⟩

theorem Rebuild.wrd : ∀ f, Rebuild.Statement (.wrd f) := by
  intro f _ op g ho hg; cases ho; cases hg; exact ⟨by decide, rfl, rfl⟩

theorem Rebuild.wrdx : ∀ f, Rebuild.Statement (.wrdx f) := by
  intro f _ op g ho hg; cases ho; cases hg; exact ⟨by decide, rfl, rfl⟩

theorem Rebuild.wupd : ∀ f, Rebuild.Statement (.wupd f) := by
  intro f _ op g ho hg; cases ho; cases hg; exact ⟨by decide, rfl, rfl⟩

theorem Rebuild.wfil : ∀ f, Rebuild.Statement (.wfil f) := by
  intro f _ op g ho hg; cases ho; cases hg; exact ⟨by decide, rfl, rfl⟩

theorem Rebuild.wshr : ∀ f, Rebuild.Statement (.wshr f) := by
  intro f _ op g ho hg; cases ho; cases hg; exact ⟨by decide, rfl, rfl⟩

theorem Rebuild.wcnt : ∀ f, Rebuild.Statement (.wcnt f) := by
  intro f _ op g ho hg; cases ho; cases hg; exact ⟨by decide, rfl, rfl⟩

theorem Rebuild.wsave : ∀ f, Rebuild.Statement (.wsave f) := by
  intro f _ op g ho hg; cases ho; cases hg; exact ⟨by decide, rfl, rfl⟩

theorem Rebuild.wrest : ∀ f, Rebuild.Statement (.wrest f) := by
  intro f _ op g ho hg; cases ho; cases hg; exact ⟨by decide, rfl, rfl⟩

theorem Rebuild.hget : ∀ f, Rebuild.Statement (.hget f) := by
  intro f _ op g ho hg; cases ho; cases hg; exact ⟨by decide, rfl, rfl⟩

theorem Rebuild.ard : ∀ f, Rebuild.Statement (.ard f) := by
  intro f _ op g ho hg; cases ho; cases hg; exact ⟨by decide, rfl, rfl⟩

theorem Rebuild.awr : ∀ f, Rebuild.Statement (.awr f) := by
  intro f _ op g ho hg; cases ho; cases hg; exact ⟨by decide, rfl, rfl⟩

theorem Rebuild.aacc : ∀ f, Rebuild.Statement (.aacc f) := by
  intro f _ op g ho hg; cases ho; cases hg; exact ⟨by decide, rfl, rfl⟩

theorem Rebuild.apatchSet : ∀ f, Rebuild.Statement (.apatchSet f) := by
  intro f h op g ho hg; cases ho; cases hg
  simp only [selectorOk, decide_eq_true_eq, Bool.or_eq_true, Bool.and_eq_true, ge_iff_le] at h
  exact ⟨by decide, rfl, by simp [buildFor, buildD, buildM, buildC, buildE, buildW]; grind⟩

theorem Rebuild.apatchAdd : ∀ f, Rebuild.Statement (.apatchAdd f) := by
  intro f h op g ho hg; cases ho; cases hg
  simp only [selectorOk, decide_eq_true_eq, Bool.or_eq_true, Bool.and_eq_true, ge_iff_le] at h
  exact ⟨by decide, rfl, by simp [buildFor, buildD, buildM, buildC, buildE, buildW]; grind⟩

theorem Rebuild.apatchScale : ∀ f, Rebuild.Statement (.apatchScale f) := by
  intro f h op g ho hg; cases ho; cases hg
  simp only [selectorOk, decide_eq_true_eq, Bool.or_eq_true, Bool.and_eq_true, ge_iff_le] at h
  exact ⟨by decide, rfl, by simp [buildFor, buildD, buildM, buildC, buildE, buildW]; grind⟩

theorem Rebuild.aclr : ∀ f, Rebuild.Statement (.aclr f) := by
  intro f _ op g ho hg; cases ho; cases hg; exact ⟨by decide, rfl, rfl⟩

theorem Rebuild.ld : ∀ f, Rebuild.Statement (.ld f) := by
  intro f _ op g ho hg; cases ho; cases hg; exact ⟨by decide, rfl, rfl⟩

theorem Rebuild.ld2 : ∀ f, Rebuild.Statement (.ld2 f) := by
  intro f _ op g ho hg; cases ho; cases hg; exact ⟨by decide, rfl, rfl⟩

theorem Rebuild.lds : ∀ f, Rebuild.Statement (.lds f) := by
  intro f _ op g ho hg; cases ho; cases hg; exact ⟨by decide, rfl, rfl⟩

theorem Rebuild.st : ∀ f, Rebuild.Statement (.st f) := by
  intro f _ op g ho hg; cases ho; cases hg; exact ⟨by decide, rfl, rfl⟩

theorem Rebuild.sts : ∀ f, Rebuild.Statement (.sts f) := by
  intro f _ op g ho hg; cases ho; cases hg; exact ⟨by decide, rfl, rfl⟩

theorem Rebuild.gath : ∀ f, Rebuild.Statement (.gath f) := by
  intro f _ op g ho hg; cases ho; cases hg; exact ⟨by decide, rfl, rfl⟩

theorem Rebuild.scat : ∀ f, Rebuild.Statement (.scat f) := by
  intro f _ op g ho hg; cases ho; cases hg; exact ⟨by decide, rfl, rfl⟩

theorem Rebuild.pref : ∀ f, Rebuild.Statement (.pref f) := by
  intro f _ op g ho hg; cases ho; cases hg; exact ⟨by decide, rfl, rfl⟩

theorem Rebuild.atadd : ∀ f, Rebuild.Statement (.atadd f) := by
  intro f _ op g ho hg; cases ho; cases hg; exact ⟨by decide, rfl, rfl⟩

theorem Rebuild.atfadd : ∀ f, Rebuild.Statement (.atfadd f) := by
  intro f _ op g ho hg; cases ho; cases hg; exact ⟨by decide, rfl, rfl⟩

theorem Rebuild.atmin : ∀ f, Rebuild.Statement (.atmin f) := by
  intro f _ op g ho hg; cases ho; cases hg; exact ⟨by decide, rfl, rfl⟩

theorem Rebuild.atmax : ∀ f, Rebuild.Statement (.atmax f) := by
  intro f _ op g ho hg; cases ho; cases hg; exact ⟨by decide, rfl, rfl⟩

theorem Rebuild.atfmax : ∀ f, Rebuild.Statement (.atfmax f) := by
  intro f _ op g ho hg; cases ho; cases hg; exact ⟨by decide, rfl, rfl⟩

theorem Rebuild.atand : ∀ f, Rebuild.Statement (.atand f) := by
  intro f _ op g ho hg; cases ho; cases hg; exact ⟨by decide, rfl, rfl⟩

theorem Rebuild.ator : ∀ f, Rebuild.Statement (.ator f) := by
  intro f _ op g ho hg; cases ho; cases hg; exact ⟨by decide, rfl, rfl⟩

theorem Rebuild.atxor : ∀ f, Rebuild.Statement (.atxor f) := by
  intro f _ op g ho hg; cases ho; cases hg; exact ⟨by decide, rfl, rfl⟩

theorem Rebuild.atxch : ∀ f, Rebuild.Statement (.atxch f) := by
  intro f _ op g ho hg; cases ho; cases hg; exact ⟨by decide, rfl, rfl⟩

theorem Rebuild.atcas : ∀ f, Rebuild.Statement (.atcas f) := by
  intro f _ op g ho hg; cases ho; cases hg; exact ⟨by decide, rfl, rfl⟩

theorem Rebuild.fence : ∀ f, Rebuild.Statement (.fence f) := by
  intro f _ op g ho hg; cases ho; cases hg; exact ⟨by decide, rfl, rfl⟩

theorem Rebuild.xfence : ∀ f, Rebuild.Statement (.xfence f) := by
  intro f _ op g ho hg; cases ho; cases hg; exact ⟨by decide, rfl, rfl⟩

theorem Rebuild.tset : ∀ f, Rebuild.Statement (.tset f) := by
  intro f _ op g ho hg; cases ho; cases hg; exact ⟨by decide, rfl, rfl⟩

theorem Rebuild.tget : ∀ f, Rebuild.Statement (.tget f) := by
  intro f _ op g ho hg; cases ho; cases hg; exact ⟨by decide, rfl, rfl⟩

theorem Rebuild.bara : ∀ f, Rebuild.Statement (.bara f) := by
  intro f _ op g ho hg; cases ho; cases hg; exact ⟨by decide, rfl, rfl⟩

theorem Rebuild.barw : ∀ f, Rebuild.Statement (.barw f) := by
  intro f _ op g ho hg; cases ho; cases hg; exact ⟨by decide, rfl, rfl⟩

theorem Rebuild.baraw : ∀ f, Rebuild.Statement (.baraw f) := by
  intro f _ op g ho hg; cases ho; cases hg; exact ⟨by decide, rfl, rfl⟩

theorem Rebuild.waitc : ∀ f, Rebuild.Statement (.waitc f) := by
  intro f _ op g ho hg; cases ho; cases hg; exact ⟨by decide, rfl, rfl⟩

theorem Rebuild.br : ∀ f, Rebuild.Statement (.br f) := by
  intro f _ op g ho hg; cases ho; cases hg; exact ⟨by decide, rfl, rfl⟩

theorem Rebuild.brc : ∀ f, Rebuild.Statement (.brc f) := by
  intro f _ op g ho hg; cases ho; cases hg; exact ⟨by decide, rfl, rfl⟩

theorem Rebuild.brx : ∀ f, Rebuild.Statement (.brx f) := by
  intro f _ op g ho hg; cases ho; cases hg; exact ⟨by decide, rfl, rfl⟩

theorem Rebuild.call : ∀ f, Rebuild.Statement (.call f) := by
  intro f _ op g ho hg; cases ho; cases hg; exact ⟨by decide, rfl, rfl⟩

theorem Rebuild.ret : ∀ f, Rebuild.Statement (.ret f) := by
  intro f _ op g ho hg; cases ho; cases hg; exact ⟨by decide, rfl, rfl⟩

theorem Rebuild.grd : ∀ f, Rebuild.Statement (.grd f) := by
  intro f _ op g ho hg; cases ho; cases hg; exact ⟨by decide, rfl, rfl⟩

theorem Rebuild.mfk : ∀ f, Rebuild.Statement (.mfk f) := by
  intro f _ op g ho hg; cases ho; cases hg; exact ⟨by decide, rfl, rfl⟩

theorem Rebuild.mtk : ∀ f, Rebuild.Statement (.mtk f) := by
  intro f h op g ho hg; cases ho; cases hg
  simp only [selectorOk, decide_eq_true_eq, Bool.or_eq_true, Bool.and_eq_true, ge_iff_le] at h
  exact ⟨by decide, rfl, by simp [buildFor, buildD, buildM, buildC, buildE, buildW]; grind⟩

theorem Rebuild.fpxClear : ∀ f, Rebuild.Statement (.fpxClear f) := by
  intro f h op g ho hg; cases ho; cases hg
  simp only [selectorOk, decide_eq_true_eq, Bool.or_eq_true, Bool.and_eq_true, ge_iff_le] at h
  exact ⟨by decide, rfl, by simp [buildFor, buildD, buildM, buildC, buildE, buildW]; grind⟩

theorem Rebuild.wpHitClear : ∀ f, Rebuild.Statement (.wpHitClear f) := by
  intro f h op g ho hg; cases ho; cases hg
  simp only [selectorOk, decide_eq_true_eq, Bool.or_eq_true, Bool.and_eq_true, ge_iff_le] at h
  exact ⟨by decide, rfl, by simp [buildFor, buildD, buildM, buildC, buildE, buildW]; grind⟩

theorem Rebuild.trap : ∀ f, Rebuild.Statement (.trap f) := by
  intro f _ op g ho hg; cases ho; cases hg; exact ⟨by decide, rfl, rfl⟩

theorem Rebuild.rft : ∀ f, Rebuild.Statement (.rft f) := by
  intro f _ op g ho hg; cases ho; cases hg; exact ⟨by decide, rfl, rfl⟩

theorem Rebuild.halt : ∀ f, Rebuild.Statement (.halt f) := by
  intro f _ op g ho hg; cases ho; cases hg; exact ⟨by decide, rfl, rfl⟩

theorem Rebuild.evwait : ∀ f, Rebuild.Statement (.evwait f) := by
  intro f _ op g ho hg; cases ho; cases hg; exact ⟨by decide, rfl, rfl⟩

theorem Rebuild.cactor : ∀ f, Rebuild.Statement (.cactor f) := by
  intro f h op g ho hg; cases ho; cases hg
  simp only [selectorOk, decide_eq_true_eq, Bool.or_eq_true, Bool.and_eq_true, ge_iff_le] at h
  exact ⟨by decide, rfl, by simp [buildFor, buildD, buildM, buildC, buildE, buildW]; grind⟩

theorem Rebuild.cactorUnbind : ∀ f, Rebuild.Statement (.cactorUnbind f) := by
  intro f h op g ho hg; cases ho; cases hg
  simp only [selectorOk, decide_eq_true_eq, Bool.or_eq_true, Bool.and_eq_true, ge_iff_le] at h
  exact ⟨by decide, rfl, by simp [buildFor, buildD, buildM, buildC, buildE, buildW]; grind⟩

theorem Rebuild.cport : ∀ f, Rebuild.Statement (.cport f) := by
  intro f _ op g ho hg; cases ho; cases hg; exact ⟨by decide, rfl, rfl⟩

theorem Rebuild.cwin : ∀ f, Rebuild.Statement (.cwin f) := by
  intro f _ op g ho hg; cases ho; cases hg; exact ⟨by decide, rfl, rfl⟩

theorem Rebuild.wgrow : ∀ f, Rebuild.Statement (.wgrow f) := by
  intro f _ op g ho hg; cases ho; cases hg; exact ⟨by decide, rfl, rfl⟩

theorem Rebuild.croute : ∀ f, Rebuild.Statement (.croute f) := by
  intro f _ op g ho hg; cases ho; cases hg; exact ⟨by decide, rfl, rfl⟩

theorem Rebuild.csteer : ∀ f, Rebuild.Statement (.csteer f) := by
  intro f _ op g ho hg; cases ho; cases hg; exact ⟨by decide, rfl, rfl⟩

theorem Rebuild.cmerge : ∀ f, Rebuild.Statement (.cmerge f) := by
  intro f _ op g ho hg; cases ho; cases hg; exact ⟨by decide, rfl, rfl⟩

theorem Rebuild.ccarry : ∀ f, Rebuild.Statement (.ccarry f) := by
  intro f _ op g ho hg; cases ho; cases hg; exact ⟨by decide, rfl, rfl⟩

theorem Rebuild.cinv : ∀ f, Rebuild.Statement (.cinv f) := by
  intro f _ op g ho hg; cases ho; cases hg; exact ⟨by decide, rfl, rfl⟩

theorem Rebuild.cchain : ∀ f, Rebuild.Statement (.cchain f) := by
  intro f _ op g ho hg; cases ho; cases hg; exact ⟨by decide, rfl, rfl⟩

theorem Rebuild.cloop : ∀ f, Rebuild.Statement (.cloop f) := by
  intro f _ op g ho hg; cases ho; cases hg; exact ⟨by decide, rfl, rfl⟩

theorem Rebuild.cturn : ∀ f, Rebuild.Statement (.cturn f) := by
  intro f _ op g ho hg; cases ho; cases hg; exact ⟨by decide, rfl, rfl⟩

theorem Rebuild.cmodeMatrixRectangle : ∀ f, Rebuild.Statement (.cmodeMatrixRectangle f) := by
  intro f h op g ho hg; cases ho; cases hg
  simp only [selectorOk, decide_eq_true_eq, Bool.or_eq_true, Bool.and_eq_true, ge_iff_le] at h
  exact ⟨by decide, rfl, by simp [buildFor, buildD, buildM, buildC, buildE, buildW]; grind⟩

theorem Rebuild.cmodePatchLogWindow : ∀ f, Rebuild.Statement (.cmodePatchLogWindow f) := by
  intro f h op g ho hg; cases ho; cases hg
  simp only [selectorOk, decide_eq_true_eq, Bool.or_eq_true, Bool.and_eq_true, ge_iff_le] at h
  exact ⟨by decide, rfl, by simp [buildFor, buildD, buildM, buildC, buildE, buildW]; grind⟩

theorem Rebuild.cmodeBarrierCount : ∀ f, Rebuild.Statement (.cmodeBarrierCount f) := by
  intro f h op g ho hg; cases ho; cases hg
  simp only [selectorOk, decide_eq_true_eq, Bool.or_eq_true, Bool.and_eq_true, ge_iff_le] at h
  exact ⟨by decide, rfl, by simp [buildFor, buildD, buildM, buildC, buildE, buildW]; grind⟩

theorem Rebuild.cdesc : ∀ f, Rebuild.Statement (.cdesc f) := by
  intro f _ op g ho hg; cases ho; cases hg; exact ⟨by decide, rfl, rfl⟩

theorem Rebuild.cswap : ∀ f, Rebuild.Statement (.cswap f) := by
  intro f h op g ho hg; cases ho; cases hg
  simp only [selectorOk, decide_eq_true_eq, Bool.or_eq_true, Bool.and_eq_true, ge_iff_le] at h
  exact ⟨by decide, rfl, by simp [buildFor, buildD, buildM, buildC, buildE, buildW]; grind⟩

theorem Rebuild.cswapDiscard : ∀ f, Rebuild.Statement (.cswapDiscard f) := by
  intro f h op g ho hg; cases ho; cases hg
  simp only [selectorOk, decide_eq_true_eq, Bool.or_eq_true, Bool.and_eq_true, ge_iff_le] at h
  exact ⟨by decide, rfl, by simp [buildFor, buildD, buildM, buildC, buildE, buildW]; grind⟩

theorem Rebuild.cqui : ∀ f, Rebuild.Statement (.cqui f) := by
  intro f _ op g ho hg; cases ho; cases hg; exact ⟨by decide, rfl, rfl⟩

theorem Rebuild.mxldw : ∀ f, Rebuild.Statement (.mxldw f) := by
  intro f _ op g ho hg; cases ho; cases hg; exact ⟨by decide, rfl, rfl⟩

theorem Rebuild.mxsel : ∀ f, Rebuild.Statement (.mxsel f) := by
  intro f _ op g ho hg; cases ho; cases hg; exact ⟨by decide, rfl, rfl⟩

theorem Rebuild.mxrun : ∀ f, Rebuild.Statement (.mxrun f) := by
  intro f _ op g ho hg; cases ho; cases hg; exact ⟨by decide, rfl, rfl⟩

theorem Rebuild.mxstat : ∀ f, Rebuild.Statement (.mxstat f) := by
  intro f _ op g ho hg; cases ho; cases hg; exact ⟨by decide, rfl, rfl⟩

theorem Rebuild.mxthr : ∀ f, Rebuild.Statement (.mxthr f) := by
  intro f _ op g ho hg; cases ho; cases hg; exact ⟨by decide, rfl, rfl⟩

theorem Rebuild.mxpeek : ∀ f, Rebuild.Statement (.mxpeek f) := by
  intro f _ op g ho hg; cases ho; cases hg; exact ⟨by decide, rfl, rfl⟩

theorem Rebuild.cpy : ∀ f, Rebuild.Statement (.cpy f) := by
  intro f h op g ho hg; cases ho; cases hg
  simp only [selectorOk, decide_eq_true_eq, Bool.or_eq_true, Bool.and_eq_true, ge_iff_le] at h
  exact ⟨by decide, rfl, by simp [buildFor, buildD, buildM, buildC, buildE, buildW]; grind⟩

theorem Rebuild.cpyChained : ∀ f, Rebuild.Statement (.cpyChained f) := by
  intro f h op g ho hg; cases ho; cases hg
  simp only [selectorOk, decide_eq_true_eq, Bool.or_eq_true, Bool.and_eq_true, ge_iff_le] at h
  exact ⟨by decide, rfl, by simp [buildFor, buildD, buildM, buildC, buildE, buildW]; grind⟩

theorem Rebuild.cpyw : ∀ f, Rebuild.Statement (.cpyw f) := by
  intro f _ op g ho hg; cases ho; cases hg; exact ⟨by decide, rfl, rfl⟩

theorem Rebuild.cpyr : ∀ f, Rebuild.Statement (.cpyr f) := by
  intro f _ op g ho hg; cases ho; cases hg; exact ⟨by decide, rfl, rfl⟩

theorem Rebuild.cpyi : ∀ f, Rebuild.Statement (.cpyi f) := by
  intro f _ op g ho hg; cases ho; cases hg; exact ⟨by decide, rfl, rfl⟩

theorem Rebuild.cpypMax : ∀ f, Rebuild.Statement (.cpypMax f) := by
  intro f h op g ho hg; cases ho; cases hg
  simp only [selectorOk, decide_eq_true_eq, Bool.or_eq_true, Bool.and_eq_true, ge_iff_le] at h
  exact ⟨by decide, rfl, by simp [buildFor, buildD, buildM, buildC, buildE, buildW]; grind⟩

theorem Rebuild.cpypAvg : ∀ f, Rebuild.Statement (.cpypAvg f) := by
  intro f h op g ho hg; cases ho; cases hg
  simp only [selectorOk, decide_eq_true_eq, Bool.or_eq_true, Bool.and_eq_true, ge_iff_le] at h
  exact ⟨by decide, rfl, by simp [buildFor, buildD, buildM, buildC, buildE, buildW]; grind⟩

theorem Rebuild.cpyf : ∀ f, Rebuild.Statement (.cpyf f) := by
  intro f _ op g ho hg; cases ho; cases hg; exact ⟨by decide, rfl, rfl⟩

theorem Rebuild.strmRead : ∀ f, Rebuild.Statement (.strmRead f) := by
  intro f h op g ho hg; cases ho; cases hg
  simp only [selectorOk, decide_eq_true_eq, Bool.or_eq_true, Bool.and_eq_true, ge_iff_le] at h
  exact ⟨by decide, rfl, by simp [buildFor, buildD, buildM, buildC, buildE, buildW]; grind⟩

theorem Rebuild.strmWrite : ∀ f, Rebuild.Statement (.strmWrite f) := by
  intro f h op g ho hg; cases ho; cases hg
  simp only [selectorOk, decide_eq_true_eq, Bool.or_eq_true, Bool.and_eq_true, ge_iff_le] at h
  exact ⟨by decide, rfl, by simp [buildFor, buildD, buildM, buildC, buildE, buildW]; grind⟩

theorem Rebuild.strw : ∀ f, Rebuild.Statement (.strw f) := by
  intro f _ op g ho hg; cases ho; cases hg; exact ⟨by decide, rfl, rfl⟩

theorem Rebuild.strxStop : ∀ f, Rebuild.Statement (.strxStop f) := by
  intro f h op g ho hg; cases ho; cases hg
  simp only [selectorOk, decide_eq_true_eq, Bool.or_eq_true, Bool.and_eq_true, ge_iff_le] at h
  exact ⟨by decide, rfl, by simp [buildFor, buildD, buildM, buildC, buildE, buildW]; grind⟩

theorem Rebuild.strxResume : ∀ f, Rebuild.Statement (.strxResume f) := by
  intro f h op g ho hg; cases ho; cases hg
  simp only [selectorOk, decide_eq_true_eq, Bool.or_eq_true, Bool.and_eq_true, ge_iff_le] at h
  exact ⟨by decide, rfl, by simp [buildFor, buildD, buildM, buildC, buildE, buildW]; grind⟩

theorem Rebuild.tqry : ∀ f, Rebuild.Statement (.tqry f) := by
  intro f _ op g ho hg; cases ho; cases hg; exact ⟨by decide, rfl, rfl⟩

theorem Rebuild.tin : ∀ f, Rebuild.Statement (.tin f) := by
  intro f _ op g ho hg; cases ho; cases hg; exact ⟨by decide, rfl, rfl⟩

theorem Rebuild.tout : ∀ f, Rebuild.Statement (.tout f) := by
  intro f _ op g ho hg; cases ho; cases hg; exact ⟨by decide, rfl, rfl⟩

theorem Rebuild.nsend : ∀ f, Rebuild.Statement (.nsend f) := by
  intro f _ op g ho hg; cases ho; cases hg; exact ⟨by decide, rfl, rfl⟩

theorem Rebuild.nget : ∀ f, Rebuild.Statement (.nget f) := by
  intro f _ op g ho hg; cases ho; cases hg; exact ⟨by decide, rfl, rfl⟩

theorem Rebuild.nredAdd : ∀ f, Rebuild.Statement (.nredAdd f) := by
  intro f h op g ho hg; cases ho; cases hg
  simp only [selectorOk, decide_eq_true_eq, Bool.or_eq_true, Bool.and_eq_true, ge_iff_le] at h
  exact ⟨by decide, rfl, by simp [buildFor, buildD, buildM, buildC, buildE, buildW]; grind⟩

theorem Rebuild.nredMax : ∀ f, Rebuild.Statement (.nredMax f) := by
  intro f h op g ho hg; cases ho; cases hg
  simp only [selectorOk, decide_eq_true_eq, Bool.or_eq_true, Bool.and_eq_true, ge_iff_le] at h
  exact ⟨by decide, rfl, by simp [buildFor, buildD, buildM, buildC, buildE, buildW]; grind⟩

theorem Rebuild.nredMin : ∀ f, Rebuild.Statement (.nredMin f) := by
  intro f h op g ho hg; cases ho; cases hg
  simp only [selectorOk, decide_eq_true_eq, Bool.or_eq_true, Bool.and_eq_true, ge_iff_le] at h
  exact ⟨by decide, rfl, by simp [buildFor, buildD, buildM, buildC, buildE, buildW]; grind⟩

theorem Rebuild.xinv : ∀ f, Rebuild.Statement (.xinv f) := by
  intro f _ op g ho hg; cases ho; cases hg; exact ⟨by decide, rfl, rfl⟩

theorem Rebuild.wpsetDescriptor : ∀ f, Rebuild.Statement (.wpsetDescriptor f) := by
  intro f h op g ho hg; cases ho; cases hg
  simp only [selectorOk, decide_eq_true_eq, Bool.or_eq_true, Bool.and_eq_true, ge_iff_le] at h
  exact ⟨by decide, rfl, by simp [buildFor, buildD, buildM, buildC, buildE, buildW]; grind⟩

theorem Rebuild.wpsetRange : ∀ f, Rebuild.Statement (.wpsetRange f) := by
  intro f h op g ho hg; cases ho; cases hg
  simp only [selectorOk, decide_eq_true_eq, Bool.or_eq_true, Bool.and_eq_true, ge_iff_le] at h
  exact ⟨by decide, rfl, by simp [buildFor, buildD, buildM, buildC, buildE, buildW]; grind⟩

theorem Rebuild.wpclr : ∀ f, Rebuild.Statement (.wpclr f) := by
  intro f _ op g ho hg; cases ho; cases hg; exact ⟨by decide, rfl, rfl⟩

theorem Rebuild.mark : ∀ f, Rebuild.Statement (.mark f) := by
  intro f _ op g ho hg; cases ho; cases hg; exact ⟨by decide, rfl, rfl⟩

theorem Rebuild.rwcArm : ∀ f, Rebuild.Statement (.rwcArm f) := by
  intro f h op g ho hg; cases ho; cases hg
  simp only [selectorOk, decide_eq_true_eq, Bool.or_eq_true, Bool.and_eq_true, ge_iff_le] at h
  exact ⟨by decide, rfl, by simp [buildFor, buildD, buildM, buildC, buildE, buildW]; grind⟩

theorem Rebuild.rwcCancel : ∀ f, Rebuild.Statement (.rwcCancel f) := by
  intro f h op g ho hg; cases ho; cases hg
  simp only [selectorOk, decide_eq_true_eq, Bool.or_eq_true, Bool.and_eq_true, ge_iff_le] at h
  exact ⟨by decide, rfl, by simp [buildFor, buildD, buildM, buildC, buildE, buildW]; grind⟩

theorem Rebuild.finj : ∀ f, Rebuild.Statement (.finj f) := by
  intro f _ op g ho hg; cases ho; cases hg; exact ⟨by decide, rfl, rfl⟩

theorem Rebuild.mcrd : ∀ f, Rebuild.Statement (.mcrd f) := by
  intro f _ op g ho hg; cases ho; cases hg; exact ⟨by decide, rfl, rfl⟩

theorem Rebuild.profStart : ∀ f, Rebuild.Statement (.profStart f) := by
  intro f h op g ho hg; cases ho; cases hg
  simp only [selectorOk, decide_eq_true_eq, Bool.or_eq_true, Bool.and_eq_true, ge_iff_le] at h
  exact ⟨by decide, rfl, by simp [buildFor, buildD, buildM, buildC, buildE, buildW]; grind⟩

theorem Rebuild.profStop : ∀ f, Rebuild.Statement (.profStop f) := by
  intro f h op g ho hg; cases ho; cases hg
  simp only [selectorOk, decide_eq_true_eq, Bool.or_eq_true, Bool.and_eq_true, ge_iff_le] at h
  exact ⟨by decide, rfl, by simp [buildFor, buildD, buildM, buildC, buildE, buildW]; grind⟩

theorem Rebuild.profRead : ∀ f, Rebuild.Statement (.profRead f) := by
  intro f h op g ho hg; cases ho; cases hg
  simp only [selectorOk, decide_eq_true_eq, Bool.or_eq_true, Bool.and_eq_true, ge_iff_le] at h
  exact ⟨by decide, rfl, by simp [buildFor, buildD, buildM, buildC, buildE, buildW]; grind⟩

theorem Rebuild.walk : ∀ f, Rebuild.Statement (.walk f) := by
  intro f _ op g ho hg; cases ho; cases hg; exact ⟨by decide, rfl, rfl⟩

theorem Rebuild.firingStart : ∀ core pe, Rebuild.Statement (.firingStart core pe) := by
  intros; intro _ op f h; cases h

theorem Rebuild.waitingFiringResume : ∀ who slot, Rebuild.Statement (.waitingFiringResume who slot) := by
  intros; intro _ op f h; cases h

theorem Rebuild.firingComplete : ∀ core at_, Rebuild.Statement (.firingComplete core at_) := by
  intros; intro _ op f h; cases h

theorem Rebuild.commit : ∀ core at_, Rebuild.Statement (.commit core at_) := by
  intros; intro _ op f h; cases h

theorem Rebuild.rowRelease : ∀ core unit, Rebuild.Statement (.rowRelease core unit) := by
  intros; intro _ op f h; cases h

theorem Rebuild.loadSlotGrant : ∀ core chan, Rebuild.Statement (.loadSlotGrant core chan) := by
  intros; intro _ op f h; cases h

theorem Rebuild.loadResponse : ∀ id lane, Rebuild.Statement (.loadResponse id lane) := by
  intros; intro _ op f h; cases h

theorem Rebuild.eagerAtomicReturn : ∀ id, Rebuild.Statement (.eagerAtomicReturn id) := by
  intros; intro _ op f h; cases h

theorem Rebuild.sliceAccess : ∀ x, Rebuild.Statement (.sliceAccess x) := by
  intros; intro _ op f h; cases h

theorem Rebuild.storeUnitPerform : ∀ id, Rebuild.Statement (.storeUnitPerform id) := by
  intros; intro _ op f h; cases h

theorem Rebuild.horizonBroadcast : ∀ region, Rebuild.Statement (.horizonBroadcast region) := by
  intros; intro _ op f h; cases h

theorem Rebuild.sequencerBlockComplete : ∀ who, Rebuild.Statement (.sequencerBlockComplete who) := by
  intros; intro _ op f h; cases h

theorem Rebuild.sequencerWaitEnd : ∀ core, Rebuild.Statement (.sequencerWaitEnd core) := by
  intros; intro _ op f h; cases h

theorem Rebuild.seqBlockFetch : ∀ core, Rebuild.Statement (.seqBlockFetch core) := by
  intros; intro _ op f h; cases h

theorem Rebuild.trapDelivery : ∀ core, Rebuild.Statement (.trapDelivery core) := by
  intros; intro _ op f h; cases h

theorem Rebuild.engineQueueEntry : ∀ core, Rebuild.Statement (.engineQueueEntry core) := by
  intros; intro _ op f h; cases h

theorem Rebuild.engineCommandStart : ∀ core eng, Rebuild.Statement (.engineCommandStart core eng) := by
  intros; intro _ op f h; cases h

theorem Rebuild.engineCommandComplete : ∀ core eng, Rebuild.Statement (.engineCommandComplete core eng) := by
  intros; intro _ op f h; cases h

theorem Rebuild.generatorRowFill : ∀ core gen, Rebuild.Statement (.generatorRowFill core gen) := by
  intros; intro _ op f h; cases h

theorem Rebuild.generatorRowShrink : ∀ core gen, Rebuild.Statement (.generatorRowShrink core gen) := by
  intros; intro _ op f h; cases h

theorem Rebuild.chainedHalfStart : ∀ core, Rebuild.Statement (.chainedHalfStart core) := by
  intros; intro _ op f h; cases h

theorem Rebuild.mxldwRecordWrite : ∀ core, Rebuild.Statement (.mxldwRecordWrite core) := by
  intros; intro _ op f h; cases h

theorem Rebuild.matrixRecordLoad : ∀ core, Rebuild.Statement (.matrixRecordLoad core) := by
  intros; intro _ op f h; cases h

theorem Rebuild.matrixRowAdmit : ∀ core, Rebuild.Statement (.matrixRowAdmit core) := by
  intros; intro _ op f h; cases h

theorem Rebuild.matrixAccWrite : ∀ core, Rebuild.Statement (.matrixAccWrite core) := by
  intros; intro _ op f h; cases h

theorem Rebuild.tinComplete : ∀ ctx page, Rebuild.Statement (.tinComplete ctx page) := by
  intros; intro _ op f h; cases h

theorem Rebuild.toutComplete : ∀ ctx page, Rebuild.Statement (.toutComplete ctx page) := by
  intros; intro _ op f h; cases h

theorem Rebuild.pageWalk : ∀ w, Rebuild.Statement (.pageWalk w) := by
  intros; intro _ op f h; cases h

theorem Rebuild.kilnPageIn : ∀ ctx page, Rebuild.Statement (.kilnPageIn ctx page) := by
  intros; intro _ op f h; cases h

theorem Rebuild.tierEntryFree : ∀ core, Rebuild.Statement (.tierEntryFree core) := by
  intros; intro _ op f h; cases h

theorem Rebuild.kilnFaultResolve : ∀ core fix leaf, Rebuild.Statement (.kilnFaultResolve core fix leaf) := by
  intros; intro _ op f h; cases h

theorem Rebuild.sideCounterFlush : ∀ core n, Rebuild.Statement (.sideCounterFlush core n) := by
  intros; intro _ op f h; cases h

theorem Rebuild.commandWindowWrite : ∀ ctx row auth, Rebuild.Statement (.commandWindowWrite ctx row auth) := by
  intros; intro _ op f h; cases h

theorem Rebuild.launch : ∀ ctx place pool laid, Rebuild.Statement (.launch ctx place pool laid) := by
  intros; intro _ op f h; cases h

theorem Rebuild.launchRetake : ∀ ctx place pool laid, Rebuild.Statement (.launchRetake ctx place pool laid) := by
  intros; intro _ op f h; cases h

theorem Rebuild.completionRecordFill : ∀ ctx, Rebuild.Statement (.completionRecordFill ctx) := by
  intros; intro _ op f h; cases h

theorem Rebuild.completionShrink : ∀ ctx n, Rebuild.Statement (.completionShrink ctx n) := by
  intros; intro _ op f h; cases h

theorem Rebuild.dispatchBatch : ∀ die, Rebuild.Statement (.dispatchBatch die) := by
  intros; intro _ op f h; cases h

theorem Rebuild.groupBind : ∀ die, Rebuild.Statement (.groupBind die) := by
  intros; intro _ op f h; cases h

theorem Rebuild.bindPlaneLight : ∀ core, Rebuild.Statement (.bindPlaneLight core) := by
  intros; intro _ op f h; cases h

theorem Rebuild.cswapLighting : ∀ core, Rebuild.Statement (.cswapLighting core) := by
  intros; intro _ op f h; cases h

theorem Rebuild.groupComplete : ∀ core, Rebuild.Statement (.groupComplete core) := by
  intros; intro _ op f h; cases h

theorem Rebuild.regionEnd : ∀ region, Rebuild.Statement (.regionEnd region) := by
  intros; intro _ op f h; cases h

theorem Rebuild.gangRecordReady : ∀ rec, Rebuild.Statement (.gangRecordReady rec) := by
  intros; intro _ op f h; cases h

theorem Rebuild.gangReadinessCheck : ∀ gang, Rebuild.Statement (.gangReadinessCheck gang) := by
  intros; intro _ op f h; cases h

theorem Rebuild.gangSwitch : ∀ gang, Rebuild.Statement (.gangSwitch gang) := by
  intros; intro _ op f h; cases h

theorem Rebuild.preemptionMarker : ∀ core el, Rebuild.Statement (.preemptionMarker core el) := by
  intros; intro _ op f h; cases h

theorem Rebuild.snapshotMarker : ∀ core, Rebuild.Statement (.snapshotMarker core) := by
  intros; intro _ op f h; cases h

theorem Rebuild.snapshotTimer : ∀ region, Rebuild.Statement (.snapshotTimer region) := by
  intros; intro _ op f h; cases h

theorem Rebuild.cutComplete : ∀ region, Rebuild.Statement (.cutComplete region) := by
  intros; intro _ op f h; cases h

theorem Rebuild.undoLogHalf : ∀ region, Rebuild.Statement (.undoLogHalf region) := by
  intros; intro _ op f h; cases h

theorem Rebuild.undoLogFull : ∀ region, Rebuild.Statement (.undoLogFull region) := by
  intros; intro _ op f h; cases h

theorem Rebuild.regionRollback : ∀ region, Rebuild.Statement (.regionRollback region) := by
  intros; intro _ op f h; cases h

theorem Rebuild.regionStop : ∀ region, Rebuild.Statement (.regionStop region) := by
  intros; intro _ op f h; cases h

theorem Rebuild.coreFreeze : ∀ core, Rebuild.Statement (.coreFreeze core) := by
  intros; intro _ op f h; cases h

theorem Rebuild.rwcStop : ∀ core, Rebuild.Statement (.rwcStop core) := by
  intros; intro _ op f h; cases h

theorem Rebuild.errorRecordWrite : ∀ die what, Rebuild.Statement (.errorRecordWrite die what) := by
  intros; intro _ op f h; cases h

theorem Rebuild.coreRetire : ∀ core site, Rebuild.Statement (.coreRetire core site) := by
  intros; intro _ op f h; cases h

theorem Rebuild.skidReport : ∀ core eng, Rebuild.Statement (.skidReport core eng) := by
  intros; intro _ op f h; cases h

theorem Rebuild.watchRaise : ∀ core, Rebuild.Statement (.watchRaise core) := by
  intros; intro _ op f h; cases h

theorem Rebuild.deadlockDetectorExpiry : ∀ region, Rebuild.Statement (.deadlockDetectorExpiry region) := by
  intros; intro _ op f h; cases h

theorem Rebuild.stallWalkDone : ∀ region, Rebuild.Statement (.stallWalkDone region) := by
  intros; intro _ op f h; cases h

theorem Rebuild.steerStep : ∀ core op, Rebuild.Statement (.steerStep core op) := by
  intros; intro _ op f h; cases h

theorem Rebuild.mergeStep : ∀ core op, Rebuild.Statement (.mergeStep core op) := by
  intros; intro _ op f h; cases h

theorem Rebuild.carryStep : ∀ core op, Rebuild.Statement (.carryStep core op) := by
  intros; intro _ op f h; cases h

theorem Rebuild.invariantStep : ∀ core op, Rebuild.Statement (.invariantStep core op) := by
  intros; intro _ op f h; cases h

theorem Rebuild.chainIndexEmit : ∀ core op, Rebuild.Statement (.chainIndexEmit core op) := by
  intros; intro _ op f h; cases h

theorem Rebuild.loopIndexEmit : ∀ core op, Rebuild.Statement (.loopIndexEmit core op) := by
  intros; intro _ op f h; cases h

theorem Rebuild.cornerTurnStep : ∀ core op, Rebuild.Statement (.cornerTurnStep core op) := by
  intros; intro _ op f h; cases h

theorem Rebuild.controlTokenPass : ∀ core op, Rebuild.Statement (.controlTokenPass core op) := by
  intros; intro _ op f h; cases h

theorem Rebuild.circuitBeatSend : ∀ core route, Rebuild.Statement (.circuitBeatSend core route) := by
  intros; intro _ op f h; cases h

theorem Rebuild.circuitBeatReceive : ∀ core route, Rebuild.Statement (.circuitBeatReceive core route) := by
  intros; intro _ op f h; cases h

theorem Rebuild.linkUnitReceive : ∀ link what good, Rebuild.Statement (.linkUnitReceive link what good) := by
  intros; intro _ op f h; cases h

theorem Rebuild.linkAckReceive : ∀ link, Rebuild.Statement (.linkAckReceive link) := by
  intros; intro _ op f h; cases h

theorem Rebuild.linkNakReceive : ∀ link, Rebuild.Statement (.linkNakReceive link) := by
  intros; intro _ op f h; cases h

theorem Rebuild.linkRetryTimeout : ∀ link, Rebuild.Statement (.linkRetryTimeout link) := by
  intros; intro _ op f h; cases h

theorem Rebuild.linkDead : ∀ link, Rebuild.Statement (.linkDead link) := by
  intros; intro _ op f h; cases h

theorem Rebuild.phyTrainingLoss : ∀ link, Rebuild.Statement (.phyTrainingLoss link) := by
  intros; intro _ op f h; cases h

theorem Rebuild.rerouteComplete : Rebuild.Statement .rerouteComplete := by
  intro _ op f h; cases h

theorem Rebuild.networkWriteArrival : ∀ ctx conn va bytes, Rebuild.Statement (.networkWriteArrival ctx conn va bytes) := by
  intros; intro _ op f h; cases h

theorem Rebuild.networkReadArrival : ∀ ctx conn va n, Rebuild.Statement (.networkReadArrival ctx conn va n) := by
  intros; intro _ op f h; cases h

theorem Rebuild.networkAtomicArrival : ∀ ctx conn va op ty b c, Rebuild.Statement (.networkAtomicArrival ctx conn va op ty b c) := by
  intros; intro _ op f h; cases h

theorem Rebuild.nredRowArrival : ∀ ctx conn va op ty n row, Rebuild.Statement (.nredRowArrival ctx conn va op ty n row) := by
  intros; intro _ op f h; cases h

theorem Rebuild.ngetRowArrival : ∀ core row, Rebuild.Statement (.ngetRowArrival core row) := by
  intros; intro _ op f h; cases h

theorem Rebuild.cpyrRowArrival : ∀ core gen, Rebuild.Statement (.cpyrRowArrival core gen) := by
  intros; intro _ op f h; cases h

theorem Rebuild.networkAckReceive : ∀ core, Rebuild.Statement (.networkAckReceive core) := by
  intros; intro _ op f h; cases h

theorem Rebuild.remoteRefusalReceive : ∀ core scope, Rebuild.Statement (.remoteRefusalReceive core scope) := by
  intros; intro _ op f h; cases h

theorem Rebuild.adminConnectionSetup : ∀ key nonce proof_, Rebuild.Statement (.adminConnectionSetup key nonce proof_) := by
  intros; intro _ op f h; cases h

theorem Rebuild.attestationRead : ∀ ctx nonce, Rebuild.Statement (.attestationRead ctx nonce) := by
  intros; intro _ op f h; cases h

theorem Rebuild.enrol : Rebuild.Statement (.enrol) := by
  intro _ op f h; cases h

theorem Rebuild.openCtx : ∀ place, Rebuild.Statement (.openCtx place) := by
  intros; intro _ op f h; cases h

theorem Rebuild.sealCtx : Rebuild.Statement (.sealCtx) := by
  intro _ op f h; cases h

theorem Rebuild.ckey : ∀ auth, Rebuild.Statement (.ckey auth) := by
  intros; intro _ op f h; cases h

theorem Rebuild.mapPage : ∀ frame, Rebuild.Statement (.mapPage frame) := by
  intros; intro _ op f h; cases h

theorem Rebuild.unmap : Rebuild.Statement (.unmap) := by
  intro _ op f h; cases h

theorem Rebuild.connect : Rebuild.Statement (.connect) := by
  intro _ op f h; cases h

theorem Rebuild.gangEntry : Rebuild.Statement (.gangEntry) := by
  intro _ op f h; cases h

theorem Rebuild.freezeRegion : Rebuild.Statement (.freezeRegion) := by
  intro _ op f h; cases h

theorem Rebuild.resumeRegion : Rebuild.Statement (.resumeRegion) := by
  intro _ op f h; cases h

theorem Rebuild.rollbackRegion : Rebuild.Statement (.rollbackRegion) := by
  intro _ op f h; cases h

theorem Rebuild.endRegion : Rebuild.Statement (.endRegion) := by
  intro _ op f h; cases h

theorem Rebuild.closeCtx : Rebuild.Statement (.closeCtx) := by
  intro _ op f h; cases h

theorem Rebuild.powerOnBoot : ∀ firmware signature, Rebuild.Statement (.powerOnBoot firmware signature) := by
  intros; intro _ op f h; cases h

theorem Rebuild.fullServiceStart : ∀ enabled expanders, Rebuild.Statement (.fullServiceStart enabled expanders) := by
  intros; intro _ op f h; cases h

theorem Rebuild.expanderFailure : ∀ port, Rebuild.Statement (.expanderFailure port) := by
  intros; intro _ op f h; cases h

theorem Rebuild.throttleStep : ∀ step, Rebuild.Statement (.throttleStep step) := by
  intros; intro _ op f h; cases h

theorem Rebuild.thermalStop : Rebuild.Statement (.thermalStop) := by
  intro _ op f h; cases h

theorem Rebuild.storeAcknowledgement : ∀ core unit, Rebuild.Statement (.storeAcknowledgement core unit) := by
  intros; intro _ op f h; cases h

theorem Rebuild.ptpClockDiscipline : ∀ time, Rebuild.Statement (.ptpClockDiscipline time) := by
  intros; intro _ op f h; cases h

end Sys2Proof.Laws
end

