-- ==== Sys2Proof/Laws/Steps.lean ====
section
/-!
SUPPORT. The shared steps, each said once: what the step of an instruction in a slot, of an event of the fabric, of one that changes
memory too, of a dataflow operator and of a management request answers. Proofs about an instruction or event cite these and never
unfold the step.
-/

namespace Sys2Proof.Machine

/-- A step of an instruction whose slot may issue runs the instruction's own change with the operands gathered. -/
theorem issueStep_offered {i : Instr} {go : Issue → Fabric → Fabric} {s : State} {who : Agent} {slot : Nat} {e : Exec} {b : Block}
    (ha : s.run.acting = some (who, slot)) (hr : (s.fab.core who.core).exec who = some e)
    (hc : (s.fab.core who.core).committing who = false) (ho : offered (s.fab.core who.core) e slot i = true)
    (hs : squashes e slot i = false) (hb : (s.fab.core who.core).blockOf who e = some b) (hh : heldBack who e i = false)
    (hl : orderedOk b e slot i = true) :
    issueStep i go s = .next { s with fab := go (gather who slot i e) s.fab } := by
  simp [issueStep, State.onFabric, Fabric.issue, ha, hr, hc, ho, hs, hb, hh, hl]

/-- Everything that a step of an instruction in a slot can do: nothing; squash the slot; or run the instruction's own change with the
operands that the slot has gathered. Memory and the model's own fields stay. -/
theorem issueStep_cases {i : Instr} {go : Issue → Fabric → Fabric} {s t : State} (h : issueStep i go s = .next t) :
    t.mem = s.mem ∧ t.run = s.run ∧
      (t.fab = s.fab ∨
        ∃ who slot e, s.run.acting = some (who, slot) ∧ (s.fab.core who.core).exec who = some e ∧
          (s.fab.core who.core).committing who = false ∧ offered (s.fab.core who.core) e slot i = true ∧
          ((squashes e slot i = true ∧ t.fab = s.fab.modCore who.core fun k => k.squash who slot i) ∨
            ∃ b, squashes e slot i = false ∧ (s.fab.core who.core).blockOf who e = some b ∧ heldBack who e i = false ∧
              orderedOk b e slot i = true ∧ t.fab = go (gather who slot i e) s.fab)) := by
  unfold issueStep at h
  cases h
  refine ⟨rfl, rfl, ?_⟩
  show s.fab.issue s.run.acting i go = s.fab ∨ _
  rcases ha : s.run.acting with _ | ⟨who, slot⟩
  · exact .inl rfl
  · rcases he : (s.fab.core who.core).exec who with _ | e
    · left; simp [Fabric.issue, he]
    · by_cases hc : ((s.fab.core who.core).committing who || !offered (s.fab.core who.core) e slot i) = true
      · left; simp only [Fabric.issue, he, hc, if_true]
      · have hc' := hc
        rw [Bool.or_eq_true, not_or, Bool.not_eq_true, Bool.not_eq_true, Bool.not_eq_false'] at hc'
        by_cases hs : squashes e slot i = true
        · right
          refine ⟨who, slot, e, rfl, he, hc'.1, hc'.2, .inl ⟨hs, ?_⟩⟩
          show s.fab.issue (some (who, slot)) i go = _
          simp only [Fabric.issue, he, hc, hs, if_true]; rfl
        · rcases hb : (s.fab.core who.core).blockOf who e with _ | b
          · left; simp only [Fabric.issue, he, hc, hs, hb]; rfl
          · by_cases hh : (heldBack who e i || !orderedOk b e slot i) = true
            · left; simp only [Fabric.issue, he, hc, hs, hb, hh, if_true]; rfl
            · have hh' := hh
              rw [Bool.or_eq_true, not_or, Bool.not_eq_true, Bool.not_eq_true, Bool.not_eq_false'] at hh'
              right
              refine ⟨who, slot, e, rfl, he, hc'.1, hc'.2, .inr ⟨b, Bool.not_eq_true _ ▸ hs, hb, hh'.1, hh'.2, ?_⟩⟩
              show s.fab.issue (some (who, slot)) i go = _
              simp only [Fabric.issue, he, hc, hs, hb, hh]; rfl

/-- An event of the fabric answers the fabric it makes; the rest of the state stays. -/
theorem fabricStep_next (g : Fabric → Fabric) (s : State) : fabricStep g s = .next { s with fab := g s.fab } := rfl

/-- An event that changes memory and the fabric answers both; the model's own fields stay. -/
theorem memStep_next (g : Memory → Fabric → Memory × Fabric) (s : State) :
    memStep g s = .next { s with mem := (g s.mem s.fab).1, fab := (g s.mem s.fab).2 } := rfl

/-- A dataflow operator that can step changes its core, moves its region and draws two free values. -/
theorem operEvent_next {c : Nat} {g : Core → Row → Row → Option Core} {s : State} {k : Core}
    (h : g (s.fab.core c) (Config.freeValue s.run.free) (Config.freeValue (s.run.free + 1)) = some k) :
    operEvent c g s = .next { s with
      fab := (s.fab.modCore c fun _ => k).modRegion (s.fab.core c).regionId fun r => { r with idle := 0 }
      run := { s.run with free := s.run.free + 2 } } := by
  unfold operEvent; dsimp only; rw [h]; rfl

/-- A dataflow operator that cannot step changes nothing but the count of free values. -/
theorem operEvent_none {c : Nat} {g : Core → Row → Row → Option Core} {s : State}
    (h : g (s.fab.core c) (Config.freeValue s.run.free) (Config.freeValue (s.run.free + 1)) = none) :
    operEvent c g s = .next { s with run := { s.run with free := s.run.free + 2 } } := by
  unfold operEvent; dsimp only; rw [h]; rfl

/-- A management request that is taken up is shrunk from context 0's command window and answered with what its operation replies. -/
theorem Fabric.manage_answers {f : Fabric} {mem : Memory} {op : Nat} {act : Nat → Memory → Fabric → Option Reply} {row : Row}
    {rest : List Row} {r : Reply} (hw : (f.context 0).cmd = row :: rest) (hs : f.units.serves = true) (ho : f.isOpen 0 = true)
    (hc : (f.context 0).cplHeld = []) (hm : requestOk row.toNat = true) (hn : reqOp row.toNat = op)
    (he : f.units.admin = none → op = 1) (ha : act row.toNat mem f = some r) :
    f.manage mem op act =
      (r.mem, (r.fab.modContext 0 fun x => { x with cmd := x.cmd.drop 1 }).complete 0
        (responseRow row.toNat r.status r.value r.addrs)) := by
  have hq : (f.units.admin.isNone && decide (op ≠ 1)) = false := by
    cases h : f.units.admin with
    | none => simp [he h]
    | some d => rfl
  unfold Fabric.manage
  simp only [hw, hs, ho, hc, hm, ha, hq]
  rw [if_neg (by decide), if_neg (by decide), if_neg (by simp [hn]), if_neg (by decide)]

/-- A request on an open tenant context goes on with it. -/
theorem onContext_open {m : Nat} {mem : Memory} {f : Fabric} {go : Nat → Option Reply} (h0 : reqCtx m ≠ 0)
    (ho : f.isOpen (reqCtx m) = true) : onContext m mem f go = go (reqCtx m) := by
  unfold onContext; simp [h0, ho]

/-- A request whose TAG names a live region of its open tenant context goes on with that region. -/
theorem onRegion_tagged {m r : Nat} {mem : Memory} {f : Fabric} {go : Nat → Option Reply} (h0 : reqCtx m ≠ 0)
    (ho : f.isOpen (reqCtx m) = true) (ht : f.tagged (reqCtx m) (reqArg0 m) = some r) : onRegion m mem f go = go r := by
  unfold onRegion; rw [onContext_open h0 ho, ht]

/-- An error record on its way changes the banks of the units alone. -/
theorem Fabric.record_banks (f : Fabric) (d : Nat) (x : Finding) :
    ∃ h : Units → Units, f.record d x = f.modUnits h ∧ ∀ u, ∃ b, h u = { u with banks := b } :=
  ⟨_, rfl, fun _ => ⟨_, rfl⟩⟩

end Sys2Proof.Machine
end

