-- ==== Sys2Proof/Tests/Slice0.lean ====
section
/-!
SUPPORT. Tests: the words of Table 4-10 written out from the layouts of Tables 4-4 to 4-9; an ill-formed term for each check of Table
4-11 that reads the word alone; blocks and results that the manual works out; and for each statement of the certificate with hypotheses a
concrete state and operands that meet its hypotheses, clause by clause.
-/

namespace Sys2Proof.Tests

set_option Elab.async false

open Sys2Proof.Machine Sys2Proof.Claims

/-! ### Small states -/

/-- Actor 0 of PE 0 of core 0. -/
abbrev A : Agent := .actor 0 0

/-- The sequencer of core 0. -/
abbrev S : Agent := .seq 0

/-- A block in progress in which the operands of slot 0 have arrived. -/
def ran (a b c : Row) : Exec := { bufs := [(0, .tok ⟨a, false⟩), (1, .tok ⟨b, false⟩), (2, .tok ⟨c, false⟩), (3, .tok ⟨1, false⟩)] }

/-- A group with the blocks given. -/
def groupWith (bs : List Block) : Group :=
  { record := 0, context := 1, region := 1, group := 0, stage := 0, gang := 0, slice := 0, decl := false, stack := 0, blocks := bs,
    rows := [] }

/-- A core that runs an instruction in slot 0 of block 0 (its own group's blocks following), as its sequencer's block and as a firing of actor 0. -/
def coreWith (k : Core) (i : Instr) (e : Exec) : Core :=
  { k with
    group := some (groupWith (⟨0, encode i⟩ :: (k.group.map (·.blocks)).getD []))
    seq := { k.seq with phase := .run, exec := some e }
    actors := smod {} k.actors 0 fun x => { x with firing := some { exec := e } } }

/-- A state in which slot 0 of an agent is offered. -/
def stateWith (m : Memory) (k : Core) (u : Units) (who : Agent) (i : Instr) (e : Exec) : State :=
  { mem := m, fab := { cores := [(0, coreWith k i e)], units := u }, run := { acting := some (who, 0) } }

/-- Whether slot 0 of an agent may issue in the state of `stateWith`. -/
def may (m : Memory) (k : Core) (u : Units) (who : Agent) (i : Instr) (e : Exec) : Bool :=
  let s := stateWith m k u who i e
  let c := s.fab.core who.core
  (c.exec who == some e) && !c.committing who && offered c e 0 i && !squashes e 0 i && (c.blockOf who e == some ⟨0, encode i⟩) &&
    !heldBack who e i && orderedOk ⟨0, encode i⟩ e 0 i

/-- Whether a slot of an agent may issue in a state. -/
def mayAt (s : State) (who : Agent) (i : Instr) (e : Exec) (b : Block) (slot : Nat := 0) : Bool :=
  let c := s.fab.core who.core
  (c.exec who == some e) && !c.committing who && offered c e slot i && !squashes e slot i && (c.blockOf who e == some b) &&
    !heldBack who e i && orderedOk b e slot i

theorem issuesAt {s : State} {who : Agent} {i : Instr} {e : Exec} {b : Block} {slot : Nat} (ha : s.run.acting = some (who, slot))
    (h : mayAt s who i e b slot = true) : Issues s who slot i e b := by
  simp only [mayAt, Bool.and_eq_true, beq_iff_eq, Bool.not_eq_true'] at h
  obtain ⟨⟨⟨⟨⟨⟨h1, h2⟩, h3⟩, h4⟩, h5⟩, h6⟩, h7⟩ := h
  exact ⟨ha, h1, h2, h3, h4, h5, h6, h7⟩

theorem issues {m : Memory} {k : Core} {u : Units} {who : Agent} {i : Instr} {e : Exec} (h : may m k u who i e = true) :
    Issues (stateWith m k u who i e) who 0 i e ⟨0, encode i⟩ := by
  simp only [may, Bool.and_eq_true, beq_iff_eq, Bool.not_eq_true'] at h
  obtain ⟨⟨⟨⟨⟨⟨h1, h2⟩, h3⟩, h4⟩, h5⟩, h6⟩, h7⟩ := h
  exact ⟨rfl, h1, h2, h3, h4, h5, h6, h7⟩

/-- Some state and slot meet the hypotheses of a statement about an instruction that issues. -/
def Met (i : Instr) (pre : Fabric → Issue → Prop) : Prop :=
  ∃ s who slot e b, Issues s who slot i e b ∧ pre s.fab (gather who slot i e)

theorem met (k : Core) (u : Units) (who : Agent) {i : Instr} (e : Exec) {pre : Fabric → Issue → Prop}
    (h : may {} k u who i e = true) (hp : pre (stateWith {} k u who i e).fab (gather who 0 i e)) : Met i pre :=
  ⟨_, who, 0, e, _, issues h, hp⟩

/-- Some fabric meets the hypotheses of a statement about an event. -/
def MetF (pre : Fabric → Prop) : Prop := ∃ f, pre f

/-- Some memory and fabric meet the hypotheses of a statement about an event. -/
def MetM (pre : Memory → Fabric → Prop) : Prop := ∃ m f, pre m f

/-- Some core meets the hypotheses of a statement about an operator, whatever the free values are. -/
def MetS (pre : Core → Row → Row → Prop) : Prop := ∃ k, ∀ a b, pre k a b

/-- Some request, memory and fabric meet the hypotheses of a statement about a management request. -/
def MetR (op : Nat) (pre : Nat → Memory → Fabric → Prop) : Prop := ∃ m mem f, Asked f m op ∧ pre m mem f

/-- A fabric of one core. -/
def fab (k : Core) (u : Units) : Fabric := { cores := [(0, k)], units := u }

/-- A state in which slot 0 of a pinned firing of actor 0 is offered. -/
def pinnedState (i : Instr) : State :=
  let s := stateWith {} {} {} A i (ran 0 0 0)
  { s with fab := s.fab.modCore 0 fun k => k.modActor 0 fun x => { x with firing := some { exec := ran 0 0 0, pinned := true } } }

/-- Context 1's page tables with one 64 KiB page at address 0. -/
def pages (leaf : Nat) : Memory :=
  (((({} : Memory).writeNat 0 8 0x10001).writeNat 0x10000 8 0x20001).writeNat 0x20000 8 0x30001).writeNat 0x30000 8 leaf

/-- The leaf of that page in granule 5 of HBM, and in granule 0 of the peat tier. -/
def inHearth : Nat := 0x50003
def inTier : Nat := 0x8000000000013

theorem witness_WindowOpsComplete :
  (∃ w n, Met (.wrd w) (fun f x => (f.core x.who.core).winOf x.who w.port.toNat = some n ∧ w.dist.toNat < ((f.core x.who.core).winCfg
    n).cap)) ∧
  (∃ w n, Met (.wrdx w) (fun f x => (f.core x.who.core).winOf x.who w.port.toNat = some n ∧ wrdxOffset w x.a < ((f.core
    x.who.core).winCfg n).cap ∧ wrdxOffset w x.a < (f.core x.who.core).readable n)) ∧
  (∃ w n, Met (.wrdx w) (fun f x => (f.core x.who.core).winOf x.who w.port.toNat = some n ∧ wrdxOffset w x.a < ((f.core
    x.who.core).winCfg n).cap ∧ (f.core x.who.core).readable n ≤ wrdxOffset w x.a)) ∧
  (∃ w n, Met (.wupd w) (fun f x => (f.core x.who.core).winOf x.who w.port.toNat = some n ∧ w.dist.toNat < sget 0 x.exec.snap.f0 n)) ∧
  (∃ w, Met (.wfil w) (fun _ _ => True)) ∧
  (∃ w, Met (.wshr w) (fun _ _ => w.dist ≠ 0)) ∧
  (∃ w, Met (.wshr w) (fun _ _ => w.dist = 0)) ∧
  (∃ w n, Met (.wcnt w) (fun f x => (f.core x.who.core).winOf x.who w.port.toNat = some n)) ∧
  (∃ d, Met (.hget d) (fun _ x => IsActor x)) :=
  ⟨⟨⟨0, 14, 0, 0, 0, 0, 0, 0, 0⟩, 3, met
    { plane := { ports := [(0, ⟨3, false, 1⟩)], wins := [(3, ⟨0, 4, 0, 0, none⟩)] }, wins := [(3, { f := 2 })] } {} A (ran 0 0 0) (by
    decide +kernel) (by decide +kernel)⟩,
   ⟨⟨0, 14, 0, 0, 0, 0, 0, 0, 1⟩, 3, met
    { plane := { ports := [(0, ⟨3, false, 1⟩)], wins := [(3, ⟨0, 4, 0, 0, none⟩)] }, wins := [(3, { f := 2 })] } {} A (ran 0 0 0) (by
    decide +kernel) (by decide +kernel)⟩,
   ⟨⟨0, 14, 0, 0, 0, 0, 0, 0, 3⟩, 3, met
    { plane := { ports := [(0, ⟨3, false, 1⟩)], wins := [(3, ⟨0, 4, 0, 0, none⟩)] }, wins := [(3, { f := 2 })] } {} A (ran 0 0 0) (by
    decide +kernel) (by decide +kernel)⟩,
   ⟨⟨0, 14, 0, 0, 0, 0, 0, 0, 1⟩, 3, met
    { plane := { ports := [(0, ⟨3, false, 1⟩)], wins := [(3, ⟨0, 4, 0, 0, none⟩)] }, wins := [(3, { f := 2 })] } {} A
    { ran 0 0 0 with snap := { f0 := [(3, 2)] } } (by decide +kernel) (by decide +kernel)⟩,
   ⟨⟨0, 14, 0, 0, 0, 0, 0, 0, 0⟩, met {} {} A (ran 0 0 0) (by decide +kernel) (trivial)⟩,
   ⟨⟨0, 14, 0, 0, 0, 0, 0, 0, 1⟩, met {} {} A (ran 0 0 0) (by decide +kernel) (by decide +kernel)⟩,
   ⟨⟨0, 14, 0, 0, 0, 0, 0, 0, 0⟩, met {} {} A (ran 0 0 0) (by decide +kernel) (by decide +kernel)⟩,
   ⟨⟨0, 14, 0, 0, 0, 0, 0, 0, 0⟩, 3, met
    { plane := { ports := [(0, ⟨3, false, 1⟩)], wins := [(3, ⟨0, 4, 0, 0, none⟩)] }, wins := [(3, { f := 2 })] } {} A (ran 0 0 0) (by
    decide +kernel) (by decide +kernel)⟩,
   ⟨⟨0, 15, 0, 0, 0, 0, 0, 3⟩, met {} {} A (ran 0 0 0) (by decide +kernel) (⟨0, 0, rfl⟩)⟩⟩

theorem witness_WindowRangeFaults :
  (∃ w n, Met (.wrd w) (fun f x => (f.core x.who.core).winOf x.who w.port.toNat = some n ∧ ((f.core x.who.core).winCfg n).cap ≤
    w.dist.toNat)) ∧
  (∃ w n, Met (.wrdx w) (fun f x => (f.core x.who.core).winOf x.who w.port.toNat = some n ∧ ((f.core x.who.core).winCfg n).cap ≤
    wrdxOffset w x.a)) ∧
  (∃ w n, Met (.wupd w) (fun f x => (f.core x.who.core).winOf x.who w.port.toNat = some n ∧ sget 0 x.exec.snap.f0 n ≤ w.dist.toNat)) :=
  ⟨⟨⟨0, 14, 0, 0, 0, 0, 0, 0, 4⟩, 3, met
    { plane := { ports := [(0, ⟨3, false, 1⟩)], wins := [(3, ⟨0, 4, 0, 0, none⟩)] }, wins := [(3, { f := 2 })] } {} A (ran 0 0 0) (by
    decide +kernel) (by decide +kernel)⟩,
   ⟨⟨0, 14, 0, 0, 0, 0, 0, 0, 4⟩, 3, met
    { plane := { ports := [(0, ⟨3, false, 1⟩)], wins := [(3, ⟨0, 4, 0, 0, none⟩)] }, wins := [(3, { f := 2 })] } {} A (ran 0 0 0) (by
    decide +kernel) (by decide +kernel)⟩,
   ⟨⟨0, 14, 0, 0, 0, 0, 0, 0, 2⟩, 3, met
    { plane := { ports := [(0, ⟨3, false, 1⟩)], wins := [(3, ⟨0, 4, 0, 0, none⟩)] }, wins := [(3, { f := 2 })] } {} A
    { ran 0 0 0 with snap := { f0 := [(3, 2)] } } (by decide +kernel) (by decide +kernel)⟩⟩

theorem witness_ArdReadsRow :
  (∃ d, Met (.ard d) (fun f x => IsActor x ∧ elem 32 x.a 0 + d.imm.toNat % 1024 < 1024 ∧ (f.core x.who.core).accHeld (elem 32 x.a 0 +
    d.imm.toNat % 1024) = false)) ∧
  (∃ d, Met (.ard d) (fun f x => IsSeq x ∧ elem 32 x.a 0 + d.imm.toNat % 1024 < 1024 ∧ (f.core x.who.core).accHeld (elem 32 x.a 0 +
    d.imm.toNat % 1024) = false)) :=
  ⟨⟨⟨0, 15, 0, 0, 0, 0, 0, 1023⟩, met {} {} A (ran 0 0 0) (by decide +kernel) (⟨⟨0, 0, rfl⟩, by decide +kernel⟩)⟩,
   ⟨⟨0, 15, 0, 0, 0, 0, 0, 1023⟩, met {} {} S (ran 0 0 0) (by decide +kernel) (⟨⟨0, rfl⟩, by decide +kernel⟩)⟩⟩

theorem witness_PrefCompletes :
  (∃ m, Met (.pref m) (fun _ x => scalarVa x.a m.low % 64 = 0)) ∧
  (∃ m, Met (.pref m) (fun _ x => scalarVa x.a m.low % 64 ≠ 0)) :=
  ⟨⟨⟨0, 15, 0, 0, 8, 0, 0, 0, 0⟩, met {} {} A (ran 0 0 0) (by decide +kernel) (by decide +kernel)⟩,
   ⟨⟨0, 15, 0, 0, 8, 0, 0, 0, 1⟩, met {} {} A (ran 0 0 0) (by decide +kernel) (by decide +kernel)⟩⟩

theorem witness_TimestampsComplete :
  (∃ d, Met (.tset d) (fun f x => x.exec.tstamp = none ∧ (f.region (f.core x.who.core).regionId).horizon ≤ BitVec.ofNat 64 (elem 64
    x.a 0))) ∧
  (∃ d, Met (.tset d) (fun _ x => x.exec.tstamp ≠ none)) ∧
  (∃ d, Met (.tset d) (fun f x => x.exec.tstamp = none ∧ BitVec.ofNat 64 (elem 64 x.a 0) < (f.region (f.core
    x.who.core).regionId).horizon)) ∧
  (∃ d, Met (.tget d) (fun _ _ => True)) :=
  ⟨⟨⟨0, 15, 0, 0, 0, 0, 0, 0⟩, met {} {} A (ran 0 0 0) (by decide +kernel) (by decide +kernel)⟩,
   ⟨⟨0, 15, 0, 0, 0, 0, 0, 0⟩, met {} {} A { ran 0 0 0 with tstamp := some 7 } (by decide +kernel) (by decide +kernel)⟩,
   ⟨⟨0, 15, 0, 0, 0, 0, 0, 0⟩, met {} { regions := [(1, { horizon := 1 })] } A (ran 0 0 0) (by decide +kernel) (by decide +kernel)⟩,
   ⟨⟨0, 15, 0, 0, 0, 0, 0, 0⟩, met {} {} A (ran 0 0 0) (by decide +kernel) (trivial)⟩⟩

theorem witness_BarriersComplete :
  (∃ d, Met (.bara d) (fun _ x => IsActor x)) ∧
  (∃ d, Met (.bara d) (fun f x => IsSeq x ∧ f.unitsDone x.who 0 = true)) ∧
  (∃ d, Met (.barw d) (fun f x => ((f.core x.who.core).bar (d.imm.toNat % 32)).phase ≠ (f.core x.who.core).recorded (d.imm.toNat %
    32))) ∧
  (∃ d, Met (.barw d) (fun f x => ((f.core x.who.core).bar (d.imm.toNat % 32)).phase = (f.core x.who.core).recorded (d.imm.toNat %
    32))) ∧
  (∃ d, Met (.baraw d) (fun f x => f.unitsDone x.who 0 = true)) ∧
  (∃ d, Met (.waitc d) (fun f x => (f.core x.who.core).counts.within d.imm.toNat = true)) ∧
  (∃ d, Met (.waitc d) (fun f x => (f.core x.who.core).counts.within d.imm.toNat = false)) :=
  ⟨⟨⟨0, 15, 0, 0, 0, 0, 0, 31⟩, met {} {} A (ran 0 0 0) (by decide +kernel) (⟨0, 0, rfl⟩)⟩,
   ⟨⟨0, 15, 0, 0, 0, 0, 0, 31⟩, met {} {} S (ran 0 0 0) (by decide +kernel) (⟨⟨0, rfl⟩, by decide +kernel⟩)⟩,
   ⟨⟨0, 15, 0, 0, 0, 0, 0, 1⟩, met { bars := [(1, { phase := true })] } {} S (ran 0 0 0) (by decide +kernel) (by decide +kernel)⟩,
   ⟨⟨0, 15, 0, 0, 0, 0, 0, 1⟩, met {} {} S (ran 0 0 0) (by decide +kernel) (by decide +kernel)⟩,
   ⟨⟨0, 15, 0, 0, 0, 0, 0, 1⟩, met {} {} S (ran 0 0 0) (by decide +kernel) (by decide +kernel)⟩,
   ⟨⟨0, 15, 0, 0, 0, 0, 0, 0⟩, met {} {} S (ran 0 0 0) (by decide +kernel) (by decide +kernel)⟩,
   ⟨⟨0, 15, 0, 0, 0, 0, 0, 0⟩, met { counts := { ld := 1 } } {} S (ran 0 0 0) (by decide +kernel) (by decide +kernel)⟩⟩

theorem witness_RegisterMovesCompletePart :
  (∃ d, Met (.grd d) (fun _ _ => d.imm.toNat % 64 = 0)) ∧
  (∃ d, Met (.grd d) (fun _ x => IsActor x ∧ d.imm.toNat % 64 ≠ 0)) ∧
  (∃ d, Met (.grd d) (fun _ x => IsSeq x ∧ d.imm.toNat % 64 ≠ 0)) ∧
  (∃ d, Met (.mfk d) (fun _ x => IsActor x ∧ d.imm.toNat % 4096 ≠ 0x012)) ∧
  (∃ d, Met (.mfk d) (fun _ x => IsActor x ∧ d.imm.toNat % 4096 = 0x012)) ∧
  (∃ d, Met (.mfk d) (fun _ x => IsSeq x)) ∧
  (∃ d i, (i = .mtk d ∨ i = .fpxClear d ∨ i = .wpHitClear d) ∧ Met i (fun _ _ => True)) :=
  ⟨⟨⟨0, 15, 0, 0, 0, 0, 0, 0⟩, met {} {} A (ran 0 0 0) (by decide +kernel) (by decide +kernel)⟩,
   ⟨⟨0, 15, 0, 0, 0, 0, 0, 63⟩, met {} {} A (ran 0 0 0) (by decide +kernel) (⟨⟨0, 0, rfl⟩, by decide +kernel⟩)⟩,
   ⟨⟨0, 15, 0, 0, 0, 0, 0, 63⟩, met {} {} S (ran 0 0 0) (by decide +kernel) (⟨⟨0, rfl⟩, by decide +kernel⟩)⟩,
   ⟨⟨0, 15, 0, 0, 0, 0, 0, 16⟩, met {} {} A (ran 0 0 0) (by decide +kernel) (⟨⟨0, 0, rfl⟩, by decide +kernel⟩)⟩,
   ⟨⟨0, 15, 0, 0, 0, 0, 0, 18⟩, met {} {} A (ran 0 0 0) (by decide +kernel) (⟨⟨0, 0, rfl⟩, by decide +kernel⟩)⟩,
   ⟨⟨0, 15, 0, 0, 0, 0, 0, 32⟩, met {} {} S (ran 0 0 0) (by decide +kernel) (⟨0, rfl⟩)⟩,
   ⟨⟨0, 15, 0, 0, 0, 0, 0, 48⟩, _, .inr (.inl rfl), met {} {} S (ran 0 0 0) (by decide +kernel) (trivial)⟩⟩

theorem witness_TrapAndEvwaitComplete :
  (∃ d, Met (.trap d) (fun _ x => IsSeq x)) ∧
  (∃ d, Met (.trap d) (fun f x => IsActor x ∧ (f.core x.who.core).isPinned (Agent.place x.who) = false)) ∧
  (∃ d, Met (.trap d) (fun f x => IsActor x ∧ (f.core x.who.core).isPinned (Agent.place x.who) = true ∧ f.canFault x.who x.slot =
    true)) ∧
  (∃ d, Met (.evwait d) (fun f x => f.events x.who.core (d.imm.toNat % 16) (elem 64 x.a 0) ≠ 0)) ∧
  (∃ d, Met (.evwait d) (fun f x => f.events x.who.core (d.imm.toNat % 16) (elem 64 x.a 0) = 0)) :=
  ⟨⟨⟨0, 15, 0, 0, 0, 0, 0, 1⟩, met {} {} S (ran 0 0 0) (by decide +kernel) (⟨0, rfl⟩)⟩,
   ⟨⟨0, 15, 0, 0, 0, 0, 0, 1⟩, met {} {} A (ran 0 0 0) (by decide +kernel) (⟨⟨0, 0, rfl⟩, by decide +kernel⟩)⟩,
   ⟨⟨0, 15, 0, 0, 0, 0, 0, 1⟩, pinnedState (.trap ⟨0, 15, 0, 0, 0, 0, 0, 1⟩), A, 0, _, _, issuesAt rfl (by decide +kernel : mayAt _ A _
    (ran 0 0 0) ⟨0, encode (.trap ⟨0, 15, 0, 0, 0, 0, 0, 1⟩)⟩ = true), ⟨0, 0, rfl⟩, by decide +kernel, by decide +kernel⟩,
   ⟨⟨0, 15, 0, 0, 0, 0, 0, 1⟩, met { eng := { tierEv := true, strm := 1 }, misses := [⟨0, true, []⟩] } {} S (ran 1 0 0) (by
    decide +kernel) (by decide +kernel)⟩,
   ⟨⟨0, 15, 0, 0, 0, 0, 0, 0⟩, met {} {} S (ran 0 0 0) (by decide +kernel) (by decide +kernel)⟩⟩

theorem witness_SwapAndQuiescenceComplete :
  (∃ m, Met (.cswap m) (fun f x => m.obj = 0 ∧ field m.arg.toNat 7 1 = 0 ∧ (f.core x.who.core).kindling = .empty)) ∧
  (∃ m, Met (.cswap m) (fun f x => m.obj = 0 ∧ field m.arg.toNat 7 1 = 0 ∧ (f.core x.who.core).kindling = .program ∧ f.swapFails
    x.who.core (f.core x.who.core).kplane (f.core x.who.core).group = [])) ∧
  (∃ m code, Met (.cswap m) (fun f x => m.obj = 0 ∧ field m.arg.toNat 7 1 = 0 ∧ (f.core x.who.core).kindling = .program ∧ leastOf
    (f.swapFails x.who.core (f.core x.who.core).kplane (f.core x.who.core).group) = some code)) ∧
  (∃ m, Met (.cswapDiscard m) (fun f x => m.obj = 0 ∧ field m.arg.toNat 7 1 = 0 ∧ (f.core x.who.core).kindling ≠ .bind)) ∧
  (∃ m i, (i = .cswap m ∨ i = .cswapDiscard m) ∧ Met i (fun f x => m.obj = 0 ∧ field m.arg.toNat 7 1 = 0 ∧ (f.core
    x.who.core).kindling = .bind)) ∧
  (∃ m, Met (.cqui m) (fun _ _ => m.obj = 0 ∧ m.arg = 0)) :=
  ⟨⟨⟨0, 15, 0, 0, 0, 0, 0, 0, 0⟩, met {} {} S (ran 0 0 0) (by decide +kernel) (by decide +kernel)⟩,
   ⟨⟨0, 15, 0, 0, 0, 0, 0, 0, 0⟩, met { kindling := .program } {} S (ran 0 0 0) (by decide +kernel) (by decide +kernel)⟩,
   ⟨⟨0, 15, 0, 0, 0, 0, 0, 0, 0⟩, 0x2E, met { kindling := .program, kplane := { opers := [(0, ⟨0x2C6, 0, ofVals 32 [0, 5], 0⟩)] } } {}
    S (ran 0 0 0) (by decide +kernel) (by decide +kernel)⟩,
   ⟨⟨0, 15, 0, 0, 0, 0, 0, 0, 1⟩, met {} {} S (ran 0 0 0) (by decide +kernel) (by decide +kernel)⟩,
   ⟨⟨0, 15, 0, 0, 0, 0, 0, 0, 0⟩, _, .inl rfl, met { kindling := .bind } {} S (ran 0 0 0) (by decide +kernel) (by decide +kernel)⟩,
   ⟨⟨0, 15, 0, 0, 0, 0, 0, 0, 0⟩, met {} {} S (ran 0 0 0) (by decide +kernel) (by decide +kernel)⟩⟩

theorem witness_MatrixQuestionsEnter :
  (∃ m, Met (.mxstat m) (fun f x => (f.core x.who.core).mxRoom = true)) ∧
  (∃ m, Met (.mxpeek m) (fun f x => (f.core x.who.core).mxRoom = true ∧ elem 32 x.a 0 + recWords (m.flags.toNat % 4) ≤ 65536)) ∧
  (∃ m, Met (.mxstat m) (fun f x => (f.core x.who.core).mxRoom = false)) ∧
  (∃ m, Met (.mxpeek m) (fun f x => (f.core x.who.core).mxRoom = false ∧ elem 32 x.a 0 + recWords (m.flags.toNat % 4) ≤ 65536)) ∧
  (∃ m, Met (.mxpeek m) (fun _ x => 65536 < elem 32 x.a 0 + recWords (m.flags.toNat % 4))) :=
  ⟨⟨⟨0, 15, 0, 0, 0, 0, 0, 0, 0, 0⟩, met {} {} S (ran 0 0 0) (by decide +kernel) (by decide +kernel)⟩,
   ⟨⟨0, 15, 0, 0, 0, 0, 0, 0, 0, 0⟩, met {} {} S (ran 0 0 0) (by decide +kernel) (by decide +kernel)⟩,
   ⟨⟨0, 15, 0, 0, 0, 0, 0, 0, 0, 0⟩, met
    { mx := { queue := List.replicate 16 { id := 1, kind := 2, op := 0x308, a := 0, mod := 0, flags := 0, ty := 0, win := 3, desc := ⟨0, 0⟩, set := 0, rect := (0, 0, 1, 1) } } }
    {} S (ran 0 0 0) (by decide +kernel) (by decide +kernel)⟩,
   ⟨⟨0, 15, 0, 0, 0, 0, 0, 0, 0, 0⟩, met
    { mx := { queue := List.replicate 16 { id := 1, kind := 2, op := 0x308, a := 0, mod := 0, flags := 0, ty := 0, win := 3, desc := ⟨0, 0⟩, set := 0, rect := (0, 0, 1, 1) } } }
    {} S (ran 0 0 0) (by decide +kernel) (by decide +kernel)⟩,
   ⟨⟨0, 15, 0, 0, 0, 0, 0, 0, 0, 0⟩, met {} {} S (ran 65536 0 0) (by decide +kernel) (by decide +kernel)⟩⟩

theorem witness_WindowImagesEnter :
  (∃ m, Met (.wsave m) (fun f x => elem 64 x.a 0 % 64 = 0 ∧ (sfind (f.core x.who.core).plane.wins m.win.toNat).isSome = true ∧ (f.core
    x.who.core).counts.cp < 65535 ∧ (f.core x.who.core).counts.mx ≤ 65535)) ∧
  (∃ m, Met (.wrest m) (fun f x => elem 64 x.a 0 % 64 = 0 ∧ (sfind (f.core x.who.core).plane.wins m.win.toNat).isSome = true ∧ (f.core
    x.who.core).counts.cp < 65535 ∧ (f.core x.who.core).counts.mx ≤ 65535)) ∧
  (∃ m i, (i = .wsave m ∨ i = .wrest m) ∧ Met i (fun _ x => elem 64 x.a 0 % 64 ≠ 0)) ∧
  (∃ m i, (i = .wsave m ∨ i = .wrest m) ∧ Met i (fun f x => elem 64 x.a 0 % 64 = 0 ∧ sfind (f.core x.who.core).plane.wins m.win.toNat
    = none)) :=
  ⟨⟨⟨0, 15, 0, 0, 0, 0, 0, 0, 3, 0⟩, met
    { plane := { ports := [(0, ⟨3, false, 1⟩)], wins := [(3, ⟨0, 4, 0, 0, none⟩)] }, wins := [(3, { f := 2 })] } {} S (ran 0 0 0) (by
    decide +kernel) (by decide +kernel)⟩,
   ⟨⟨0, 15, 0, 0, 0, 0, 0, 0, 3, 0⟩, met
    { plane := { ports := [(0, ⟨3, false, 1⟩)], wins := [(3, ⟨0, 4, 0, 0, none⟩)] }, wins := [(3, { f := 2 })] } {} S (ran 0 0 0) (by
    decide +kernel) (by decide +kernel)⟩,
   ⟨⟨0, 15, 0, 0, 0, 0, 0, 0, 0, 0⟩, _, .inl rfl, met {} {} S (ran 32 0 0) (by decide +kernel) (by decide +kernel)⟩,
   ⟨⟨0, 15, 0, 0, 0, 0, 0, 0, 0, 0⟩, _, .inr rfl, met {} {} S (ran 0 0 0) (by decide +kernel) (by decide +kernel)⟩⟩

theorem witness_DiagnosticCommandsComplete :
  (∃ d, Met (.wpclr d) (fun _ _ => True)) ∧
  (∃ d, Met (.mark d) (fun _ _ => True)) ∧
  (∃ d, Met (.rwcArm d) (fun f x => (f.core x.who.core).dbg.retired < BitVec.ofNat 64 (elem 64 x.a 0))) ∧
  (∃ d, Met (.rwcArm d) (fun f x => BitVec.ofNat 64 (elem 64 x.a 0) ≤ (f.core x.who.core).dbg.retired)) ∧
  (∃ d, Met (.rwcCancel d) (fun _ _ => True)) :=
  ⟨⟨⟨0, 15, 0, 0, 0, 0, 0, 0⟩, met {} {} S (ran 0 0 0) (by decide +kernel) (trivial)⟩,
   ⟨⟨0, 15, 0, 0, 0, 0, 0, 0⟩, met {} {} S (ran 0 0 0) (by decide +kernel) (trivial)⟩,
   ⟨⟨0, 15, 0, 0, 0, 0, 0, 1⟩, met {} {} S (ran 5 0 0) (by decide +kernel) (by decide +kernel)⟩,
   ⟨⟨0, 15, 0, 0, 0, 0, 0, 1⟩, met {} {} S (ran 0 0 0) (by decide +kernel) (by decide +kernel)⟩,
   ⟨⟨0, 15, 0, 0, 0, 0, 0, 0⟩, met {} {} S (ran 0 0 0) (by decide +kernel) (trivial)⟩⟩

theorem witness_FaultInjection :
  (∃ d, Met (.finj d) (fun f x => (f.region (f.core x.who.core).regionId).finj = true ∧ (elem 32 x.a 0 ≤ 255 ∨ elem 32 x.a 0 = 0xFFFF)
    ∧ (elem 32 x.a 1 ≤ 3 ∨ elem 32 x.a 1 = 4 ∧ elem 32 x.a 0 ≠ 0xFFFF) ∧ elem 32 x.a 2 ≤ 15 ∧ elem 32 x.a 3 ≤ 31)) ∧
  (∃ d, Met (.finj d) (fun f x => (f.region (f.core x.who.core).regionId).finj = false)) :=
  ⟨⟨⟨0, 15, 0, 0, 0, 0, 0, 0⟩, met {} { regions := [(1, { finj := true })] } S (ran (ofVals 32 [255, 4, 15, 31]) 0 0) (by
    decide +kernel) (by decide +kernel)⟩,
   ⟨⟨0, 15, 0, 0, 0, 0, 0, 0⟩, met {} {} S (ran 0 0 0) (by decide +kernel) (by decide +kernel)⟩⟩

theorem witness_RecordsAndReportsComplete :
  (∃ d, Met (.mcrd d) (fun _ _ => True)) ∧
  (∃ d, Met (.profStart d) (fun _ _ => True)) ∧
  (∃ d, Met (.profStop d) (fun _ _ => True)) ∧
  (∃ d, Met (.profRead d) (fun _ _ => True)) ∧
  (∃ d, Met (.walk d) (fun f x => (sfind (f.core x.who.core).plane.wins (d.imm.toNat % 256)).isSome = true ∧ (f.core
    x.who.core).plane.party (d.imm.toNat % 256) true = 0)) ∧
  (∃ d, Met (.walk d) (fun f x => sfind (f.core x.who.core).plane.wins (d.imm.toNat % 256) = none ∨ (f.core x.who.core).plane.party
    (d.imm.toNat % 256) true ≠ 0)) :=
  ⟨⟨⟨0, 15, 0, 0, 0, 0, 0, 0⟩, met {} {} S (ran 0 0 0) (by decide +kernel) (trivial)⟩,
   ⟨⟨0, 15, 0, 0, 0, 0, 0, 0⟩, met {} {} S (ran 0 0 0) (by decide +kernel) (trivial)⟩,
   ⟨⟨0, 15, 0, 0, 0, 0, 0, 1⟩, met {} {} S (ran 0 0 0) (by decide +kernel) (trivial)⟩,
   ⟨⟨0, 15, 0, 0, 0, 0, 0, 2⟩, met {} {} S (ran 0 0 0) (by decide +kernel) (trivial)⟩,
   ⟨⟨0, 15, 0, 0, 0, 0, 0, 3⟩, met
    { plane := { ports := [(0, ⟨3, false, 1⟩)], wins := [(3, ⟨0, 4, 0, 0, none⟩)] }, wins := [(3, { f := 2 })] } {} S (ran 0 0 0) (by
    decide +kernel) (by decide +kernel)⟩,
   ⟨⟨0, 15, 0, 0, 0, 0, 0, 4⟩, met
    { plane := { ports := [(0, ⟨3, false, 1⟩)], wins := [(3, ⟨0, 4, 0, 0, none⟩)] }, wins := [(3, { f := 2 })] } {} S (ran 0 0 0) (by
    decide +kernel) (by decide +kernel)⟩⟩

theorem witness_FencesComplete :
  (∃ d, Met (.fence d) (fun f x => IsActor x ∧ ActorFenced d f x)) ∧
  (∃ d, Met (.fence d) (fun f x => IsSeq x ∧ SeqFenced d f x)) ∧
  (∃ d, Met (.fence d) (fun f x => IsActor x ∧ ¬ ActorFenced d f x ∨ IsSeq x ∧ ¬ SeqFenced d f x)) ∧
  (∃ d, Met (.xfence d) (fun f x => IsActor x ∧ (d.imm.toNat % 16 = 0 ∨ d.imm.toNat % 16 = 3) ∧ CrossFenced d f x)) ∧
  (∃ d, Met (.xfence d) (fun f x => (IsSeq x ∨ d.imm.toNat % 16 ≠ 0 ∧ d.imm.toNat % 16 ≠ 3) ∧ CrossFenced d f x)) ∧
  (∃ d, Met (.xfence d) (fun f x => ¬ CrossFenced d f x)) :=
  ⟨⟨⟨0, 15, 0, 0, 0, 0, 0, 1⟩, met {} {} A (ran 0 0 0) (by decide +kernel) (⟨⟨0, 0, rfl⟩, by decide +kernel, by decide +kernel⟩)⟩,
   ⟨⟨0, 15, 0, 0, 0, 0, 0, 1⟩, met {} {} S (ran 0 0 0) (by decide +kernel) (⟨⟨0, rfl⟩, by decide +kernel, by decide +kernel, by
    decide +kernel⟩)⟩,
   ⟨⟨0, 15, 0, 0, 0, 0, 0, 1⟩, met {}
    { stores := [{ id := 0, cycle := 0, core := 0, pe := 0, whos := [A], region := 0, lanes := [{ va := 0, pa := 0, n := 8, data := 0 }] }] }
    A (ran 0 0 0) (by decide +kernel) (.inl ⟨⟨0, 0, rfl⟩, fun h => absurd h.1 (by decide +kernel)⟩)⟩,
   ⟨⟨0, 15, 0, 0, 0, 0, 0, 256⟩, met {} {} A (ran 0 0 0) (by decide +kernel) (⟨⟨0, 0, rfl⟩, by decide +kernel, by decide +kernel, by
    decide +kernel⟩)⟩,
   ⟨⟨0, 15, 0, 0, 0, 0, 0, 256⟩, met {} {} S (ran 0 0 0) (by decide +kernel) (⟨.inl ⟨0, rfl⟩, by decide +kernel, by decide +kernel⟩)⟩,
   ⟨⟨0, 15, 0, 0, 0, 0, 0, 256⟩, met {}
    { stores := [{ id := 0, cycle := 0, core := 0, pe := 0, whos := [A], region := 0, lanes := [{ va := 0, pa := 0, n := 8, data := 0 }] }] }
    S (ran 0 0 0) (by decide +kernel) (fun h => absurd h.1 (by decide +kernel))⟩⟩


/-! ### Families of instructions: every constructor issues somewhere -/

/-- An actor's issue of an instruction in slot 0. -/
abbrev inA (i : Instr) : Issue := gather A 0 i (ran 0 0 0)

/-- The seventy-three compute instructions. -/
def computeOps : List Instr :=
  [.add ⟨0, 15, 0, 0, 0, 0, 0, 0⟩, .sub ⟨0, 15, 0, 0, 0, 0, 0, 0⟩, .mul ⟨0, 15, 0, 0, 0, 0, 0, 0⟩, .mulh ⟨0, 15, 0, 0, 0, 0, 0, 0⟩,
    .mad ⟨0, 15, 0, 0, 0, 0, 0, 0⟩, .quo ⟨0, 15, 0, 0, 0, 0, 0, 0⟩, .rem ⟨0, 15, 0, 0, 0, 0, 0, 0⟩, .neg ⟨0, 15, 0, 0, 0, 0, 0, 0⟩, .abs
    ⟨0, 15, 0, 0, 0, 0, 0, 0⟩, .min ⟨0, 15, 0, 0, 0, 0, 0, 0⟩, .max ⟨0, 15, 0, 0, 0, 0, 0, 0⟩, .clamp ⟨0, 15, 0, 0, 0, 0, 0, 0⟩, .adds
    ⟨0, 15, 0, 0, 0, 0, 0, 0⟩, .subs ⟨0, 15, 0, 0, 0, 0, 0, 0⟩, .dot4 ⟨0, 15, 0, 0, 0, 0, 0, 0⟩, .and ⟨0, 15, 0, 0, 0, 0, 0, 0⟩, .or ⟨0,
    15, 0, 0, 0, 0, 0, 0⟩, .xor ⟨0, 15, 0, 0, 0, 0, 0, 0⟩, .andn ⟨0, 15, 0, 0, 0, 0, 0, 0⟩, .not ⟨0, 15, 0, 0, 0, 0, 0, 0⟩, .shl ⟨0, 15,
    0, 0, 0, 0, 0, 0⟩, .shr ⟨0, 15, 0, 0, 0, 0, 0, 0⟩, .sra ⟨0, 15, 0, 0, 0, 0, 0, 0⟩, .rotl ⟨0, 15, 0, 0, 0, 0, 0, 0⟩, .clz ⟨0, 15, 0,
    0, 0, 0, 0, 0⟩, .popc ⟨0, 15, 0, 0, 0, 0, 0, 0⟩, .bfx ⟨0, 15, 0, 0, 0, 0, 0, 0⟩, .bfi ⟨0, 15, 0, 0, 0, 0, 0, 0⟩, .cmpeq ⟨0, 15, 0,
    0, 0, 0, 0, 0⟩, .cmpne ⟨0, 15, 0, 0, 0, 0, 0, 0⟩, .cmplt ⟨0, 15, 0, 0, 0, 0, 0, 0⟩, .cmple ⟨0, 15, 0, 0, 0, 0, 0, 0⟩, .sel ⟨0, 15,
    0, 0, 0, 0, 0, 0⟩, .mov ⟨0, 15, 0, 0, 0, 0, 0, 0⟩, .movi ⟨0, 15, 0, 0, 0, 0, 0, 0⟩, .movh ⟨0, 15, 0, 0, 0, 0, 0, 0⟩, .lit ⟨0, 15, 0,
    0, 0⟩, .fadd ⟨0, 15, 0, 0, 0, 0, 0, 0⟩, .fsub ⟨0, 15, 0, 0, 0, 0, 0, 0⟩, .fmul ⟨0, 15, 0, 0, 0, 0, 0, 0⟩, .fma ⟨0, 15, 0, 0, 0, 0,
    0, 0⟩, .fnma ⟨0, 15, 0, 0, 0, 0, 0, 0⟩, .fmin ⟨0, 15, 0, 0, 0, 0, 0, 0⟩, .fmax ⟨0, 15, 0, 0, 0, 0, 0, 0⟩, .fabs ⟨0, 15, 0, 0, 0, 0,
    0, 0⟩, .fneg ⟨0, 15, 0, 0, 0, 0, 0, 0⟩, .fcmpeq ⟨0, 15, 0, 0, 0, 0, 0, 0⟩, .fcmplt ⟨0, 15, 0, 0, 0, 0, 0, 0⟩, .fcmple ⟨0, 15, 0, 0,
    0, 0, 0, 0⟩, .fcmpun ⟨0, 15, 0, 0, 0, 0, 0, 0⟩, .fclass ⟨0, 15, 0, 0, 0, 0, 0, 0⟩, .fscale ⟨0, 15, 0, 0, 0, 0, 0, 0⟩, .fdiv ⟨0, 15,
    0, 0, 0, 0, 0, 0⟩, .frcp ⟨0, 15, 0, 0, 0, 0, 0, 0⟩, .frsq ⟨0, 15, 0, 0, 0, 0, 0, 0⟩, .fsqrt ⟨0, 15, 0, 0, 0, 0, 0, 0⟩, .fexp2 ⟨0,
    15, 0, 0, 0, 0, 0, 0⟩, .flog2 ⟨0, 15, 0, 0, 0, 0, 0, 0⟩, .fsig ⟨0, 15, 0, 0, 0, 0, 0, 0⟩, .ftanh ⟨0, 15, 0, 0, 0, 0, 0, 0⟩, .cvt ⟨0,
    15, 0, 0, 0, 0, 0, 0⟩, .cvts ⟨0, 15, 0, 0, 0, 0, 0, 0⟩, .pack ⟨0, 15, 0, 0, 0, 0, 0, 0⟩, .unpk ⟨0, 15, 0, 0, 0, 0, 0, 0⟩, .bcast ⟨0,
    15, 0, 0, 0, 0, 0, 0⟩, .shuf ⟨0, 15, 0, 0, 0, 0, 0, 0⟩, .rotx ⟨0, 15, 0, 0, 0, 0, 0, 0⟩, .lane ⟨0, 15, 0, 0, 0, 0, 0, 0⟩, .insl ⟨0,
    15, 0, 0, 0, 0, 0, 0⟩, .redadd ⟨0, 15, 0, 0, 0, 0, 0, 0⟩, .redmax ⟨0, 15, 0, 0, 0, 0, 0, 0⟩, .redmin ⟨0, 15, 0, 0, 0, 0, 0, 0⟩,
    .scan ⟨0, 15, 0, 0, 0, 0, 0, 0⟩]

/-- The hypotheses of ComputeCompletes hold of every one of them. -/
theorem witness_ComputeCompletes :
    (computeOps.all fun i => (resultOf i (inA i)).isSome && may {} {} {} A i (ran 0 0 0) &&
      (injectionFor ((stateWith {} {} {} A i (ran 0 0 0)).fab.core 0) A i).isNone) = true := by decide +kernel

theorem witness_NopCompletes : Met (.nop ⟨0, 15, 0, 0, 0, 0, 0, 0⟩) (fun _ _ => True) := met {} {} A (ran 0 0 0) (by decide +kernel) trivial

/-- The accumulator writes of a sequencer's block. -/
def accOps : List Instr :=
  [.awr ⟨0, 15, 0, 0, 0, 0, 0, 0⟩, .aacc ⟨0, 15, 0, 0, 0, 0, 0, 0⟩, .apatchSet ⟨0, 15, 0, 0, 0, 0, 0, 0⟩, .aclr ⟨0, 15, 0, 0, 0, 0, 0,
    0⟩, .apatchAdd ⟨0, 15, 0, 0, 0, 0, 0, 1024⟩, .apatchScale ⟨0, 15, 0, 0, 0, 0, 0, 2048⟩]

/-- The issue of an agent's slot 0 in `stateWith`. -/
abbrev isu (who : Agent) (e : Exec) (i : Instr) : Issue := gather who 0 i e

/-- A fabric as `stateWith` has it. -/
abbrev fabOf (k : Core) (u : Units) (who : Agent) (e : Exec) (i : Instr) : Fabric := (stateWith {} k u who i e).fab

/-- Whether an accumulator write issues, names its last row so, and its rows are free, or held, as said. -/
def accMeets (k : Core) (who : Agent) (e : Exec) (last : Nat) (held : Bool) (i : Instr) : Bool :=
  may {} k {} who i e &&
    match accWriteOf i (isu who e i) with
    | some (o, row, l) => l = last && (o.rows row).any ((fabOf k {} who e i).core 0).accHeld == held
    | none => false

theorem witness_AccumulatorWritesComplete :
    accOps.all (accMeets {} A (ran 0 0 0) 0 false) = true ∧ accOps.all (accMeets {} S (ran 1023 0 0) 1023 false) = true := by
  decide +kernel

/-- A core whose matrix engine holds accumulator row 0. -/
def holdsRow : Core := { mx := { queue := [{ id := 1, kind := 0, op := 0x302, a := 1, mod := 0, flags := 0, ty := 0, win := 3, desc := ⟨0, 0⟩, set := 0, rect := (0, 0, 1, 1) }] } }

theorem witness_AccumulatorFaults :
    accOps.all (accMeets {} S (ran 1024 0 0) 1024 false) = true ∧ accOps.all (accMeets holdsRow A (ran 0 0 0) 0 true) = true ∧
    ∃ d, Met (.ard d) (fun _ x => 1024 ≤ elem 32 x.a 0 + d.imm.toNat % 1024) :=
  ⟨by decide +kernel, by decide +kernel, ⟨0, 15, 0, 0, 0, 0, 0, 0⟩, met {} {} A (ran 1024 0 0) (by decide +kernel) (by decide +kernel)⟩

/-! ### Memory instructions -/

/-- The loads. -/
def loadOps : List Instr := [.ld ⟨0, 15, 0, 0, 8, 0, 0, 0, 0⟩, .ld2 ⟨0, 15, 0, 0, 8, 0, 0, 0, 0⟩, .lds ⟨0, 15, 0, 0, 8, 0, 0, 0, 0⟩, .gath ⟨0, 15, 0, 0, 8, 0,
    0, 0, 0⟩]

/-- The atomics; the second lists have a target. -/
def atomicOps : List Instr :=
  [.atadd ⟨0, 15, 0, 0, 8, 0, 0, 0, 0⟩, .atfadd ⟨0, 15, 0, 0, 8, 0, 0, 0, 0⟩, .atmin ⟨0, 15, 0, 0, 8, 0, 0, 0, 0⟩, .atmax ⟨0, 15, 0,
    0, 8, 0, 0, 0, 0⟩, .atfmax ⟨0, 15, 0, 0, 8, 0, 0, 0, 0⟩, .atand ⟨0, 15, 0, 0, 8, 0, 0, 0, 0⟩, .ator ⟨0, 15, 0, 0, 8, 0, 0, 0, 0⟩,
    .atxor ⟨0, 15, 0, 0, 8, 0, 0, 0, 0⟩, .atxch ⟨0, 15, 0, 0, 8, 0, 0, 0, 0⟩, .atcas ⟨0, 15, 0, 0, 8, 0, 0, 0, 0⟩]

def atomicTargets : List Instr :=
  [.atadd ⟨0, 15, 0, 0, 8, 128, 0, 0, 0⟩, .atfadd ⟨0, 15, 0, 0, 8, 128, 0, 0, 0⟩, .atmin ⟨0, 15, 0, 0, 8, 128, 0, 0, 0⟩, .atmax ⟨0,
    15, 0, 0, 8, 128, 0, 0, 0⟩, .atfmax ⟨0, 15, 0, 0, 8, 128, 0, 0, 0⟩, .atand ⟨0, 15, 0, 0, 8, 128, 0, 0, 0⟩, .ator ⟨0, 15, 0, 0, 8,
    128, 0, 0, 0⟩, .atxor ⟨0, 15, 0, 0, 8, 128, 0, 0, 0⟩, .atxch ⟨0, 15, 0, 0, 8, 128, 0, 0, 0⟩, .atcas ⟨0, 15, 0, 0, 8, 128, 0, 0, 0⟩]

/-- The stores. -/
def storeOps : List Instr := [.st ⟨0, 15, 0, 0, 8, 0, 0, 0, 0⟩, .sts ⟨0, 15, 0, 0, 8, 0, 0, 0, 0⟩, .scat ⟨0, 15, 0, 0, 8, 0, 0, 0, 0⟩] ++ atomicOps

/-- A core whose cache holds the page at address 0. -/
def cachesPage : Core := { tlb := [⟨1, 0, 65536, 0x50000, 0, 0x43, 0, 0, 0⟩] }

/-- What the check of each lane finds. -/
def lanesOut (k : Core) (u : Units) (who : Agent) (e : Exec) (i : Instr) : List LaneOut :=
  ((isu who e i).lanesNow (fabOf k u who e i)).map ((fabOf k u who e i).checkLane who e i)

/-- Every lane waits for a walk, or is translated. -/
def walks (l : List LaneOut) : Bool := l.all (· == .walk) && !l.isEmpty
def held (l : List LaneOut) : Bool := l.all (fun o => match o with | .ok _ _ _ => true | _ => false) && !l.isEmpty

/-- Operands of slots 0 and 1. -/
def both : Exec :=
  { bufs := (ran 0 0 1).bufs ++ (ran 0 0 1).bufs.map fun p => (p.1 + 4, p.2) }

/-- The block of an instruction twice. -/
def twice (i : Instr) : Block := ⟨0, encode i ++ encode i⟩

/-- A state in which slot 1 of a firing of that block acts. -/
def secondState (i : Instr) : State :=
  { fab := { cores := [(0, { group := some (groupWith [twice i]), actors := [(0, { firing := some { exec := both } })] })], units := {} }
    run := { acting := some (A, 1) } }

theorem witness_LoadsComplete :
    (loadOps.all fun i => isLoad i && may {} {} {} A i (ran 0 0 1) && walks (lanesOut {} {} A (ran 0 0 1) i) &&
      !(fabOf {} {} A (ran 0 0 1) i).lowerAsks (isu A (ran 0 0 1) i) ((reqChan i).getD 0) &&
      (fabOf {} {} A (ran 0 0 1) i).slotFree 0 ((reqChan i).getD 0)) = true ∧
    (loadOps.all fun i => may {} cachesPage {} S i (ran 0 0 1) && held (lanesOut cachesPage {} S (ran 0 0 1) i)) = true ∧
    (loadOps.all fun i =>
      let k : Core :=
        { askers := [⟨(reqChan i).getD 0, .actor 0 1, 0, 0, 0⟩]
          actors := [(1, { firing := some { exec := { waits := [(0, .slot ((reqChan i).getD 0))] } } })] }
      may {} k {} A i (ran 0 0 1) && walks (lanesOut k {} A (ran 0 0 1) i) &&
        !(fabOf k {} A (ran 0 0 1) i).lowerAsks (isu A (ran 0 0 1) i) ((reqChan i).getD 0) &&
        !(fabOf k {} A (ran 0 0 1) i).slotFree 0 ((reqChan i).getD 0)) = true ∧
    (loadOps.all fun i =>
      let f := (secondState i).fab
      let x := gather A 1 i both
      mayAt (secondState i) A i both (twice i) 1 && walks ((x.lanesNow f).map (f.checkLane A both i)) &&
        f.lowerAsks x ((reqChan i).getD 0)) = true := by
  decide +kernel

theorem witness_StoresComplete :
    (storeOps.all fun i => isStoreOp i && may {} cachesPage {} A i (ran 0 0 1) && held (lanesOut cachesPage {} A (ran 0 0 1) i)) = true ∧
    (storeOps.all fun i => may {} {} {} S i (ran 0 0 1) && walks (lanesOut {} {} S (ran 0 0 1) i)) = true := by
  decide +kernel

theorem witness_EagerAtomicsComplete :
    (atomicTargets.all fun i => isEagerOp i && may {} cachesPage {} A i (ran 0 0 1) && held (lanesOut cachesPage {} A (ran 0 0 1) i)) = true ∧
    (atomicTargets.all fun i => may {} cachesPage {} S i (ran 0 0 1) && held (lanesOut cachesPage {} S (ran 0 0 1) i)) = true := by
  decide +kernel

theorem witness_MisalignedAccessFaults :
    ((loadOps ++ storeOps).all fun i =>
      let i := (match i with | .lds f => .lds { f with size := 3 } | .sts f => .sts { f with size := 3 } | _ => i : Instr)
      may {} {} {} A i (ran 1 0 1) && (fabOf {} {} A (ran 1 0 1) i).canFault A 0 &&
        match memLanes i (isu A (ran 1 0 1) i).a 0 (isu A (ran 1 0 1) i).c with
        | l :: _ => l.va % laneAlign i l != 0
        | [] => false) = true := by
  decide +kernel

/-! ### Branches, configuration and engine commands -/

theorem witness_BranchesComplete :
    ([.br ⟨0, 15, 0, 0, 0, 0, 0, 0⟩, .brc ⟨0, 15, 0, 0, 0, 0, 0, 0⟩, .brx ⟨0, 15, 0, 0, 0, 0, 0, 0⟩, .call ⟨0, 15, 0, 0, 0, 0, 0, 0⟩, .ret ⟨0, 15, 0, 0, 0, 0, 0, 0⟩, .rft ⟨0, 15, 0, 0, 0, 0, 0, 0⟩, .halt ⟨0, 15, 0, 0, 0, 0, 0, 0⟩].all fun i =>
      (choiceOf i (isu S (ran 0 0 0) i)).isSome && may {} {} {} S i (ran 0 0 0)) = true := by
  decide +kernel

/-- A configuration instruction, the plane it meets and its operands. -/
def configs : List (Plane × Instr × Row × Row) :=
  [({}, .cwin ⟨0, 15, 0, 0, 0, 0, 0, 0, 0⟩, ofVals 32 [0, 1], 0),
   ({ wins := [(0, ⟨0, 1, 0, 0, none⟩)] }, .wgrow ⟨0, 15, 0, 0, 0, 0, 0, 0, 0⟩, ofVals 32 [2, 4294967295], 0),
   ({ wins := [(0, ⟨0, 1, 0, 0, none⟩)] }, .cport ⟨0, 15, 0, 0, 0, 0, 0, 0, 0⟩, ofVals 32 [0, 1], 0),
   ({}, .cactor ⟨0, 15, 0, 0, 0, 0, 0, 0, 0⟩, ofVals 32 [1, 0, 4294967295], 0),
   ({}, .cactorUnbind ⟨0, 15, 0, 0, 0, 0, 0, 0, 8⟩, 0, 0),
   ({}, .croute ⟨0, 15, 0, 0, 0, 0, 0, 0, 1⟩, ofVals 32 [1073741824], 0),
   ({}, .csteer ⟨0, 15, 0, 0, 0, 0, 0, 0, 0⟩, 0, 0),
   ({}, .cmerge ⟨0, 15, 0, 0, 0, 0, 0, 0, 0⟩, 0, 0),
   ({}, .ccarry ⟨0, 15, 0, 0, 0, 0, 0, 0, 0⟩, 0, 0),
   ({}, .cinv ⟨0, 15, 0, 0, 0, 0, 0, 0, 0⟩, 0, 0),
   ({}, .cchain ⟨0, 15, 0, 0, 0, 0, 0, 0, 0⟩, ofVals 32 [1, 1], ofVals 32 [0, 0, 1]),
   ({}, .cloop ⟨0, 15, 0, 0, 0, 0, 0, 0, 1⟩, 1, 0),
   ({}, .cturn ⟨0, 15, 0, 0, 0, 0, 0, 0, 0⟩, 0, 0),
   ({}, .cmodeMatrixRectangle ⟨0, 15, 0, 0, 0, 0, 0, 0, 0⟩, 0, 0),
   ({}, .cmodePatchLogWindow ⟨0, 15, 0, 0, 0, 0, 0, 0, 1⟩, 4294967295, 0),
   ({}, .cmodeBarrierCount ⟨0, 15, 0, 0, 0, 0, 0, 0, 2⟩, 1, 0),
   ({}, .cdesc ⟨0, 15, 0, 0, 0, 0, 0, 0, 0⟩, 0, 0)]

/-- The core of such an instruction: block 1 is an actor block. -/
def cfgCore (p : Plane) : Core := { plane := p, group := some (groupWith [⟨headerOf 1 (encode (.trap ⟨0, 15, 6, 6, 0, 0, 0, 0⟩)), encode (.trap ⟨0, 15, 6, 6, 0, 0, 0, 0⟩)⟩]) }

theorem witness_ConfigurationCompletes :
    (configs.all fun q =>
      let k := cfgCore q.1
      let e := ran q.2.2.1 q.2.2.2 0
      may {} k {} S q.2.1 e &&
        match itemOf q.2.1 (fabOf k {} S e q.2.1) (isu S e q.2.1) with
        | some (_, t) => refusals ((fabOf k {} S e q.2.1).core 0) S t == []
        | none => false) = true := by
  decide +kernel

theorem witness_ConfigurationRefused :
    (configs.all fun q =>
      let k := { cfgCore q.1 with kindling := .bind }
      let e := ran q.2.2.1 q.2.2.2 0
      may {} k {} S q.2.1 e && (fabOf k {} S e q.2.1).canFault S 0 &&
        match itemOf q.2.1 (fabOf k {} S e q.2.1) (isu S e q.2.1) with
        | some (_, t) => leastOf (refusals ((fabOf k {} S e q.2.1).core 0) S t) == some 0x32
        | none => false) = true ∧
    ∃ m b addr, (b.validate true) = some addr ∧ Met (.cactor m)
      (fun f x => Group.actorBlock ((f.core x.who.core).groupOf x.who) (elem 32 x.a 0) = some b) :=
  ⟨by decide +kernel, ⟨0, 15, 0, 0, 0, 0, 0, 0, 0⟩, ⟨headerOf 1 [], []⟩, 0xFF04, by decide +kernel,
   met { group := some (groupWith [⟨headerOf 1 [], []⟩]) } {} S (ran 1 0 0) (by decide +kernel) (by decide +kernel)⟩

/-- A core for engine commands: window 0 filled by generator 0, window 1 read by it, 2 filled by the network, a rectangle of one PE. -/
def engCore : Core :=
  { plane := {
      wins := [(0, ⟨0, 8, partyIdent 2 0, 0, none⟩), (1, ⟨8, 8, 0, partyIdent 2 0, none⟩), (2, ⟨16, 8, partyIdent 5 0, 0, none⟩),
        (3, ⟨24, 8, 0, 0, none⟩)]
      descs := [(0, ⟨0, 0⟩), (1, ⟨64 <<< 128 - 1 <<< 128, 1⟩)], rect := (0, 0, 1, 1) } }

/-- Context 1 with a connection, and region 1 with core 0. -/
def engUnits : Units := { contexts := [(1, { conns := [(0, { peer := 0 })] })], regions := [(1, { cores := [(0, 0)] })] }

/-- An engine command and its operands. -/
def commands : List (Instr × Row × Row) :=
  [(.mxldw ⟨0, 15, 0, 0, 0, 0, 0, 1, 0, 0⟩, ofVals 32 [0, 1, 0, 1, 0], 0),
   (.mxsel ⟨0, 15, 0, 0, 0, 0, 0, 0, 0, 0⟩, 0, 0),
   (.mxrun ⟨0, 15, 0, 0, 0, 0, 0, 0, 3, 0⟩, ofVals 32 [1, 0, 0, 0], 0),
   (.mxthr ⟨0, 15, 0, 0, 0, 0, 0, 0, 0, 0⟩, 0, 0),
   (.cpy ⟨0, 15, 0, 0, 0, 0, 0, 0, 0, 0⟩, ofVals 32 [0, 0, 0, 0, 1, 1, 1, 1], 0),
   (.cpyChained ⟨0, 15, 0, 0, 0, 0, 0, 0, 0, 4⟩, ofVals 32 [0, 0, 0, 0, 1, 1, 1, 1], ofVals 32 [1, 0, 0, 0, 0, 0, 0]),
   (.cpyw ⟨0, 15, 0, 0, 0, 0, 0, 0, 1, 0⟩, ofVals 32 [0, 0, 0, 0, 1, 1, 1, 1], 0),
   (.cpyr ⟨0, 15, 0, 0, 0, 0, 0, 0, 1, 0⟩, ofVals 32 [0, 0, 0, 1], 0),
   (.cpyi ⟨0, 15, 0, 0, 0, 0, 0, 0, 0, 0⟩, ofVals 32 [1, 1, 1, 1], 0),
   (.cpypMax ⟨0, 15, 0, 0, 0, 0, 0, 0, 0, 0⟩, ofVals 32 [1, 1, 1, 1], 0),
   (.cpypAvg ⟨0, 15, 0, 0, 0, 0, 0, 0, 0, 1⟩, ofVals 32 [1, 1, 1, 1], 0),
   (.cpyf ⟨0, 15, 0, 0, 0, 0, 0, 0, 0, 0⟩, ofVals 32 [0, 0, 0, 0, 1, 1, 1, 1], 0),
   (.strmRead ⟨0, 15, 0, 0, 0, 0, 0, 0, 0, 0⟩, ofVals 32 [0, 0, 0, 0, 1, 1, 1, 1], 0),
   (.strmWrite ⟨0, 15, 0, 0, 0, 0, 0, 0, 1, 1⟩, ofVals 32 [0, 0, 0, 0, 1, 1, 1, 1], 0),
   (.strw ⟨0, 15, 0, 0, 0, 0, 0, 0, 0, 0⟩, 0, 0),
   (.strxStop ⟨0, 15, 0, 0, 0, 0, 0, 0, 0, 0⟩, 0, 0),
   (.strxResume ⟨0, 15, 0, 0, 0, 0, 0, 0, 0, 1⟩, 0, 0),
   (.nsend ⟨0, 15, 0, 0, 0, 0, 0, 0, 0, 0⟩, 0, ofVals 32 [0, 0, 0, 0, 1, 1, 1, 1]),
   (.nget ⟨0, 15, 0, 0, 0, 0, 0, 0, 2, 0⟩, ofVals 32 [0, 0, 0, 0, 1], 0),
   (.nredAdd ⟨0, 0, 0, 0, 0, 0, 0, 0, 0, 0⟩, 0, ofVals 32 [0, 0, 0, 0, 1, 1, 1, 1]),
   (.nredMax ⟨0, 0, 0, 0, 0, 0, 0, 0, 0, 1⟩, 0, ofVals 32 [0, 0, 0, 0, 1, 1, 1, 1]),
   (.nredMin ⟨0, 0, 0, 0, 0, 0, 0, 0, 0, 2⟩, 0, ofVals 32 [0, 0, 0, 0, 1, 1, 1, 1]),
   (.xinv ⟨0, 15, 0, 0, 0, 0, 0, 0, 0, 0⟩, ofVals 32 [0, 0, 1], 0),
   (.wpsetDescriptor ⟨0, 15, 0, 0, 0, 0, 0, 0, 0, 0⟩, ofVals 32 [0, 0, 0, 0, 0, 0, 0, 0, 1, 1], 0),
   (.wpsetRange ⟨0, 15, 0, 0, 0, 0, 0, 0, 0, 1⟩, ofVals 32 [0, 0, 1, 0, 0, 0, 0, 0, 1, 1], 0)]

/-- Whether a command's checks all pass, and whether it has room. -/
def cmdMeets (k : Core) (room : Bool) (q : Instr × Row × Row) : Bool :=
  let e := ran q.2.1 q.2.2 0
  let c := (fabOf k engUnits S e q.1).core 0
  may {} k engUnits S q.1 e &&
    match commandOf q.1 (fabOf k engUnits S e q.1) (isu S e q.1) with
    | some m => m.desc.all (fun n => (sfind c.plane.descs n).isSome) && m.checks.all (fun x => !x.1) &&
        (m.room c && decide (c.counts.cp + m.cp ≤ 65535) && decide (c.counts.mx + m.mx ≤ 65535)) == room
    | none => false

theorem witness_EngineCommandsEnter : commands.all (cmdMeets engCore true) = true := by decide +kernel

theorem witness_EngineCommandsStop :
    ([(.mxldw ⟨0, 15, 0, 0, 0, 0, 0, 1, 0, 0⟩, ofVals 32 [0, 1, 0, 1, 0], 0), (.cpy ⟨0, 15, 0, 0, 0, 0, 0, 0, 0, 0⟩, ofVals 32 [0, 0, 0, 0, 1, 1, 1, 1], 0), (.nsend ⟨0, 15, 0, 0, 0, 0, 0, 0, 0, 0⟩, 0, ofVals 32 [0, 0, 0, 0, 1, 1, 1, 1])].all (cmdMeets { engCore with counts := { cp := 65535, mx := 65535 } } false)) = true ∧
    ([(.mxldw ⟨0, 15, 0, 0, 0, 0, 0, 1, 0, 0⟩, ofVals 32 [0, 1, 0, 1, 0], 0), (.cpy ⟨0, 15, 0, 0, 0, 0, 0, 0, 0, 0⟩, ofVals 32 [0, 0, 0, 0, 1, 1, 1, 1], 0), (.nsend ⟨0, 15, 0, 0, 0, 0, 0, 0, 0, 0⟩, 0, ofVals 32 [0, 0, 0, 0, 1, 1, 1, 1])].all fun q =>
      let k := { engCore with plane := { engCore.plane with descs := [] } }
      may {} k engUnits S q.1 (ran q.2.1 q.2.2 0) &&
        match commandOf q.1 (fabOf k engUnits S (ran q.2.1 q.2.2 0) q.1) (isu S (ran q.2.1 q.2.2 0) q.1) with
        | some m => m.desc.isSome
        | none => false) = true ∧
    (let i : Instr := .mxldw ⟨0, 15, 0, 0, 0, 0, 0, 1, 0, 0⟩
     may {} engCore {} S i (ran (1 <<< 96) 0 0) &&
        match commandOf i (fabOf engCore {} S (ran (1 <<< 96) 0 0) i) (isu S (ran (1 <<< 96) 0 0) i) with
        | some m => m.desc == some 1 && m.checks.filter (fun c => c.1) == [(true, 0x40, 1)]
        | none => false) = true := by
  decide +kernel

/-- Region 1 with granule 7 in its pool, a context, and one expander. -/
def tierUnits : Units := { regions := [(1, { cores := [(0, 0)], pool := [7] })], expanders := [16] }

theorem witness_TierCommandsComplete :
    (∃ m s e b, Issues s S 0 (.tqry m) e b) ∧
    (∃ m s e b st t g, Issues s S 0 (.tin m) e b ∧ PageAt s (isu S e (.tin m)) st t ∧ elem 64 (isu S e (.tin m)).a 0 % t.size = 0 ∧
      st ≠ 0 ∧ NotMoving s (isu S e (.tin m)) true ∧
      poolRun (s.fab.region (s.fab.core 0).regionId).pool (t.size / 65536) = some g ∧ HasRoom (s.fab.core 0) Core.netRoom 1 0) ∧
    (∃ m s e b st t o, Issues s S 0 (.tout m) e b ∧ PageAt s (isu S e (.tout m)) st t ∧ elem 64 (isu S e (.tout m)).a 0 % t.size = 0 ∧
      t.size ≤ 2097152 ∧ st ≠ 1 ∧ NotMoving s (isu S e (.tout m)) false ∧
      peatRun s.fab.units.peat s.fab.units.peatCap (t.size / 65536) = some o ∧ HasRoom (s.fab.core 0) Core.netRoom 1 0) ∧
    (∃ m s e b t, Issues s S 0 (.tin m) e b ∧ PageAt s (isu S e (.tin m)) 0 t ∧ elem 64 (isu S e (.tin m)).a 0 % t.size = 0) ∧
    (∃ m s e b t, Issues s S 0 (.tout m) e b ∧ PageAt s (isu S e (.tout m)) 1 t ∧ elem 64 (isu S e (.tout m)).a 0 % t.size = 0 ∧
      t.size ≤ 2097152) :=
  ⟨⟨⟨0, 15, 0, 0, 0, 0, 0, 0, 0, 0⟩, _, _, _, issues (m := {}) (k := {}) (u := {}) (e := ran 0 0 0) (by decide +kernel)⟩,
   ⟨⟨0, 15, 0, 0, 0, 0, 0, 0, 0, 0⟩, _, _, _, 1, ⟨1, 0, 65536, 0x8000000000000, 0x30000, 0x13, 0, 0, 0⟩, 7,
    issues (m := pages inTier) (k := {}) (u := tierUnits) (e := ran 0 0 0) (by decide +kernel), (by unfold PageAt; decide +kernel), by decide +kernel,
    by decide +kernel, fun _ h => absurd h List.not_mem_nil, by decide +kernel, by decide +kernel, by decide +kernel, by decide +kernel⟩,
   ⟨⟨0, 15, 0, 0, 0, 0, 0, 0, 0, 0⟩, _, _, _, 0, ⟨1, 0, 65536, 0x50000, 0x30000, 0x3, 0, 0, 0⟩, 0,
    issues (m := pages inHearth) (k := {}) (u := tierUnits) (e := ran 0 0 0) (by decide +kernel), (by unfold PageAt; decide +kernel), by decide +kernel,
    by decide +kernel, by decide +kernel, fun _ h => absurd h List.not_mem_nil, by decide +kernel, by decide +kernel, by decide +kernel,
    by decide +kernel⟩,
   ⟨⟨0, 15, 0, 0, 0, 0, 0, 0, 0, 0⟩, _, _, _, ⟨1, 0, 65536, 0x50000, 0x30000, 0x3, 0, 0, 0⟩,
    issues (m := pages inHearth) (k := {}) (u := tierUnits) (e := ran 0 0 0) (by decide +kernel), (by unfold PageAt; decide +kernel),
    by decide +kernel⟩,
   ⟨⟨0, 15, 0, 0, 0, 0, 0, 0, 0, 0⟩, _, _, _, ⟨1, 0, 65536, 0x8000000000000, 0x30000, 0x13, 0, 0, 0⟩,
    issues (m := pages inTier) (k := {}) (u := tierUnits) (e := ran 0 0 0) (by decide +kernel), (by unfold PageAt; decide +kernel),
    by decide +kernel, by decide +kernel⟩⟩

theorem witness_FiringStarts :
  (∃ c pe p, MetF (fun f => shas (f.core c).picks pe = false ∧ f.pick c pe = some p ∧ ∀ m ∈ ((picked f c pe p).core c).mates (pe * 4 +
    p.1), sfind ((picked f c pe p).core c).picks (m / 4) = some m)) ∧
  (∃ c pe p m, MetF (fun f => shas (f.core c).picks pe = false ∧ f.pick c pe = some p ∧ m ∈ ((picked f c pe p).core c).mates (pe * 4 +
    p.1) ∧ sfind ((picked f c pe p).core c).picks (m / 4) ≠ some m)) :=
  ⟨⟨0, 0, (0, false), fab { group := some (groupWith []), plane := { actors := [(0, ⟨0, 0, none, false⟩)] } } {}, by decide +kernel⟩,
   ⟨0, 0, (0, false), 4, fab
    { group := some (groupWith []), plane := { actors := [(0, ⟨0, 0, some 1, false⟩), (4, ⟨0, 0, some 1, false⟩)] } } {}, by
    decide +kernel⟩⟩

theorem witness_WaitsEnd :
  (∃ who slot e o w n, MetF (fun f => let k := f.core who.core; k.exec who = some e ∧ e.waits.find? (fun w => w.1 = slot) = some
    (slot, .row o) ∧ ((k.blockOf who e).bind fun b => b.instrAt slot) = some (.wrdx w) ∧ k.winOf who w.port.toNat = some n ∧ o <
    k.readable n ∧ k.dbg.frozen = false)) ∧
  (∃ c a y, MetF (fun f => ((f.core c).actor a).firing = some y ∧ y.phase = .trapped ∧ y.release = .wrest ∧ (f.core c).dbg.frozen =
    false)) ∧
  (∃ c chan q e i, q.who.core = c ∧ MetF (fun f => let k := f.core c; (k.askers.filter k.stillAsks).find? (fun q => q.chan = chan) =
    some q ∧ f.slotReady c chan = true ∧ q.cycle < f.units.cycle ∧ k.dbg.frozen = false ∧ k.exec q.who = some e ∧ ((k.blockOf q.who
    e).bind fun b => b.instrAt q.slot) = some i)) :=
  ⟨⟨A, 0, _, 1, ⟨0, 14, 0, 0, 0, 0, 0, 0, 1⟩, 3, fab (coreWith
    { plane := { ports := [(0, ⟨3, false, 1⟩)], wins := [(3, ⟨0, 4, 0, 0, none⟩)] }, wins := [(3, { f := 2 })] } (.wrdx ⟨0, 14, 0, 0, 0,
    0, 0, 0, 1⟩) { waits := [(0, .row 1)] }) {}, ⟨rfl, by decide +kernel, by decide +kernel, by decide +kernel, by decide +kernel, by
    decide +kernel⟩⟩,
   ⟨0, 0, _, fab { actors := [(0, { firing := some { exec := {}, phase := .trapped, release := .wrest } })] } {}, ⟨rfl, by
    decide +kernel, by decide +kernel, by decide +kernel⟩⟩,
   ⟨0, 0, ⟨0, S, 0, 0, 0⟩, _, .ld ⟨0, 15, 0, 0, 8, 0, 0, 0, 0⟩, rfl, fab (coreWith { askers := [⟨0, S, 0, 0, 0⟩] } (.ld ⟨0, 15, 0, 0,
    8, 0, 0, 0, 0⟩) { waits := [(0, .slot 0)] }) { cycle := 1 }, by decide +kernel, by decide +kernel, by decide +kernel, by
    decide +kernel, rfl, by decide +kernel⟩⟩

theorem witness_ResponsesDeliver :
  (∃ id lane r e i, MetF (fun f => Answering f id lane r e i ∧ r.kind.isLoad = true ∧ r.kind ≠ .load2)) ∧
  (∃ id r e i, MetF (fun f => Answering f id 0 r e i ∧ r.kind = .eager)) ∧
  (∃ id lane r e i l, MetF (fun f => Answering f id lane r e i ∧ r.kind = .load2 ∧ r.lanes.find? (fun l => l.idx = lane) = some l)) ∧
  (∃ id lane r, MetF (fun f => f.req id = some r ∧ r.kind.isLoad = true ∧ f.answered r lane = true ∧ (f.core r.who.core).dbg.frozen =
    false ∧ f.issuer r = none ∧ (r.kind = .load2 → r.lanes.filter (fun l => l.idx ≠ lane) = []))) ∧
  (∃ id lane r, MetF (fun f => f.req id = some r ∧ r.kind = .load2 ∧ f.answered r lane = true ∧ (f.core r.who.core).dbg.frozen = false
    ∧ f.issuer r = none ∧ r.lanes.filter (fun l => l.idx ≠ lane) ≠ [])) ∧
  (∃ id lane r, MetF (fun f => f.req id = some r ∧ r.kind.isLoad = true ∧ f.answered r lane = true ∧ (f.core r.who.core).dbg.frozen =
    true ∧ (id, lane) ∉ (f.core r.who.core).dbg.skid ∧ (f.core r.who.core).dbg.skid.length < 64)) :=
  ⟨⟨1, 0,
    { id := 1, who := A, exec := 0, slot := 0, op := 0x1C0, ty := 15, kind := .load, lanes := [{ idx := 0, va := 0, n := 64, got := some {} }] },
    _, .ld ⟨0, 15, 0, 0, 8, 0, 0, 0, 0⟩, fab (coreWith {} (.ld ⟨0, 15, 0, 0, 8, 0, 0, 0, 0⟩) {})
    { reqs := [{ id := 1, who := A, exec := 0, slot := 0, op := 0x1C0, ty := 15, kind := .load, lanes := [{ idx := 0, va := 0, n := 64, got := some {} }] }], mesh := { home := [{ what := .reply 1 0 }] } },
    ⟨by decide +kernel, by decide +kernel, by decide +kernel, rfl, by decide +kernel⟩, by decide +kernel, by decide +kernel⟩,
   ⟨1,
    { id := 1, who := A, exec := 0, slot := 0, op := 0x1C0, ty := 15, kind := .eager, lanes := [{ idx := 0, va := 0, n := 64, got := some {} }] },
    _, .ld ⟨0, 15, 0, 0, 8, 0, 0, 0, 0⟩, fab (coreWith {} (.ld ⟨0, 15, 0, 0, 8, 0, 0, 0, 0⟩) {})
    { reqs := [{ id := 1, who := A, exec := 0, slot := 0, op := 0x1C0, ty := 15, kind := .eager, lanes := [{ idx := 0, va := 0, n := 64, got := some {} }] }], mesh := { home := [{ what := .reply 1 0 }] } },
    ⟨by decide +kernel, by decide +kernel, by decide +kernel, rfl, by decide +kernel⟩, by decide +kernel⟩,
   ⟨1, 0,
    { id := 1, who := A, exec := 0, slot := 0, op := 0x1C0, ty := 15, kind := .load2, lanes := [{ idx := 0, va := 0, n := 64, got := some {} }] },
    _, .ld ⟨0, 15, 0, 0, 8, 0, 0, 0, 0⟩, _, fab (coreWith {} (.ld ⟨0, 15, 0, 0, 8, 0, 0, 0, 0⟩) {})
    { reqs := [{ id := 1, who := A, exec := 0, slot := 0, op := 0x1C0, ty := 15, kind := .load2, lanes := [{ idx := 0, va := 0, n := 64, got := some {} }] }], mesh := { home := [{ what := .reply 1 0 }] } },
    ⟨by decide +kernel, by decide +kernel, by decide +kernel, rfl, by decide +kernel⟩, by decide +kernel, rfl⟩,
   ⟨1, 0,
    { id := 1, who := A, exec := 0, slot := 0, op := 0x1C0, ty := 15, kind := .load, lanes := [{ idx := 0, va := 0, n := 64, got := some {} }] },
    fab {}
    { reqs := [{ id := 1, who := A, exec := 0, slot := 0, op := 0x1C0, ty := 15, kind := .load, lanes := [{ idx := 0, va := 0, n := 64, got := some {} }] }], mesh := { home := [{ what := .reply 1 0 }] } },
    by decide +kernel⟩,
   ⟨1, 0,
    { id := 1, who := A, exec := 0, slot := 0, op := 0x1C0, ty := 15, kind := .load2, lanes := [{ idx := 0, va := 0, n := 64, got := some {} }, { idx := 1, va := 64, n := 64 }] },
    fab {}
    { reqs := [{ id := 1, who := A, exec := 0, slot := 0, op := 0x1C0, ty := 15, kind := .load2, lanes := [{ idx := 0, va := 0, n := 64, got := some {} }, { idx := 1, va := 64, n := 64 }] }], mesh := { home := [{ what := .reply 1 0 }] } },
    by decide +kernel⟩,
   ⟨1, 0,
    { id := 1, who := A, exec := 0, slot := 0, op := 0x1C0, ty := 15, kind := .load, lanes := [{ idx := 0, va := 0, n := 64, got := some {} }] },
    fab { dbg := { frozen := true } }
    { reqs := [{ id := 1, who := A, exec := 0, slot := 0, op := 0x1C0, ty := 15, kind := .load, lanes := [{ idx := 0, va := 0, n := 64, got := some {} }] }], mesh := { home := [{ what := .reply 1 0 }] } },
    by decide +kernel⟩⟩

theorem witness_FiringsComplete :
  (∃ c a g b, MetF (fun f => ((f.core c).actor a).firing = some g ∧ (f.core c).blockOf (.actor c a) g.exec = some b ∧ g.phase =
    .running ∧ g.exec.waits = [] ∧ (∀ q ∈ b.instrs, isOutput q.2 = true → q.1 ∈ g.exec.done) ∧ (f.core c).dbg.frozen = false)) ∧
  (∃ c a, MetF (fun f => f.mayCommit c ((f.core c).committers a) = true ∧ (f.core c).firstFail 0 ((f.core c).committers a) = none)) ∧
  (∃ c a p slot code addr i, MetF (fun f => f.mayCommit c ((f.core c).committers a) = true ∧ (f.core c).firstFail 0 ((f.core
    c).committers a) = some (p, slot, code, addr) ∧ ((f.core c).blockOf (.actor c p.1) p.2).bind (fun b => b.instrAt slot) = some i)) :=
  ⟨⟨0, 0, _, _, fab (coreWith {} (.nop ⟨0, 15, 6, 6, 0, 0, 0, 0⟩) {}) {}, ⟨rfl, rfl, by decide +kernel, by decide +kernel, by
    decide +kernel, by decide +kernel⟩⟩,
   ⟨0, 0, fab { actors := [(0, { firing := some { exec := {}, phase := .committing } })] } {}, by decide +kernel⟩,
   ⟨0, 0, _, 0, 0x21, 1, _, fab
    { (coreWith { plane := { ports := [(0, ⟨3, false, 1⟩)], wins := [(3, ⟨0, 4, 0, 0, none⟩)] }, wins := [(3, { f := 2 })] } (.wshr ⟨0, 14, 0, 0, 0, 0, 0, 0, 1⟩) {}) with wins := [], actors := [(0, { firing := some { exec := { effects := [(0, .shrink 0 1)] }, phase := .committing } })] }
    {}, ⟨by decide +kernel, rfl, rfl⟩⟩⟩

theorem witness_UnitsLeave :
  (∃ c id u, MetF (fun f => f.units.stores.find? (fun u => u.id = id && u.core = c) = some u ∧ u.sent = false ∧ (f.core c).dbg.frozen
    = false ∧ f.behindUnit c id (laneLines u.lanes) = false ∧ ∀ l ∈ laneLines u.lanes, l ∈ u.arrived ∨ f.units.carries (.part u.id l) =
    true)) ∧
  (∃ c id u, MetF (fun f => f.units.stores.find? (fun u => u.id = id && u.core = c && u.performed && f.units.here (.ack id)) = some u
    ∧ (f.core c).regionId = u.region ∧ (f.core c).dbg.frozen = false)) ∧
  (∃ c, MetF (fun f => (f.core c).dbg.frozen = false ∧ (f.core c).credits + (f.units.stores.map fun u => if u.core = c then u.packets
    else 0).sum < 256)) ∧
  (∃ c, MetF (fun f => (f.core c).dbg.frozen = true)) :=
  ⟨⟨0, 1, _, fab {}
    { stores := [{ id := 1, cycle := 0, core := 0, pe := 0, whos := [], region := 0, lanes := [{ va := 0, pa := 0, n := 8, data := 0x1122334455667788 }] }], mesh := { home := [{ what := .part 1 0 }] } },
    ⟨rfl, by decide +kernel, by decide +kernel, by decide +kernel⟩⟩,
   ⟨0, 1, _, fab {}
    { stores := [{ id := 1, cycle := 0, core := 0, pe := 0, whos := [], region := 0, lanes := [{ va := 0, pa := 0, n := 8, data := 0x1122334455667788 }], performed := true }], mesh := { home := [{ what := .ack 1 }] } },
    ⟨rfl, rfl, rfl⟩⟩,
   ⟨0, fab { credits := 255 } {}, by decide +kernel⟩,
   ⟨0, fab { dbg := { frozen := true } } {}, by decide +kernel⟩⟩

theorem witness_HorizonRises :
  (∃ reg n, MetF (fun f => (f.region reg).horizonAt + 64 ≤ f.units.cycle ∧ leastOf (f.cores.flatMap fun p => if p.2.group.isSome &&
    p.2.regionId = reg then p.2.actors.filterMap fun q => p.2.horizonOf q.1 q.2 else []) = some n)) :=
  ⟨1, 7, fab { group := some (groupWith []), actors := [(0, { firing := some { exec := { tstamp := some 7 } } })] } { cycle := 64 },
    by decide +kernel⟩

theorem witness_SequencerWaitsEnd :
  (∃ c e slot m t i, MetF (fun f => (f.core c).exec (.seq c) = some e ∧ e.waits.find? (fun w => f.waitOver c w.2) = some (slot, .event
    m t) ∧ (f.core c).dbg.frozen = false ∧ ((f.core c).blockOf (.seq c) e).bind (fun b => b.instrAt slot) = some i)) ∧
  (∃ c e slot w, MetF (fun f => (f.core c).exec (.seq c) = some e ∧ e.waits.find? (fun w => f.waitOver c w.2) = some (slot, w) ∧ (∀ m
    t, w ≠ .event m t) ∧ (f.core c).dbg.frozen = false)) ∧
  (∃ c b g x, MetF (fun f => (f.core c).seq.phase = .fetch b ∧ (f.core c).group = some g ∧ (f.core c).dbg.frozen = false ∧
    g.blocks[b]? = some x ∧ x.validate false = none)) ∧
  (∃ c b g x addr, MetF (fun f => (f.core c).seq.phase = .fetch b ∧ (f.core c).group = some g ∧ (f.core c).dbg.frozen = false ∧
    g.blocks[b]? = some x ∧ x.validate false = some addr)) :=
  ⟨⟨0, _, 0, 1, 1, .evwait ⟨0, 15, 0, 0, 0, 0, 0, 1⟩, fab (coreWith { eng := { strm := 1, tierEv := true }, misses := [⟨0, true, []⟩] }
    (.evwait ⟨0, 15, 0, 0, 0, 0, 0, 1⟩) { waits := [(0, .event 1 1)] }) {}, ⟨rfl, by decide +kernel, by decide +kernel, by
    decide +kernel⟩⟩,
   ⟨0, _, 0, .count 0, fab (coreWith {} (.waitc ⟨0, 15, 0, 0, 0, 0, 0, 0⟩) { waits := [(0, .count 0)] }) {}, ⟨rfl, by decide +kernel,
    by simp, by decide +kernel⟩⟩,
   ⟨0, 0, _, ⟨headerOf 0 (encode (.halt ⟨0, 15, 6, 6, 0, 0, 0, 0⟩)), encode (.halt ⟨0, 15, 6, 6, 0, 0, 0, 0⟩)⟩, fab
    { group := some (groupWith [⟨headerOf 0 (encode (.halt ⟨0, 15, 6, 6, 0, 0, 0, 0⟩)), encode (.halt ⟨0, 15, 6, 6, 0, 0, 0, 0⟩)⟩]), seq := { phase := .fetch 0 } }
    {}, ⟨by decide +kernel, rfl, by decide +kernel, by decide +kernel, by decide +kernel⟩⟩,
   ⟨0, 0, _, ⟨0, []⟩, 0xFF01, fab { group := some (groupWith [⟨0, []⟩]), seq := { phase := .fetch 0 } } {}, ⟨by decide +kernel, rfl, by
    decide +kernel, by decide +kernel, by decide +kernel⟩⟩⟩

theorem witness_GeneratorRows :
  (∃ c i q, MetF (fun f => RunsGen f c i q ∧ q.fills = true ∧ RowLeft q ((f.core c).gen i).row ∧ (f.core c).pausedStream ((f.core
    c).gen i) = false ∧ ((f.core c).gen i).stopped = false ∧ (f.core c).restoring q.win = false ∧ (f.core c).freeRows q.win ≠ 0 ∧
    ((f.core c).gen i).rowLanded q ((f.core c).gen i).row = true)) ∧
  (∃ c i q, MetF (fun f => RunsGen f c i q ∧ q.writes = true ∧ RowLeft q ((f.core c).gen i).row ∧ (f.core c).pausedStream ((f.core
    c).gen i) = false ∧ (q.op = 0x345 ∨ (f.core c).readable q.win ≠ 0) ∧ ((f.core c).gen i).rowWritten q ((f.core c).gen i).row = true ∧
    ((f.core c).gen i).stopped = false)) ∧
  (∃ c i q, MetF (fun f => let d := elem 32 q.a 0 * 128 + elem 32 q.a 1; RunsGen f c i q ∧ q.op = 0x342 ∧ ((f.core c).gen i).stopped =
    false ∧ (f.core d).dbg.frozen = false ∧ (f.core c).cutDone = false ∧ (f.core d).cutDone = false ∧ ((f.core c).gen i).row < elem 32
    q.a 3 ∧ (f.core c).readable q.win ≠ 0 ∧ (f.core d).group.isSome = true ∧ f.fillerDone c q.win = true ∧ (f.core d).notParty (elem 32
    q.a 2) true (partyIdent 5 0) = false ∧ (f.core d).freeRows (elem 32 q.a 2) ≠ 0 ∧ (f.core d).restoring (elem 32 q.a 2) = false)) :=
  ⟨⟨0, 0, _, fab
    { eng := { gens := [(0, { cur := some { op := 0x348, desc := ⟨0, 0⟩, win := 3, flags := 0, a := 0, b := 0, order := 1, passes := 0 } })] }, wins := [(3, { f := 4 })], plane := { wins := [(3, ⟨0, 8, 0, 0, none⟩)] } }
    {}, ⟨⟨rfl, by decide +kernel⟩, by decide +kernel, fun n h => absurd (h.symm.trans (by decide +kernel : GenCmd.total _ = none)) (by
    simp), by decide +kernel, by decide +kernel, by decide +kernel, by decide +kernel, by decide +kernel⟩⟩,
   ⟨0, 0, _, fab
    { eng := { gens := [(0, { cur := some { op := 0x348, desc := ⟨0, 0⟩, win := 3, flags := 1, a := 0, b := 0, order := 1, passes := 0 } })] }, wins := [(3, { f := 4 })], plane := { wins := [(3, ⟨0, 8, 0, 0, none⟩)] } }
    {}, ⟨⟨rfl, by decide +kernel⟩, by decide +kernel, fun n h => absurd (h.symm.trans (by decide +kernel : GenCmd.total _ = none)) (by
    simp), by decide +kernel, by decide +kernel, by decide +kernel, by decide +kernel⟩⟩,
   ⟨0, 0, _,
    { cores := [(0, { eng := { gens := [(0, { cur := some { op := 0x342, desc := ⟨0, 0⟩, win := 3, flags := 0, a := ofVals 32 [0, 1, 5, 1], b := 0, order := 1, passes := 1 } })] }, wins := [(3, { f := 4 })], plane := { wins := [(3, ⟨0, 8, 0, 0, none⟩)] } }), (1, { group := some (groupWith []), plane := { wins := [(5, ⟨0, 4, partyIdent 5 0, 0, none⟩)] } })] },
    ⟨⟨rfl, by decide +kernel⟩, by decide +kernel⟩⟩⟩

theorem witness_MatrixRows :
  (∃ c m g, MetF (fun f => (f.core c).mx.queue.find? (fun m => m.kind = 0 && m.admitted < m.count) = some m ∧ m.chain = some g ∧
    m.ready = false ∧ (f.core c).chainFilled m.id g = true ∧ (f.core c).dbg.frozen = false)) ∧
  (∃ c m, MetF (fun f => nextRecords [] (f.core c).mx.queue = some m ∧ (f.core c).dbg.frozen = false ∧ (f.core c).saving = false)) ∧
  (∃ c m, MetF (fun f => (f.core c).mx.queue.find? (fun m => m.kind = 0 && m.admitted < m.count) = some m ∧ (f.core c).dbg.frozen =
    false ∧ m.loaded = true ∧ m.ready = true ∧ m.nextOffset + m.rowsPer ≤ (f.core c).readable m.win)) ∧
  (∃ c m, MetF (fun f => activeLoad [] (f.core c).mx.queue = some m ∧ (f.core c).dbg.frozen = false ∧ m.written < m.recCount ∧ ∀ l ∈
    m.recLines m.written, m.holds m.written l = true)) :=
  ⟨⟨0,
    { id := 1, kind := 0, op := 0x302, a := 1, mod := 0, flags := 0, ty := 0, win := 3, desc := ⟨0, 0⟩, set := 0, rect := (0, 0, 1, 1), chain := some 0, ready := false },
    0, fab
    { mx := { queue := [{ id := 1, kind := 0, op := 0x302, a := 1, mod := 0, flags := 0, ty := 0, win := 3, desc := ⟨0, 0⟩, set := 0, rect := (0, 0, 1, 1), chain := some 0, ready := false }] } }
    {}, ⟨by decide +kernel, rfl, by decide +kernel, by decide +kernel, by decide +kernel⟩⟩,
   ⟨0, _, fab
    { mx := { queue := [{ id := 1, kind := 0, op := 0x302, a := 0, mod := 0, flags := 0, ty := 0, win := 3, desc := ⟨0, 0⟩, set := 0, rect := (0, 0, 1, 1) }] } }
    {}, ⟨rfl, by decide +kernel, by decide +kernel⟩⟩,
   ⟨0,
    { id := 1, kind := 0, op := 0x302, a := 1, mod := 0, flags := 0, ty := 0, win := 3, desc := ⟨0, 0⟩, set := 0, rect := (0, 0, 1, 1), loaded := true },
    fab
    { mx := { queue := [{ id := 1, kind := 0, op := 0x302, a := 1, mod := 0, flags := 0, ty := 0, win := 3, desc := ⟨0, 0⟩, set := 0, rect := (0, 0, 1, 1), loaded := true }] }, wins := [(3, { f := 4 })], plane := { wins := [(3, ⟨0, 8, 0, 0, none⟩)] } }
    {}, ⟨by decide +kernel, by decide +kernel, by decide +kernel, by decide +kernel, by decide +kernel⟩⟩,
   ⟨0,
    { id := 1, kind := 1, op := 0x302, a := 0x1000000000000000100000000, mod := 0, flags := 0, ty := 0, win := 3, desc := ⟨0, 0⟩, set := 0, rect := (0, 0, 1, 1), landed := [⟨0, 0, {}, 0⟩] },
    fab
    { mx := { queue := [{ id := 1, kind := 1, op := 0x302, a := 0x1000000000000000100000000, mod := 0, flags := 0, ty := 0, win := 3, desc := ⟨0, 0⟩, set := 0, rect := (0, 0, 1, 1), landed := [⟨0, 0, {}, 0⟩] }] } }
    {}, ⟨by decide +kernel, by decide +kernel, by decide +kernel, by decide +kernel⟩⟩⟩

theorem witness_MatrixResults :
  (∃ c m i rows rest, MetF (fun f => (f.core c).mx.queue.find? (fun m => m.kind = 0) = some m ∧ m.arr = (i, rows) :: rest ∧ (f.core
    c).dbg.frozen = false ∧ m.injected (f.core c).dbg.finj = none)) :=
  ⟨0, _, 0, [], [], fab
    { mx := { queue := [{ id := 1, kind := 0, op := 0x302, a := 1, mod := 0, flags := 0, ty := 0, win := 3, desc := ⟨0, 0⟩, set := 0, rect := (0, 0, 1, 1), arr := [(0, [])] }] } }
    {}, ⟨rfl, rfl, by decide +kernel, by decide +kernel⟩⟩

theorem witness_NetworkAnswers :
  (∃ c conn m, MetF (fun f => (f.core c).eng.net.find? (fun m => m.sends && m.conn = conn && m.acked < m.sent) = some m ∧ (f.core
    c).dbg.frozen = false)) ∧
  (∃ c conn m, MetF (fun f => (f.core c).netGetter conn = some m ∧ (f.core c).dbg.frozen = false ∧ (f.region (f.core
    c).regionId).rowsBack = [])) ∧
  (∃ c conn scope m, MetF (fun f => (f.core c).eng.net.find? (fun m => m.awaits conn) = some m ∧ (f.core c).dbg.frozen = false ∧
    m.sends = true ∧ (scope = true → m.op = 0x35A))) ∧
  (∃ c conn m, MetF (fun f => (f.core c).eng.net.find? (fun m => m.awaits conn) = some m ∧ (f.core c).dbg.frozen = false ∧ m.sends =
    false)) :=
  ⟨⟨0, 0, { id := 1, op := 0x358, total := 1, ty := 15, flags := 0, win := 3, desc := ⟨0, 0⟩, a := 0, b := 0, sent := 1 }, fab
    { eng := { net := [{ id := 1, op := 0x358, total := 1, ty := 15, flags := 0, win := 3, desc := ⟨0, 0⟩, a := 0, b := 0, sent := 1 }] } }
    {}, ⟨by decide +kernel, by decide +kernel⟩⟩,
   ⟨0, 0, { id := 1, op := 0x359, total := 1, ty := 15, flags := 0, win := 3, desc := ⟨0, 0⟩, a := 0, b := 0, running := true }, fab
    { plane := { wins := [(3, ⟨0, 4, 0, 0, none⟩)] }, eng := { net := [{ id := 1, op := 0x359, total := 1, ty := 15, flags := 0, win := 3, desc := ⟨0, 0⟩, a := 0, b := 0, running := true }] } }
    {}, ⟨by decide +kernel, by decide +kernel, by decide +kernel⟩⟩,
   ⟨0, 0, true, { id := 1, op := 0x35A, total := 1, ty := 15, flags := 0, win := 3, desc := ⟨0, 0⟩, a := 0, b := 0, sent := 1 }, fab
    { eng := { net := [{ id := 1, op := 0x35A, total := 1, ty := 15, flags := 0, win := 3, desc := ⟨0, 0⟩, a := 0, b := 0, sent := 1 }] } }
    {}, ⟨by decide +kernel, by decide +kernel, by decide +kernel, by decide +kernel⟩⟩,
   ⟨0, 0, { id := 1, op := 0x359, total := 1, ty := 15, flags := 0, win := 3, desc := ⟨0, 0⟩, a := 0, b := 0, running := true }, fab
    { eng := { net := [{ id := 1, op := 0x359, total := 1, ty := 15, flags := 0, win := 3, desc := ⟨0, 0⟩, a := 0, b := 0, running := true }] } }
    {}, ⟨by decide +kernel, by decide +kernel, by decide +kernel⟩⟩⟩

theorem witness_SlicesServe :
  (∃ (s : State) (id lane : Nat) (r : Req) (l : ReqLane) (pa cls : Nat), Served s.fab id lane r l pa cls ∧ r.kind ≠ .eager ∧ cls ≠ 2 ∧
    (s.fab.region (s.fab.core r.who.core).regionId).redo = []) ∧
  (∃ (s : State) (id lane : Nat) (r : Req) (l : ReqLane) (pa cls : Nat), Served s.fab id lane r l pa cls ∧ r.kind = .eager ∧ (∃ rest,
    r.unsent = l :: rest) ∧ (∀ x ∈ r.lanes, x.pa.isSome = true ∨ x.bad = true) ∧ (s.fab.region (s.fab.core r.who.core).regionId).redo =
    [] ∧ s.fab.readersOf (lineOf pa) = []) :=
  ⟨⟨⟨{},
    { units := { reqs := [{ id := 1, who := A, exec := 0, slot := 0, op := 0x1C0, ty := 15, kind := .load, lanes := [{ idx := 0, va := 0, n := 8, pa := some (0x50000, 0) }] }], mesh := { home := [{ what := .ask 1 0 }] } } },
    {}⟩, 1, 0,
    { id := 1, who := A, exec := 0, slot := 0, op := 0x1C0, ty := 15, kind := .load, lanes := [{ idx := 0, va := 0, n := 8, pa := some (0x50000, 0) }] },
    { idx := 0, va := 0, n := 8, pa := some (0x50000, 0) }, 0x50000, 0, ⟨by decide +kernel, by decide +kernel, by decide +kernel, by
    decide +kernel, by decide +kernel, by decide +kernel⟩, by decide +kernel, by decide +kernel, by decide +kernel⟩,
   ⟨⟨{},
    { units := { reqs := [{ id := 1, who := A, exec := 0, slot := 0, op := 0x1C0, ty := 15, kind := .eager, lanes := [{ idx := 0, va := 0, n := 8, pa := some (0x50000, 0) }] }], mesh := { home := [{ what := .ask 1 0 }] } } },
    {}⟩, 1, 0,
    { id := 1, who := A, exec := 0, slot := 0, op := 0x1C0, ty := 15, kind := .eager, lanes := [{ idx := 0, va := 0, n := 8, pa := some (0x50000, 0) }] },
    { idx := 0, va := 0, n := 8, pa := some (0x50000, 0) }, 0x50000, 0, ⟨by decide +kernel, by decide +kernel, by decide +kernel, by
    decide +kernel, by decide +kernel, by decide +kernel⟩, rfl, ⟨[], by decide +kernel⟩, by decide +kernel, by decide +kernel, by
    decide +kernel⟩⟩

theorem witness_UnitsPerform :
  (∃ (s : State) (id line : Nat) (u : StoreUnit), s.fab.units.stores.find? (fun u => u.id = id) = some u ∧ line ∈ laneLines u.lanes ∧
    line ∉ u.arrived ∧ s.fab.behindPart u.core id [line] = false ∧ (∀ r ∈ s.fab.units.reqs, r.who.core = u.core → r.id < id → ∀ l ∈
    r.unsent, match l.pa with | some p => lineOf p.1 ≠ line | none => ∀ m ∈ u.lanes, lineOf m.pa = line → m.va / 64 ≠ l.va / 64) ∧
    s.fab.units.here (.part id line) = true ∧ (u.sent = true ∨ ∃ l ∈ laneLines u.lanes, l ∉ u.arrived ∧ l ≠ line)) ∧
  (∃ (s : State) (id : Nat) (u : StoreUnit), s.fab.units.stores.find? (fun u => u.id = id) = some u ∧ u.performed = false ∧
    s.fab.holdsAll u = true ∧ (s.fab.region u.region).redo = []) :=
  ⟨⟨⟨{},
    { units := { stores := [{ id := 1, cycle := 0, core := 0, pe := 0, whos := [], region := 0, lanes := [{ va := 0, pa := 0, n := 8, data := 0x1122334455667788 }], sent := true }], mesh := { home := [{ what := .part 1 0 }] } } },
    {}⟩, 1, 0,
    { id := 1, cycle := 0, core := 0, pe := 0, whos := [], region := 0, lanes := [{ va := 0, pa := 0, n := 8, data := 0x1122334455667788 }], sent := true },
    by decide +kernel, by decide +kernel, by decide +kernel, by decide +kernel, fun _ h => absurd h List.not_mem_nil, by decide +kernel,
    .inl rfl⟩,
   ⟨⟨{},
    { units := { stores := [{ id := 1, cycle := 0, core := 0, pe := 0, whos := [], region := 0, lanes := [{ va := 0, pa := 0, n := 8, data := 0x1122334455667788 }], arrived := [0] }] } },
    {}⟩, 1,
    { id := 1, cycle := 0, core := 0, pe := 0, whos := [], region := 0, lanes := [{ va := 0, pa := 0, n := 8, data := 0x1122334455667788 }], arrived := [0] },
    by decide +kernel, by decide +kernel, by decide +kernel, by decide +kernel⟩⟩

theorem witness_FiringBegins :
  ∃ (f : Fabric) (c a : Nat) (g : ActorCfg), sfind (f.core c).plane.actors a = some g :=
  ⟨fab { plane := { actors := [(0, ⟨0, 0, none, false⟩)] } } {}, 0, 0, ⟨0, 0, none, false⟩, by decide +kernel⟩

theorem witness_SequencerBlocksComplete :
  (∃ (s : State) (c : Nat) (e : Exec) (g : Group) (b : Block) (next : Option Nat) (m : Memory) (f : Fabric), Ends s.fab c e g b ∧
    (ended s.fab c e).branch s.mem c g.blocks e = .ok (next, m, f) ∧ e.soft = none) ∧
  (∃ (s : State) (c : Nat) (e : Exec) (g : Group) (b : Block) (next : Option Nat) (m : Memory) (f : Fabric) (slot code : Nat) (i :
    Instr), Ends s.fab c e g b ∧ (ended s.fab c e).branch s.mem c g.blocks e = .ok (next, m, f) ∧ e.soft = some (slot, code) ∧ b.instrAt
    slot = some i) ∧
  (∃ (s : State) (c : Nat) (e : Exec) (g : Group) (b : Block) (code addr : Nat), Ends s.fab c e g b ∧ (ended s.fab c e).branch s.mem c
    g.blocks e = .error (code, addr) ∧ code < 0x30) ∧
  (∃ (s : State) (c : Nat) (e : Exec) (g : Group) (b : Block) (code addr : Nat), Ends s.fab c e g b ∧ (ended s.fab c e).branch s.mem c
    g.blocks e = .error (code, addr) ∧ 0x30 ≤ code) ∧
  (∃ c b, MetF (fun f => (f.core c).seq.phase = .boundary (some b) ∧ (f.core c).hasTrap = false ∧ (f.core c).dbg.frozen = false)) ∧
  (∃ c, MetF (fun f => (f.core c).seq.phase = .boundary none ∧ (f.core c).seq.pending = [] ∧ (f.core c).dbg.frozen = false)) ∧
  (∃ c e g b, MetF (fun f => (f.core c).bindExec = some e ∧ (f.core c).incoming = some g ∧ g.blocks[e.block]? = some b ∧ outputsDone b
    e = true)) :=
  ⟨⟨⟨{}, fab
    { group := some (groupWith [⟨headerOf 0 (encode (.halt ⟨0, 15, 6, 6, 0, 0, 0, 0⟩)), encode (.halt ⟨0, 15, 6, 6, 0, 0, 0, 0⟩)⟩]), seq := { phase := .run, exec := some { choice := some .halt, done := [0] } } }
    {}, {}⟩, 0, { choice := some .halt, done := [0] }, _, ⟨headerOf 0 (encode (.halt ⟨0, 15, 6, 6, 0, 0, 0, 0⟩)), encode (.halt ⟨0, 15,
    6, 6, 0, 0, 0, 0⟩)⟩, none, _, _, ⟨⟨rfl, by decide +kernel⟩, rfl, rfl, by decide +kernel⟩, rfl, rfl⟩,
   ⟨⟨{}, fab
    { group := some (groupWith [⟨headerOf 0 (encode (.trap ⟨0, 15, 6, 6, 0, 0, 0, 0⟩)), encode (.trap ⟨0, 15, 6, 6, 0, 0, 0, 0⟩)⟩]), seq := { phase := .run, exec := some { choice := some .halt, done := [0], soft := some (0, 5) } } }
    {}, {}⟩, 0, { choice := some .halt, done := [0], soft := some (0, 5) }, _, ⟨headerOf 0 (encode (.trap ⟨0, 15, 6, 6, 0, 0, 0, 0⟩)),
    encode (.trap ⟨0, 15, 6, 6, 0, 0, 0, 0⟩)⟩, none, _, _, 0, 5, (.trap ⟨0, 15, 6, 6, 0, 0, 0, 0⟩), ⟨⟨rfl, by decide +kernel⟩, rfl, rfl,
    by decide +kernel⟩, rfl, rfl, by decide +kernel⟩,
   ⟨⟨{}, fab
    { group := some (groupWith [⟨headerOf 0 (encode (.halt ⟨0, 15, 6, 6, 0, 0, 0, 0⟩)), encode (.halt ⟨0, 15, 6, 6, 0, 0, 0, 0⟩)⟩]), seq := { phase := .run, exec := some { choice := some .null, done := [0] } } }
    {}, {}⟩, 0, { choice := some .null, done := [0] }, _, ⟨headerOf 0 (encode (.halt ⟨0, 15, 6, 6, 0, 0, 0, 0⟩)), encode (.halt ⟨0, 15,
    6, 6, 0, 0, 0, 0⟩)⟩, 4, 0, ⟨⟨rfl, by decide +kernel⟩, rfl, rfl, by decide +kernel⟩, rfl, by decide⟩,
   ⟨⟨{}, fab
    { group := some (groupWith [⟨headerOf 0 (encode (.halt ⟨0, 15, 6, 6, 0, 0, 0, 0⟩)), encode (.halt ⟨0, 15, 6, 6, 0, 0, 0, 0⟩)⟩]), seq := { phase := .run, exec := some { choice := some .ret, done := [0] }, ovf := 1 } }
    {}, {}⟩, 0, { choice := some .ret, done := [0] }, _, ⟨headerOf 0 (encode (.halt ⟨0, 15, 6, 6, 0, 0, 0, 0⟩)), encode (.halt ⟨0, 15,
    6, 6, 0, 0, 0, 0⟩)⟩, 0x30, 0, ⟨⟨rfl, by decide +kernel⟩, rfl, rfl, by decide +kernel⟩, rfl, by decide⟩,
   ⟨0, 1, fab { seq := { phase := .boundary (some 1) } } {}, ⟨rfl, by decide +kernel, by decide +kernel⟩⟩,
   ⟨0, fab { seq := { phase := .boundary none } } {}, ⟨rfl, by decide +kernel, by decide +kernel⟩⟩,
   ⟨0, { choice := some .halt, done := [0] }, _, ⟨headerOf 0 (encode (.halt ⟨0, 15, 6, 6, 0, 0, 0, 0⟩)), encode (.halt ⟨0, 15, 6, 6, 0,
    0, 0, 0⟩)⟩, fab
    { bindExec := some { choice := some .halt, done := [0] }, incoming := some (groupWith [⟨headerOf 0 (encode (.halt ⟨0, 15, 6, 6, 0, 0, 0, 0⟩)), encode (.halt ⟨0, 15, 6, 6, 0, 0, 0, 0⟩)⟩]) }
    {}, ⟨rfl, rfl, rfl, by decide +kernel⟩⟩⟩

theorem witness_TrapsDeliverPart :
  (∃ (s : State), ∃ c t rest ret h, Delivers s.fab c t rest ret ∧ (s.fab.core c).handles = true ∧ (s.fab.core c).handler = some h ∧
    (s.fab.core c).seq.stack.length < 32 ∧ t.dead = []) ∧
  (∃ (s : State), ∃ c t rest ret, Delivers s.fab c t rest ret ∧ (s.fab.core c).handles = false) ∧
  (∃ (s : State), ∃ c t rest ret, Delivers s.fab c t rest ret ∧ (s.fab.core c).handles = true ∧ (s.fab.core c).handler = none) :=
  ⟨⟨⟨{}, fab
    { group := some (groupWith [⟨headerOf 0 (encode (.halt ⟨0, 15, 6, 6, 0, 0, 0, 0⟩)), encode (.halt ⟨0, 15, 6, 6, 0, 0, 0, 0⟩)⟩]), seq := { phase := .boundary (some 0), pending := [{ code := 0x30, async := false, addr := 0, pe := 0, src := .soft }], ctl := [(0x020, 0x8000)] } }
    {}, {}⟩, 0, { code := 0x30, async := false, addr := 0, pe := 0, src := .soft }, [], some 0, 0, ⟨rfl, rfl, rfl, by decide +kernel⟩,
    by decide +kernel, by decide +kernel, by decide +kernel, by decide +kernel⟩,
   ⟨⟨{}, fab
    { group := some (groupWith [⟨headerOf 0 (encode (.halt ⟨0, 15, 6, 6, 0, 0, 0, 0⟩)), encode (.halt ⟨0, 15, 6, 6, 0, 0, 0, 0⟩)⟩]), seq := { phase := .boundary (some 0), pending := [{ code := 0x30, async := false, addr := 0, pe := 0, src := .soft }], ctl := [(0x020, 0)] } }
    {}, {}⟩, 0, { code := 0x30, async := false, addr := 0, pe := 0, src := .soft }, [], some 0, ⟨rfl, rfl, rfl, by decide +kernel⟩, by
    decide +kernel⟩,
   ⟨⟨{}, fab
    { group := some (groupWith [⟨headerOf 0 (encode (.halt ⟨0, 15, 6, 6, 0, 0, 0, 0⟩)), encode (.halt ⟨0, 15, 6, 6, 0, 0, 0, 0⟩)⟩]), seq := { phase := .boundary (some 0), pending := [{ code := 0x30, async := false, addr := 0, pe := 0, src := .soft }], ctl := [(0x020, 0x8001)] } }
    {}, {}⟩, 0, { code := 0x30, async := false, addr := 0, pe := 0, src := .soft }, [], some 0, ⟨rfl, rfl, rfl, by decide +kernel⟩, by
    decide +kernel, by decide +kernel⟩⟩

theorem witness_TrapRegisters :
  ∃ slot code : Nat, slot < 128 ∧ 0x10 ≤ code ∧ code < 0x70 ∧ code ≠ 0x11 :=
  ⟨127, 0x6F, by decide⟩

theorem witness_EngineCommandsStart :
  (∃ (s : State) (c : Nat) (e : Exec) (slot : Nat) (i : Instr), (s.fab.core c).exec (.seq c) = some e ∧ (s.fab.core c).dbg.frozen =
    false ∧ leastOf (e.waits.filterMap fun w => if w.2 = .queue then some w.1 else none) = some slot ∧ ((s.fab.core c).blockOf (.seq c)
    e).bind (fun b => b.instrAt slot) = some i) ∧
  (∃ c i q r, MetF (fun f => ((f.core c).gen i).cur = none ∧ ((f.core c).gen i).queue = q :: r ∧ (f.core c).dbg.frozen = false ∧
    (f.core c).strwLets q.order = true ∧ q.total ≠ some 0)) ∧
  (∃ c m, MetF (fun f => (f.core c).eng.net.find? (fun m => !m.running) = some m ∧ (f.core c).dbg.frozen = false ∧ (f.core c).saving =
    false ∧ (f.core c).cutDone = false ∧ m.op ≠ 0x359)) :=
  ⟨⟨stateWith {} {} {} S (.mxldw ⟨0, 15, 0, 0, 0, 0, 0, 1, 0, 0⟩) { waits := [(0, .queue)] }, 0, { waits := [(0, .queue)] }, 0, (.mxldw
    ⟨0, 15, 0, 0, 0, 0, 0, 1, 0, 0⟩), rfl, by decide +kernel, by decide +kernel, by decide +kernel⟩,
   ⟨0, 0, _, [], fab
    { eng := { gens := [(0, { queue := [{ op := 0x342, desc := ⟨0, 0⟩, win := 3, flags := 0, a := ofVals 32 [0, 1, 5, 1], b := 0, order := 1, passes := 1 }] })] } }
    {}, ⟨by decide +kernel, rfl, by decide +kernel, by decide +kernel, by decide +kernel⟩⟩,
   ⟨0, _, fab
    { eng := { net := [{ id := 1, op := 0x358, total := 1, ty := 15, flags := 0, win := 3, desc := ⟨0, 0⟩, a := 0, b := 0 }] } } {},
    ⟨rfl, by decide +kernel, by decide +kernel, by decide +kernel, by decide +kernel⟩⟩⟩

theorem witness_EngineCommandsComplete :
  (∃ c i q, MetF (fun f => RunsGen f c i q ∧ ((f.core c).gen i).done q = true)) ∧
  (∃ c m, MetF (fun f => (f.core c).eng.net.find? (f.netDone (f.core c).contextId) = some m ∧ (f.core c).dbg.frozen = false ∧ m.op ≠
    0x360)) ∧
  (∃ (s : State), ∃ c m, (s.fab.core c).eng.net.find? (s.fab.netDone (s.fab.core c).contextId) = some m ∧ (s.fab.core c).dbg.frozen =
    false ∧ m.op = 0x360) ∧
  (∃ c id m, MetF (fun f => (f.core c).eng.images.find? (fun x => x.id = id) = some m ∧ (f.core c).dbg.frozen = false ∧ m.total ≤
    m.pos ∧ m.strike = none ∧ m.failed = false ∧ m.save = true)) ∧
  (∃ c id m, MetF (fun f => (f.core c).eng.images.find? (fun x => x.id = id) = some m ∧ (f.core c).dbg.frozen = false ∧ m.total ≤
    m.pos ∧ m.strike = none ∧ m.failed = false ∧ m.save = false ∧ crc32c (m.rows.tail.flatMap fun t => toBytes 64 t.bits) = rowBits
    (m.rows.getD 0 {}).bits 223 192)) ∧
  (∃ c id m, MetF (fun f => (f.core c).eng.images.find? (fun x => x.id = id) = some m ∧ (f.core c).dbg.frozen = false ∧ m.strike =
    none ∧ (m.failed = true ∨ m.total ≤ m.pos ∧ m.save = false ∧ crc32c (m.rows.tail.flatMap fun t => toBytes 64 t.bits) ≠ rowBits
    (m.rows.getD 0 {}).bits 223 192))) ∧
  (∃ c m, MetF (fun f => activeLoad [] (f.core c).mx.queue = some m ∧ m.recCount ≤ m.written ∧ m.strike = none ∧ (f.core c).dbg.frozen
    = false)) :=
  ⟨⟨0, 0, _, fab
    { eng := { gens := [(0, { cur := some { op := 0x342, desc := ⟨0, 0⟩, win := 3, flags := 0, a := ofVals 32 [0, 1, 5, 1], b := 0, order := 1, passes := 1 }, row := 1 })] } }
    {}, ⟨⟨rfl, by decide +kernel⟩, by decide +kernel⟩⟩,
   ⟨0, _, fab
    { eng := { net := [{ id := 1, op := 0x358, total := 1, ty := 15, flags := 0, win := 3, desc := ⟨0, 0⟩, a := 0, b := 0, sent := 1, acked := 1 }] } }
    {}, ⟨rfl, by decide +kernel, by decide +kernel⟩⟩,
   ⟨⟨{}, fab
    { eng := { net := [{ id := 1, op := 0x360, total := 1, ty := 15, flags := 0, win := 3, desc := ⟨0, 0⟩, a := 0, b := 0, running := true }] } }
    {}, {}⟩, 0, _, rfl, by decide +kernel, by decide +kernel⟩,
   ⟨0, 1, _, fab { eng := { images := [{ id := 1, save := true, win := 3, va := 0, rows := [], total := 0 }] } } {}, ⟨rfl, by
    decide +kernel, by decide +kernel, by decide +kernel, by decide +kernel⟩⟩,
   ⟨0, 1, _, fab { eng := { images := [{ id := 1, save := false, win := 3, va := 0, rows := [], total := 0 }] } } {}, ⟨rfl, by
    decide +kernel, by decide +kernel, by decide +kernel, by decide +kernel, by decide +kernel⟩⟩,
   ⟨0, 1, _, fab { eng := { images := [{ id := 1, save := false, win := 3, va := 0, rows := [⟨1 <<< 192, false⟩], total := 0 }] } } {},
    ⟨rfl, by decide +kernel, by decide +kernel, .inr ⟨by decide +kernel, by decide +kernel, by decide +kernel⟩⟩⟩,
   ⟨0, _, fab
    { mx := { queue := [{ id := 1, kind := 1, op := 0x302, a := 0, mod := 0, flags := 0, ty := 0, win := 3, desc := ⟨0, 0⟩, set := 0, rect := (0, 0, 1, 1) }] } }
    {}, ⟨rfl, by decide +kernel, by decide +kernel, by decide +kernel⟩⟩⟩

theorem witness_StrikesReport :
  (∃ c i, MetF (fun f => (f.core c).dbg.frozen = false ∧ 0 < ((f.core c).gen i).unreported)) ∧
  (∃ c x, MetF (fun f => (f.core c).dbg.frozen = false ∧ leastStrike ((f.cores.flatMap fun q => q.2.finals q.1).filter fun x =>
    x.strike.wcore = c) = some x ∧ x.strike.others = [])) ∧
  (∃ c x, MetF (fun f => (f.core c).dbg.frozen = false ∧ leastStrike ((f.cores.flatMap fun q => q.2.finals q.1).filter fun x =>
    x.strike.wcore = c) = none ∧ (f.core c).dbg.remote = [x] ∧ (3 ≤ x.strike.skid ∨ x.cycle + 3 < f.units.cycle))) :=
  ⟨⟨0, 0, fab { eng := { gens := [(0, { unreported := 1 })] } } {}, by decide +kernel⟩,
   ⟨0, _, fab
    { eng := { images := [{ id := 1, save := true, win := 3, va := 0, rows := [], total := 0, strike := some { wp := 0, wcore := 0, addr := 0, skid := 0, kind := 0, ahead := 0, stopped := true, others := [] } }] } }
    {}, ⟨by decide +kernel, rfl, by decide +kernel⟩⟩,
   ⟨0, _, fab
    { dbg := { remote := [{ ctx := 1, conn := 0, req := 0, slice := 0, strike := { wp := 0, wcore := 0, addr := 0, skid := 0, kind := 0, ahead := 0, stopped := true, others := [] } }] } }
    { cycle := 4 }, ⟨by decide +kernel, by decide +kernel, rfl, .inr (by decide +kernel)⟩⟩⟩

theorem witness_BarrierArrival :
    (∃ (k : Core) (b : Nat), (k.bar b).arrived + 1 < sget 1 k.plane.bars b) ∧
    (∃ (k : Core) (b : Nat), sget 1 k.plane.bars b ≤ (k.bar b).arrived + 1) ∧ ∃ b c : Nat, c ≠ b :=
  ⟨⟨{ plane := { bars := [(31, 2)] } }, 31, by decide⟩, ⟨{}, 31, by decide⟩, 0, 31, by decide⟩

theorem witness_ControlWrite :
    (∃ t : Tok, t.ember = true) ∧ (∃ (num : Nat) (t : Tok), t.ember = false ∧ num = 0x030) ∧
    (∃ (num : Nat) (t : Tok), t.ember = false ∧ num = 0x034) ∧
    (∃ (num : Nat) (t : Tok), t.ember = false ∧ 0x020 ≤ num ∧ (num ≤ 0x027 ∨ num = 0x037)) ∧
    ∃ num : Nat, num ≠ 0x030 ∧ num ≠ 0x034 ∧ (num < 0x020 ∨ 0x027 < num) ∧ num ≠ 0x037 :=
  ⟨⟨⟨0, true⟩, rfl⟩, ⟨0x030, ⟨0, false⟩, rfl, rfl⟩, ⟨0x034, ⟨0, false⟩, rfl, rfl⟩, ⟨0x027, ⟨0, false⟩, by decide⟩, 0x028, by decide⟩

/-- A block of each kind. -/
abbrev kindBlock (n : Nat) : Block := ⟨headerOf n [], []⟩

theorem witness_BranchTargets :
    (∃ (bs : List Block) (e : Exec) (x : Nat) (b : Block), e.choice = some (.goto x) ∧ x < 1024 ∧ bs[x]? = some b ∧ b.kind = 0) ∧
    (∃ (bs : List Block) (e : Exec) (x : Nat), (e.choice = some (.goto x) ∨ e.choice = some (.call x)) ∧
      (1023 < x ∨ bs.length ≤ x)) ∧
    (∃ (bs : List Block) (e : Exec) (x : Nat) (b : Block), e.choice = some (.goto x) ∧ x < 1024 ∧ bs[x]? = some b ∧
      (b.kind = 1 ∨ b.kind = 2)) ∧
    (∃ (bs : List Block) (e : Exec) (x : Nat) (b : Block), e.choice = some (.call x) ∧ x < 1024 ∧ bs[x]? = some b ∧ b.kind = 1) ∧
    (∃ (f : Fabric) (c : Nat) (bs : List Block) (e : Exec) (x : Nat) (b : Block), e.choice = some (.call x) ∧ x < 1024 ∧
      bs[x]? = some b ∧ (b.kind = 0 ∨ b.kind = 2) ∧ (f.core c).seq.stack.length < 32) ∧
    (∃ (f : Fabric) (c : Nat) (bs : List Block) (e : Exec) (x : Nat) (r : List Entry) (b : Block),
      (e.choice = some .ret ∨ e.choice = none) ∧ (f.core c).seq.stack = ⟨false, some x⟩ :: r ∧ x < 1024 ∧ bs[x]? = some b ∧
      b.kind = 0) ∧
    (∃ (f : Fabric) (c : Nat) (e : Exec) (x : Option Nat) (r : List Entry), (e.choice = some .ret ∨ e.choice = none) ∧
      (f.core c).seq.stack = ⟨true, x⟩ :: r) ∧
    (∃ (f : Fabric) (c : Nat) (e : Exec), (e.choice = some .ret ∨ e.choice = none) ∧ (f.core c).seq.stack = [] ∧
      (f.core c).seq.ovf = 0 ∧ (f.core c).seq.spilled = []) ∧
    (∃ (f : Fabric) (c : Nat) (e : Exec) (y x : Option Nat) (r : List Entry), e.choice = some (.rft y) ∧
      (f.core c).seq.stack = ⟨false, x⟩ :: r) ∧
    (∃ (f : Fabric) (c : Nat) (e : Exec) (y x : Option Nat) (r : List Entry) (t : Trap), e.choice = some (.rft y) ∧
      y = none ∧ (f.core c).seq.stack = ⟨true, x⟩ :: r ∧ (f.core c).seq.serving = some t) ∧
    (∃ e : Exec, e.choice = some .null) ∧ ∃ e : Exec, e.choice = some .halt :=
  ⟨⟨[kindBlock 0], { choice := some (.goto 0) }, 0, kindBlock 0, rfl, by decide, rfl, by decide +kernel⟩,
   ⟨[], { choice := some (.call 1024) }, 1024, .inr rfl, .inl (by decide)⟩,
   ⟨[kindBlock 2], { choice := some (.goto 0) }, 0, kindBlock 2, rfl, by decide, rfl, by decide +kernel⟩,
   ⟨[kindBlock 1], { choice := some (.call 0) }, 0, kindBlock 1, rfl, by decide, rfl, by decide +kernel⟩,
   ⟨{}, 0, [kindBlock 2], { choice := some (.call 0) }, 0, kindBlock 2, rfl, by decide, rfl, by decide +kernel, by decide +kernel⟩,
   ⟨fab { seq := { stack := [⟨false, some 0⟩] } } {}, 0, [kindBlock 0], {}, 0, [], kindBlock 0, .inr rfl, rfl, by decide, rfl,
    by decide +kernel⟩,
   ⟨fab { seq := { stack := [⟨true, none⟩] } } {}, 0, {}, none, [], .inr rfl, rfl⟩,
   ⟨{}, 0, {}, .inr rfl, by decide +kernel⟩,
   ⟨fab { seq := { stack := [⟨false, none⟩] } } {}, 0, { choice := some (.rft none) }, none, none, [], rfl, rfl⟩,
   ⟨fab { seq := { stack := [⟨true, none⟩], serving := some { code := 0x30 } } } {}, 0, { choice := some (.rft none) }, none, none,
    [], { code := 0x30 }, rfl, rfl, rfl, rfl⟩,
   ⟨{ choice := some .null }, rfl⟩, { choice := some .halt }, rfl⟩

theorem witness_BlockWrites :
    ∃ (e : Exec) (n : Nat) (v : Row) (slot : Nat), e.effects = [(slot, .greg n ⟨v, false⟩)] ∧ n % 64 ≠ 0 :=
  ⟨{ effects := [(0, .greg 63 ⟨1, false⟩)] }, 63, 1, 0, rfl, by decide⟩

theorem witness_PageMovesComplete :
  (∃ ctx page t r, MetM (fun m f => f.moves ctx page = t :: r ∧ t.inward = true ∧ f.moveRuns ctx 0x351 page = true ∧ f.units.failedAt
    (t.peatAt m) = false)) ∧
  (∃ ctx page t r, MetM (fun m f => f.moves ctx page = t :: r ∧ t.inward = false ∧ f.moveRuns ctx 0x352 page = true ∧ f.units.failedAt
    (t.peatAt m) = false)) :=
  ⟨⟨1, 0, _, _, pages inTier, (fab
    { group := some (groupWith []), eng := { net := [{ id := 1, op := 0x351, total := 0, ty := 15, flags := 0, win := 0, desc := ⟨0, 0⟩, a := 0, b := 0, running := true }] } }
    { transits := [⟨true, 1, 0, 65536, 0x30000, 0x70000, 1⟩], expanders := [16] }), ⟨rfl, by decide +kernel, by decide +kernel, by
    decide +kernel⟩⟩,
   ⟨1, 0, _, _, pages inHearth, (fab
    { group := some (groupWith []), eng := { net := [{ id := 1, op := 0x352, total := 0, ty := 15, flags := 0, win := 0, desc := ⟨0, 0⟩, a := 0, b := 0, running := true }] } }
    { transits := [⟨false, 1, 0, 65536, 0x30000, 0x70000, 1⟩], expanders := [16] }), ⟨rfl, by decide +kernel, by decide +kernel, by
    decide +kernel⟩⟩⟩

theorem witness_WalksComplete :
  (∃ id r e i l t, MetM (fun m f => let k := f.core r.who.core; f.req id = some r ∧ f.issuer r = some e ∧ ((k.blockOf r.who e).bind
    fun b => b.instrAt r.slot) = some i ∧ r.lanes.find? (fun l => l.pa.isNone && !l.bad) = some l ∧ k.dbg.frozen = false ∧ r.slot ∈
    e.inflight ∧ l.early = none ∧ k.cached k.contextId l.va = none ∧ f.walkStarted (dieOf r.who.core) (.req id) = true ∧ translate m
    (f.context k.contextId) k.contextId l.va = .ok t)) ∧
  (∃ id r e i l code, MetM (fun m f => let k := f.core r.who.core; f.req id = some r ∧ f.issuer r = some e ∧ ((k.blockOf r.who e).bind
    fun b => b.instrAt r.slot) = some i ∧ r.lanes.find? (fun l => l.pa.isNone && !l.bad) = some l ∧ k.dbg.frozen = false ∧ r.slot ∈
    e.inflight ∧ l.early = none ∧ k.cached k.contextId l.va = none ∧ f.walkStarted (dieOf r.who.core) (.req id) = true ∧ translate m
    (f.context k.contextId) k.contextId l.va = .error code)) ∧
  (∃ id r e i l, MetF (fun f => let k := f.core r.who.core; f.req id = some r ∧ f.issuer r = some e ∧ ((k.blockOf r.who e).bind fun b
    => b.instrAt r.slot) = some i ∧ r.lanes.find? (fun l => l.pa.isNone && !l.bad) = some l ∧ l.early = none ∧ k.cached k.contextId l.va
    = none ∧ f.walkStarted (dieOf r.who.core) (.req id) = false)) ∧
  (∃ c i q va t, MetM (fun m f => let k := f.core c; let y := k.gen i; y.cur = some q ∧ k.nextLine { y with entry := none } q = some
    va ∧ k.genRuns y = true ∧ y.entry.any (fun t => t.covers k.contextId va) = false ∧ (f.askWalk (dieOf c) (.gen c i)).walkStarted
    (dieOf c) (.gen c i) = true ∧ translate (f.flushAll m y.entry.toList) (f.context k.contextId) k.contextId va = .ok t)) ∧
  (∃ c i q va, MetF (fun f => let k := f.core c; let y := k.gen i; y.cur = some q ∧ k.nextLine { y with entry := none } q = some va ∧
    k.genRuns y = true ∧ y.entry.any (fun t => t.covers k.contextId va) = false ∧ (f.askWalk (dieOf c) (.gen c i)).walkStarted (dieOf c)
    (.gen c i) = false)) ∧
  (∃ c i q va code, MetM (fun m f => let k := f.core c; let y := k.gen i; y.cur = some q ∧ k.nextLine { y with entry := none } q =
    some va ∧ k.genRuns y = true ∧ y.entry.any (fun t => t.covers k.contextId va) = false ∧ (f.askWalk (dieOf c) (.gen c i)).walkStarted
    (dieOf c) (.gen c i) = true ∧ translate (f.flushAll m y.entry.toList) (f.context k.contextId) k.contextId va = .error code)) :=
  ⟨⟨1, _, _, (.ld ⟨0, 15, 0, 0, 8, 0, 0, 0, 0⟩), _, ⟨1, 0, 65536, 0x50000, 0x30000, 0x3, 0, 0, 0⟩, pages inHearth, (fab (coreWith {}
    (.ld ⟨0, 15, 0, 0, 8, 0, 0, 0, 0⟩) { inflight := [0] })
    { reqs := [{ id := 1, who := A, exec := 0, slot := 0, op := 0x1C0, ty := 15, kind := .load, lanes := [{ idx := 0, va := 0, n := 64 }] }], walks := [(0, [.req 1])] }),
    ⟨rfl, rfl, by decide +kernel, rfl, by decide +kernel, by decide +kernel, by decide +kernel, by decide +kernel, by decide +kernel, by
    decide +kernel⟩⟩,
   ⟨1, _, _, (.ld ⟨0, 15, 0, 0, 8, 0, 0, 0, 0⟩), _, 0x30, {}, (fab (coreWith {} (.ld ⟨0, 15, 0, 0, 8, 0, 0, 0, 0⟩) { inflight := [0] })
    { reqs := [{ id := 1, who := A, exec := 0, slot := 0, op := 0x1C0, ty := 15, kind := .load, lanes := [{ idx := 0, va := 0, n := 64 }] }], walks := [(0, [.req 1])] }),
    ⟨rfl, rfl, by decide +kernel, rfl, by decide +kernel, by decide +kernel, by decide +kernel, by decide +kernel, by decide +kernel, by
    decide +kernel⟩⟩,
   ⟨1, _, _, (.ld ⟨0, 15, 0, 0, 8, 0, 0, 0, 0⟩), _, fab (coreWith {} (.ld ⟨0, 15, 0, 0, 8, 0, 0, 0, 0⟩) { inflight := [0] })
    { reqs := [{ id := 1, who := A, exec := 0, slot := 0, op := 0x1C0, ty := 15, kind := .load, lanes := [{ idx := 0, va := 0, n := 64 }] }] },
    ⟨rfl, rfl, by decide +kernel, rfl, by decide +kernel, by decide +kernel, by decide +kernel⟩⟩,
   ⟨0, 0, _, 0, ⟨1, 0, 65536, 0x50000, 0x30000, 0x3, 0, 0, 0⟩, pages inHearth, (fab
    { group := some (groupWith []), plane := { wins := [(3, ⟨0, 8, 0, 0, none⟩)] }, eng := { gens := [(0, { cur := some { op := 0x340, desc := ⟨0, 0⟩, win := 3, flags := 0, a := ofVals 32 [0, 0, 0, 0, 1, 1, 1, 1], b := 0, order := 1, passes := 1 } })] } }
    {}), ⟨rfl, by decide +kernel, by decide +kernel, by decide +kernel, by decide +kernel, by decide +kernel⟩⟩,
   ⟨0, 0, _, 0, (fab
    { group := some (groupWith []), plane := { wins := [(3, ⟨0, 8, 0, 0, none⟩)] }, eng := { gens := [(0, { cur := some { op := 0x340, desc := ⟨0, 0⟩, win := 3, flags := 0, a := ofVals 32 [0, 0, 0, 0, 1, 1, 1, 1], b := 0, order := 1, passes := 1 } })] } }
    { reqs := (List.range 16).map fun n => { id := n, who := A, exec := 0, slot := 0, op := 0x1C0, ty := 15, kind := .load, lanes := [{ idx := 0, va := 0, n := 64 }] }, walks := [(0, (List.range 16).map .req)] }),
    ⟨rfl, by decide +kernel, by decide +kernel, by decide +kernel, by decide +kernel⟩⟩,
   ⟨0, 0, _, 0, 0x30, {}, (fab
    { group := some (groupWith []), plane := { wins := [(3, ⟨0, 8, 0, 0, none⟩)] }, eng := { gens := [(0, { cur := some { op := 0x340, desc := ⟨0, 0⟩, win := 3, flags := 0, a := ofVals 32 [0, 0, 0, 0, 1, 1, 1, 1], b := 0, order := 1, passes := 1 } })] } }
    {}), ⟨rfl, by decide +kernel, by decide +kernel, by decide +kernel, by decide +kernel, by decide +kernel⟩⟩⟩

theorem witness_KilnActs :
  (∃ ctx page q t g, MetM (fun m f => f.cores.find? (fun q => q.2.contextId = ctx && q.2.misses.any fun m => m.page = page &&
    !m.delegated) = some q ∧ translate m (f.context ctx) ctx page = .ok t ∧ bitOf t.attr 4 = true ∧ f.inTransit ctx page = false ∧
    f.units.failedAt t.pa = false ∧ poolRun (f.region q.2.regionId).pool (t.size / 65536) = some g)) ∧
  (∃ c m r, MetF (fun f => (f.core c).missWait = m :: r ∧ (f.core c).misses.length < 32 ∧ (f.core c).dbg.frozen = false)) ∧
  (∃ c x r l p, MetM (fun m f => (f.core c).faults = x :: r ∧ walkEnd m x.trap.addr 4 (f.context (f.core c).contextId).root = some (l,
    p))) ∧
  (∃ c x r, MetF (fun f => (f.core c).faults = x :: r ∧ x.push = false ∧ (x.gen.isSome = true ∨ x.actor.isSome = true))) ∧
  (∃ c n t, MetM (fun _ f => n < 64 ∧ (f.core c).tlb[n]? = some t)) ∧
  (∃ c n t, MetM (fun _ f => 64 ≤ n ∧ ((f.core c).gen (n - 64)).entry = some t)) :=
  ⟨⟨1, 0, _, ⟨1, 0, 65536, 0x8000000000000, 0x30000, 0x13, 0, 0, 0⟩, 7, pages inTier, (fab
    { group := some (groupWith []), misses := [⟨0, false, []⟩] } { regions := [(1, { pool := [7] })], expanders := [16] }), ⟨rfl, by
    decide +kernel, by decide +kernel, by decide +kernel, by decide +kernel, by decide +kernel⟩⟩,
   ⟨0, ⟨0, false, []⟩, [], fab { missWait := [⟨0, false, []⟩] } {}, by decide +kernel⟩,
   ⟨0, { trap := { code := 0x40 }, gen := some 0 }, [], 1, 0x30000, pages inTier, (fab
    { group := some (groupWith []), faults := [{ trap := { code := 0x40 }, gen := some 0 }] } {}), ⟨by decide +kernel, by
    decide +kernel⟩⟩,
   ⟨0, { trap := { code := 0x40 }, gen := some 0 }, [], fab { faults := [{ trap := { code := 0x40 }, gen := some 0 }] } {}, ⟨by
    decide +kernel, rfl, .inl rfl⟩⟩,
   ⟨0, 0, ⟨1, 0, 65536, 0x50000, 0x30000, 0x3, 0, 0, 0⟩, {}, (fab { tlb := [⟨1, 0, 65536, 0x50000, 0x30000, 0x3, 0, 0, 0⟩] } {}), by
    decide +kernel⟩,
   ⟨0, 64, ⟨1, 0, 65536, 0x50000, 0x30000, 0x3, 0, 0, 0⟩, {}, (fab
    { eng := { gens := [(0, { entry := some ⟨1, 0, 65536, 0x50000, 0x30000, 0x3, 0, 0, 0⟩ })] } } {}), by decide +kernel⟩⟩

theorem witness_ArrivalsComplete :
  (∃ ctx conn va, ∃ (bytes : List Byte), ∃ t, bytes ≠ [] ∧ va % 64 + bytes.length ≤ 64 ∧ MetM (fun m f => Admitted m f ctx conn va
    true false t)) ∧
  (∃ ctx conn va n t, n ≠ 0 ∧ va % 64 + n ≤ 64 ∧ MetM (fun m f => Admitted m f ctx conn va false false t)) ∧
  (∃ ctx conn va, ∃ (op : BitVec 10),  ∃ (ty : BitVec 4), ∃ t, remoteOp op.toNat ty = true ∧ va % tyBytes ty = 0 ∧ MetM (fun m f =>
    Admitted m f ctx conn va true true t)) ∧
  (∃ ctx conn va, ∃ (op : BitVec 10),  ∃ (ty : BitVec 4), ∃ n, ∃ (row : Row), ∃ t, n ≠ 0 ∧ n * tyBytes ty ≤ 64 ∧ va % 64 = 0 ∧ ((ty =
    4 ∨ ty = 5 ∨ ty = 14)) ∧ op.toNat ≤ 2 ∧ ((op.toNat = 2 → ty ≠ 14)) ∧ MetM (fun m f => Admitted m f ctx conn va true true t ∧
    (arrivingRows f ctx conn).find? (fun x => x.va = va && x.op = op.toNat && x.ty = ty && x.n = n && x.row = row) = none)) ∧
  (∃ ctx conn va, ∃ (op : BitVec 10),  ∃ (ty : BitVec 4), ∃ n, ∃ (row : Row), ∃ t x, MetM (fun m f => (arrivingRows f ctx conn).find?
    (fun x => x.va = va && x.op = op.toNat && x.ty = ty && x.n = n && x.row = row) = some x ∧ f.arrive m ctx va true true = .ok t ∧
    f.lineHeld (lineOf (t.phys va)) = false ∧ f.seqHeld ctx conn (sliceOf (lineOf (t.phys va))) x.seq = false ∧ ∀ r ∈ f.regionsOf ctx,
    (f.region r).replay = [] ∧ (f.region r).redo = [])) :=
  ⟨⟨1, 0, 0, [1], ⟨1, 0, 65536, 0x50000, 0x30000, 0x20B, 0, 0, 0⟩, by simp, by decide, (pages 0x5020B),
    { units := { contexts := [(1, { conns := [(0, { peer := 0 })] })], mesh := { home := [{ what := .arrival 1 0 0 }] } } }, ⟨by decide,
    by decide +kernel, by decide +kernel⟩⟩,
   ⟨1, 0, 0, 64, ⟨1, 0, 65536, 0x50000, 0x30000, 0x20B, 0, 0, 0⟩, by decide, by decide, (pages 0x5020B),
    { units := { contexts := [(1, { conns := [(0, { peer := 0 })] })], mesh := { home := [{ what := .arrival 1 0 0 }] } } }, ⟨by decide,
    by decide +kernel, by decide +kernel⟩⟩,
   ⟨1, 0, 0, 0x200, 4, ⟨1, 0, 65536, 0x50000, 0x30000, 0x20B, 0, 0, 0⟩, by decide, by decide, (pages 0x5020B),
    { units := { contexts := [(1, { conns := [(0, { peer := 0 })] })], mesh := { home := [{ what := .arrival 1 0 0 }] } } }, ⟨by decide,
    by decide +kernel, by decide +kernel⟩⟩,
   ⟨1, 0, 0, 0, 4, 16, 0, ⟨1, 0, 65536, 0x50000, 0x30000, 0x20B, 0, 0, 0⟩, by decide, by decide, by decide, .inl rfl, by decide, by
    decide, (pages 0x5020B),
    { units := { contexts := [(1, { conns := [(0, { peer := 0 })] })], mesh := { home := [{ what := .arrival 1 0 0 }] } } }, ⟨by decide,
    by decide +kernel, by decide +kernel⟩, by decide +kernel⟩,
   ⟨1, 0, 0, 0, 4, 16, 0, ⟨1, 0, 65536, 0x50000, 0x30000, 0x20B, 0, 0, 0⟩, ⟨0, 0, 4, 16, 0, 0, 0⟩, (pages 0x5020B),
    { units := { contexts := [(1, { conns := [(0, { peer := 0, rowsIn := [⟨0, 0, 4, 16, 0, 0, 0⟩] })] })] } }, by decide +kernel, by
    decide +kernel, by decide +kernel, by decide +kernel⟩⟩

theorem witness_ArrivalsRefused :
  ∃ (s : State) (ctx conn va : Nat) (code : MsgKind), va < 2 ^ 56 ∧ s.fab.mustWait s.mem ctx conn va = false ∧ s.fab.arrive s.mem ctx
    va true false = .error code :=
  ⟨⟨{}, { units := { contexts := [(1, { conns := [(0, { peer := 0 })] })], mesh := { home := [{ what := .arrival 1 0 0 }] } } }, {}⟩,
    1, 0, 0, .refused, by decide, by decide +kernel, by decide +kernel⟩

theorem witness_WindowsServe :
  (∃ ctx, MetF (fun f => f.units.serves = true ∧ f.isOpen ctx = true ∧ (ctx = 0 → f.units.admin = none ∨ f.units.adminOpen = true) ∧
    (f.context ctx).cmd.length < (f.context ctx).cmdCap)) ∧
  (∃ ctx, MetF (fun f => (f.context ctx).cmdCap ≤ (f.context ctx).cmd.length)) ∧
  (∃ ctx r rest, MetF (fun f => f.isOpen ctx = true ∧ (f.context ctx).cplHeld = r :: rest ∧ (f.context ctx).cpl.length < (f.context
    ctx).cplCap)) ∧
  (∃ ctx n, MetF (fun f => f.isOpen ctx = true ∧ n ≤ (f.context ctx).cpl.length)) ∧
  (∃ ctx n, MetF (fun f => f.isOpen ctx = true ∧ (f.context ctx).cpl.length < n)) :=
  ⟨⟨1, { units := { service := .full, contexts := [(1, {})] } }, by decide +kernel, by decide +kernel, fun h => absurd h (by decide),
    by decide +kernel⟩,
   ⟨1, { units := { service := .full, contexts := [(1, { cmdCap := 0 })] } }, by decide +kernel⟩,
   ⟨1, 0, [], { units := { service := .full, contexts := [(1, { cplHeld := [0] })] } }, by decide +kernel⟩,
   ⟨1, 1, { units := { service := .full, contexts := [(1, { cpl := [0] })] } }, by decide +kernel⟩,
   ⟨1, 1, { units := { service := .full, contexts := [(1, {})] } }, by decide +kernel⟩⟩

theorem witness_GroupsComeAndGo :
  (∃ c g, MetF (fun f => (f.core c).incoming = some g ∧ g.filled = true ∧ g.refused = false ∧ (f.core c).group = none ∧ (f.core
    c).kindling = .bind ∧ (f.region g.region).acts = true ∧ (f.core c).gangHold = none ∧ (g.gang ≠ 0 → (f.region g.region).turn = some
    g.slice) ∧ g.restored = false)) ∧
  (∃ c g img, MetF (fun f => (f.core c).incoming = some g ∧ g.filled = true ∧ g.refused = false ∧ (f.core c).group = none ∧ (f.core
    c).kindling = .bind ∧ (f.region g.region).acts = true ∧ (f.core c).gangHold = none ∧ (g.gang ≠ 0 → (f.region g.region).turn = some
    g.slice) ∧ g.restored = true ∧ sfind (f.region g.region).images g.group = some img)) ∧
  (∃ c e slot, MetF (fun f => (f.core c).exec (.seq c) = some e ∧ e.waits.find? (fun w => w.2 = .drain) = some (slot, .drain) ∧
    (f.core c).dbg.frozen = false ∧ (∀ w ∈ e.waits, w.2 ≠ .queue) ∧ (f.core c).kindling = .program ∧ (f.core c).noFiring = true ∧
    (f.core c).drained = true)) ∧
  (∃ c g, MetM (fun _ f => Completes f c g ∧ f.units.table.find? (ofGang g) = none)) ∧
  (∃ c g q, MetM (fun _ f => Completes f c g ∧ f.units.table.find? (ofGang g) = some q)) ∧
  (∃ reg, MetM (fun _ f => shas f.units.regions reg = true ∧ f.unitsSettled reg = true ∧ f.regionDone reg = true)) ∧
  (∃ reg, MetM (fun _ f => shas f.units.regions reg = true ∧ f.unitsSettled reg = true ∧ ∃ q ∈ f.cores, ∃ g, q.2.incoming = some g ∧
    g.region = reg ∧ g.refused = true)) :=
  ⟨⟨0, { groupWith [] with filled := true }, fab { incoming := some { groupWith [] with filled := true }, kindling := .bind }
    { regions := [(1, {})] }, ⟨by decide +kernel, by decide +kernel, by decide +kernel, by decide +kernel, by decide +kernel, by
    decide +kernel, by decide +kernel, fun h => absurd rfl h, by decide +kernel⟩⟩,
   ⟨0, { groupWith [] with filled := true, restored := true }, {}, fab
    { incoming := some { groupWith [] with filled := true, restored := true }, kindling := .bind }
    { regions := [(1, { images := [(0, {})] })] }, ⟨by decide +kernel, by decide +kernel, by decide +kernel, by decide +kernel, by
    decide +kernel, by decide +kernel, by decide +kernel, fun h => absurd rfl h, by decide +kernel, by decide +kernel⟩⟩,
   ⟨0, { waits := [(0, .drain)] }, 0, fab { kindling := .program, seq := { phase := .run, exec := some { waits := [(0, .drain)] } } }
    {}, by decide +kernel⟩,
   ⟨0, groupWith [], {}, (fab { group := some (groupWith []), seq := { phase := .halted } } {}), ⟨⟨by decide +kernel, by
    decide +kernel, by decide +kernel, by decide +kernel, rfl, by decide +kernel, by decide +kernel, by decide +kernel⟩, by
    decide +kernel⟩⟩,
   ⟨0, groupWith [], (0, bindRecord 1 0 1 0), {}, (fab { group := some (groupWith []), seq := { phase := .halted } }
    { table := [(0, bindRecord 1 0 1 0)] }), ⟨⟨by decide +kernel, by decide +kernel, by decide +kernel, by decide +kernel, rfl, by
    decide +kernel, by decide +kernel, by decide +kernel⟩, by decide +kernel⟩⟩,
   ⟨1, {}, (fab {} { regions := [(1, {})] }), by decide +kernel⟩,
   ⟨1, {}, (fab { incoming := some { groupWith [] with refused := true } } { regions := [(1, {})] }), ⟨by decide +kernel, by
    decide +kernel, _, List.mem_singleton.mpr rfl, _, rfl, by decide +kernel, by decide +kernel⟩⟩⟩

theorem witness_GangsTurn :
  (∃ i, MetF (fun f => recV (f.units.record i) = true ∧ recGang (f.units.record i) ≠ 0 ∧ f.units.due (f.units.record i) = true ∧
    f.placed (f.units.record i) = false ∧ i ∉ f.units.readyRec)) ∧
  (∃ gang n e, gang ≠ 0 ∧ bitOf e 0 = true ∧ MetF (fun f => (sget 0 f.units.gangs gang).toNat = e ∧ gangNext e (ptpNanos f.units.ptp)
    = n ∧ gangInstant e n ≤ ptpNanos f.units.ptp + 2000 ∧ sget 0 f.units.judged gang ≠ n + 1)) ∧
  (∃ gang n slice, MetF (fun f => TurnDue f gang n slice ∧ f.units.paused = true)) ∧
  (∃ gang n slice, MetF (fun f => TurnDue f gang n slice ∧ f.units.paused = false)) :=
  ⟨⟨0, fab {} { table := [(0, bindRecord 1 0 1 0)], gangs := [(1, 1 + 256 * 2 + (10 <<< 16) + (1000 <<< 32))] }, by decide +kernel⟩,
   ⟨1, 0, 1 + 256 * 2 + (10 <<< 16) + (1000 <<< 32), by decide, by decide, fab {}
    { gangs := [(1, 1 + 256 * 2 + (10 <<< 16) + (1000 <<< 32))] }, by decide +kernel⟩,
   ⟨1, 0, 0, fab {} { gangs := [(1, 1 + 256 * 2 + (10 <<< 16) + (1000 <<< 32))], judged := [(1, 1)], ptp := 1 <<< 32, paused := true },
    ⟨⟨by decide +kernel, by decide +kernel, by decide +kernel, by decide +kernel, by decide +kernel⟩, by decide +kernel⟩⟩,
   ⟨1, 0, 0, fab {} { gangs := [(1, 1 + 256 * 2 + (10 <<< 16) + (1000 <<< 32))], judged := [(1, 1)], ptp := 1 <<< 32 }, ⟨⟨by
    decide +kernel, by decide +kernel, by decide +kernel, by decide +kernel, by decide +kernel⟩, by decide +kernel⟩⟩⟩

/-- A sequencer block that halts. -/
def haltBlock : Block := ⟨headerOf 0 (encode (.halt ⟨0, 15, 6, 6, 0, 0, 0, 0⟩)), encode (.halt ⟨0, 15, 6, 6, 0, 0, 0, 0⟩)⟩

/-- A graph image of one group: one block that halts, for core 0 of die 0 (Tables 10-2 and 10-3), and its check sum (R303). -/
def imageRest : List Byte :=
  natBytes 32 ((1 <<< 32) + (2 <<< 64)) ++ natBytes 32 0 ++ natBytes 16 (haltBlock.hdr).toNat ++
    (haltBlock.words.flatMap fun w => natBytes 8 w.toNat) ++ natBytes (64 - 16 - 8 * haltBlock.words.length) 0
def image : List Byte :=
  natBytes 64 (0x475200B7 + (1 <<< 32) + (1 <<< 48) + (3 <<< 64) + (crc32c imageRest <<< 96)) ++ imageRest

/-- The launch message of that image, at address 0 of context 1 (Table 21-1), with a pool of one granule. -/
def message (save : Nat) : Row := BitVec.ofNat 512 (0x4C4100B7 + (1 <<< 32) + (1 <<< 256) + (1 <<< 272) + (save <<< 416))

/-- Memory with the image in context 1's page. -/
def imageMem : Memory := (pages inHearth).write 0x50000 image

/-- Context 1 with a message at the head of its window, core 0 enabled, and a slot table. -/
def launchFab (row : Row) (table : Sparse (BitVec 128)) : Fabric :=
  { units := { service := .full, contexts := [(1, { cmd := [row] })], enabled := [0], table := table } }

/-- A slot table with no free record. -/
def fullTable : Sparse (BitVec 128) := (List.range 4096).map fun i => (i, 1)

theorem sfind_rangeMap {β : Type} (g : Nat → β) : ∀ (n m i : Nat), i < n → sfind ((List.range' m n).map fun j => (j, g j)) (m + i) = some (g (m + i)) := by
  intro n
  induction n with
  | zero => intro m i h; omega
  | succ n ih =>
    intro m i h
    rw [List.range'_succ, List.map_cons]
    by_cases hi : i = 0
    · subst hi; simp [sfind]
    · have h1 : m + i = m + 1 + (i - 1) := by omega
      have := ih (m + 1) (i - 1) (by omega)
      rw [h1]; simp only [sfind] at this ⊢
      rw [if_neg (by omega)]; exact this

theorem fullTable_full (row : Row) : (launchFab row fullTable).units.freeRecords = [] := by
  simp only [Units.freeRecords, List.filter_eq_nil_iff, List.mem_range]
  intro i hi
  have h := sfind_rangeMap (fun _ => (1 : BitVec 128)) 4096 0 i hi
  rw [Nat.zero_add] at h
  have : sget 0 fullTable i = (1 : BitVec 128) := by rw [sget, fullTable, List.range_eq_range', h]; rfl
  simp only [launchFab, this]; decide

theorem witness_LaunchesComplete :
    (∃ i again ctx place pool layout row rest img m f, TakesUp i again ctx place pool layout ∧ Takes f ctx row rest again ∧
      f.checkImage m ctx row.toNat = .ok img ∧ f.units.checkLaunch row.toNat img layout.isSome = .ok () ∧
      (imageDir img).length ≤ f.units.freeRecords.length ∧ f.units.freeAt place (granules img.length) = true ∧
      pool.length = field row.toNat 287 272 ∧ f.laysAll img (layout.getD []) = true ∧
      ∃ taken, (f.units.take place (granules img.length)).takeEach pool = some taken) ∧
    (∃ i again ctx place pool layout row rest img m f, TakesUp i again ctx place pool layout ∧ Takes f ctx row rest again ∧
      f.checkImage m ctx row.toNat = .ok img ∧ f.units.checkLaunch row.toNat img layout.isSome = .ok () ∧
      f.units.freeRecords.length < (imageDir img).length) ∧
    (∃ i again ctx place pool layout row rest r m f, TakesUp i again ctx place pool layout ∧ Takes f ctx row rest again ∧
      f.checkImage m ctx row.toNat = .error r) ∧
    (∃ i again ctx place pool layout row rest img r m f, TakesUp i again ctx place pool layout ∧ Takes f ctx row rest again ∧
      f.checkImage m ctx row.toNat = .ok img ∧ f.units.checkLaunch row.toNat img layout.isSome = .error r) :=
  ⟨⟨.launch 1 7 [8] (some []), false, 1, 7, [8], some [], message 1152, [], image, imageMem, launchFab (message 1152) [], rfl,
    ⟨by decide +kernel, rfl, rfl⟩, by decide +kernel, by decide +kernel, by decide +kernel, by decide +kernel, by decide +kernel, by decide +kernel, Option.isSome_iff_exists.1 (by decide +kernel)⟩,
   ⟨.launch 1 7 [8] (some []), false, 1, 7, [8], some [], message 1152, [], image, imageMem, launchFab (message 1152) fullTable, rfl,
    ⟨by decide +kernel, rfl, rfl⟩, by decide +kernel, by decide +kernel, by rw [fullTable_full]; decide +kernel⟩,
   ⟨.launch 1 7 [8] none, false, 1, 7, [8], none, message 1152, [], { code := 0x80 }, {}, launchFab (message 1152) [], rfl,
    ⟨by decide +kernel, rfl, rfl⟩, by decide +kernel⟩,
   ⟨.launch 1 7 [8] none, false, 1, 7, [8], none, message 1151, [], image, { code := 0x85 }, imageMem, launchFab (message 1151) [], rfl,
    ⟨by decide +kernel, rfl, rfl⟩, by decide +kernel, by decide +kernel⟩⟩

/-- Region 1 of that image, with its record waiting in the queue of die 0. -/
def queued : Fabric :=
  { units := {
      regions := [(1, { context := 1, image := 0x50000 })], enabled := [0]
      queues := [(0, [(bindRecord 1 0x50000 0 (1 <<< 32)).toNat])] } }

theorem witness_DispatchAndBind :
    (∃ f : Fabric, f.units.paused = false) ∧
    (∃ (m : Memory) (f : Fabric) (die r c reg : Nat) (g : Group), f.units.paused = false ∧
      (sget [] f.units.queues die).findSome? (fun r => (f.coreFor r).map fun c => (r, c)) = some (r, c) ∧
      f.units.regionOf r = some reg ∧ groupOf m r reg = some g ∧ f.savedImage reg g.group = none) ∧
    (∃ (m : Memory) (f : Fabric) (die r c reg : Nat) (g : Group) (img : Core), f.units.paused = false ∧
      (sget [] f.units.queues die).findSome? (fun r => (f.coreFor r).map fun c => (r, c)) = some (r, c) ∧
      f.units.regionOf r = some reg ∧ groupOf m r reg = some g ∧ f.savedImage reg g.group = some img) := by
  have hg : ((groupOf imageMem (bindRecord 1 0x50000 0 (1 <<< 32)).toNat 1).any fun g => g.group == 0) = true := by decide +kernel
  cases hq : groupOf imageMem (bindRecord 1 0x50000 0 (1 <<< 32)).toNat 1 with
  | none => rw [hq] at hg; cases hg
  | some g =>
  rw [hq] at hg
  have h0 : g.group = 0 := by simpa using hg
  refine ⟨⟨{}, rfl⟩, ⟨imageMem, queued, 0, (bindRecord 1 0x50000 0 (1 <<< 32)).toNat, 0, 1, g, rfl, by decide +kernel, by decide +kernel, hq, ?_⟩,
    ⟨imageMem, { queued with units := { queued.units with
        regions := [(1, { context := 1, image := 0x50000, images := [(0, {})] })] } },
     0, (bindRecord 1 0x50000 0 (1 <<< 32)).toNat, 0, 1, g, {}, rfl, by decide +kernel, by decide +kernel, hq, ?_⟩⟩ <;>
  rw [h0] <;> decide +kernel

/-- A core whose first generator waits for room that the matrix engine is to make, which waits for that generator's rows. -/
def cycleFab (walking : Bool) : Fabric :=
  { cores := [(0, {
      group := some (groupWith [])
      plane := { wins := [(3, ⟨0, 8, 0, 0, none⟩)] }
      wins := [(3, { f := 8 })]
      eng := { gens := [(0, { cur := some { op := 0x340, desc := ⟨0, 0⟩, win := 3, flags := 0, a := 0, b := 0, order := 1, passes := 1 } })] }
      mx := { queue := [{
        id := 1, kind := 0, op := 0x340, a := 1, mod := 0, flags := 0, ty := 0, win := 3, desc := ⟨0, 0⟩, set := 0
        rect := (0, 0, 1, 1), chain := some 0, ready := false }] } })]
    units := { regions := [(1, { walking := walking })] } }

/-- A core whose sequencer waits at a barrier. -/
def waitFab (walking : Bool) : Fabric :=
  fab { group := some (groupWith []), seq := { exec := some { waits := [(0, .bar 0 false)] } } } { regions := [(1, { walking := walking, repRows := 1 })] }

/-- A management request (Table 21-3). -/
def request (op ctx arg0 arg1 key : Nat) : Nat :=
  0x4D4700B7 + op <<< 32 + ctx <<< 48 + arg0 <<< 128 + arg1 <<< 192 + key <<< 256

/-- A module with a request at the head of context 0's window, and context 1 open. -/
def askFab (m : Nat) (admin : Option (BitVec 256)) (x : Context) (u : Units) : Fabric :=
  { units := { u with service := .full, admin := admin, contexts := [(0, { cmd := [BitVec.ofNat 512 m] }), (1, x)] } }

theorem empty_tables : ∀ l t, emptyTable {} l t = true
  | 0, _ => rfl
  | l + 1, t => by
    have h : bytesNat ((List.range 8).map fun _ => (0 : Byte)) = 0 := by decide
    simp only [emptyTable, List.all_eq_true]
    intro i _
    show (!bitOf (bytesNat ((List.range 8).map fun _ => (0 : Byte))) 0 || _) = true
    rw [h]; rfl

theorem witness_PreemptionSaves :
  (∃ c el, el ≠ 256 ∧ MetF (fun f => (f.core c).saving = false ∧ (f.core c).marking = true ∧ (f.core c).dbg.frozen = false ∧
    f.markersIn c 8 = true)) ∧
  (∃ c el, MetF (fun f => (f.core c).saving = true ∧ (f.core c).dbg.frozen = false ∧ el < 256)) ∧
  (∃ c g, MetM (fun _ f => (f.core c).saving = true ∧ (f.core c).dbg.frozen = false ∧ (f.core c).group = some g ∧ (f.noteOverrun
    c).settled c = true ∧ ∀ h, (f.core c).incoming = some h → h.filled = true ∨ h.refused = true)) ∧
  (∃ c g, MetF (fun f => (f.core c).saving = true ∧ (f.core c).dbg.frozen = false ∧ (f.core c).incoming = some g ∧ g.filled = false ∧
    g.refused = false)) ∧
  (∃ c, MetF (fun f => (f.core c).saving = true ∧ (f.core c).dbg.frozen = false ∧ (∀ h, (f.core c).incoming = some h → h.filled = true
    ∨ h.refused = true) ∧ (f.noteOverrun c).settled c = false ∧ (f.core c).eng.net ≠ [] ∧ (f.region (f.core
    c).regionId).overran.contains c = false ∧ (f.region (f.core c).regionId).drain + 60000 < ptpNanos f.units.ptp)) :=
  ⟨⟨0, 255, by decide, fab { marking := true } {}, by decide +kernel⟩,
   ⟨0, 255, fab { saving := true } {}, by decide +kernel⟩,
   ⟨0, groupWith [], {}, (fab { group := some (groupWith []), saving := true } {}), ⟨by decide +kernel, by decide +kernel, by
    decide +kernel, by decide +kernel, by decide +kernel⟩⟩,
   ⟨0, groupWith [], fab { saving := true, incoming := some (groupWith []) } {}, by decide +kernel⟩,
   ⟨0, fab
    { group := some (groupWith []), saving := true, eng := { net := [{ id := 1, op := 0x358, total := 1, ty := 15, flags := 0, win := 3, desc := ⟨0, 0⟩, a := 0, b := 0, running := true }] } }
    { ptp := 1 <<< 32 }, by decide +kernel⟩⟩

theorem witness_CutsComplete :
  (∃ c, MetF (fun f => (f.core c).group.isSome = true ∧ (f.region (f.core c).regionId).cutting = true ∧ (f.core c).cutDone = false ∧
    f.markersIn c 9 = true ∧ f.passable c = true)) ∧
  (∃ reg, MetF (fun f => (f.region reg).snap ≠ 0 ∧ 2 ^ (f.region reg).snap ≤ (f.region reg).snapAge ∧ (f.region reg).acts = true)) ∧
  (∃ reg, MetF (fun f => (f.region reg).undo ≠ [] ∧ (f.region reg).half = false ∧ (f.region reg).acts = true)) ∧
  (∃ reg, MetF (fun f => (f.region reg).full = false ∧ ((f.region reg).half = true ∨ (f.region reg).inputs ≠ [] ∨ (f.region
    reg).rowsIn ≠ [] ∨ (f.region reg).commits ≠ []))) ∧
  (∃ reg, MetF (fun f => (f.region reg).cutting = true ∧ (f.region reg).rollback = false ∧ f.unitsSettled reg = true ∧ ∀ q ∈ f.cores,
    q.2.group.isSome = true → q.2.regionId = reg → q.2.cutDone = true ∧ f.markerOut q.1 = false)) :=
  ⟨⟨0, fab { group := some (groupWith []) } { regions := [(1, { cutting := true })] }, by decide +kernel⟩,
   ⟨1, fab {} { regions := [(1, { snap := 20, snapAge := 1048576 })] }, by decide +kernel⟩,
   ⟨1, fab {} { regions := [(1, { undo := [(0, {})] })] }, by decide +kernel⟩,
   ⟨1, fab {} { regions := [(1, { half := true })] }, ⟨by decide +kernel, .inl rfl⟩⟩,
   ⟨1, fab { group := some (groupWith []), cutDone := true } { regions := [(1, { cutting := true })] }, by decide +kernel⟩⟩

theorem witness_RollbackRestores :
  (∃ reg, MetM (fun _ f => (f.region reg).rollback = true ∧ (f.region reg).acts = true ∧ (f.region reg).complete = true ∧ (f.region
    reg).full = false)) ∧
  (∃ reg, MetF (fun f => (f.region reg).rollback = true ∧ (f.region reg).acts = true ∧ ((f.region reg).complete = false ∨ (f.region
    reg).full = true))) :=
  ⟨⟨1, {}, (fab {} ({ regions := [(1, { rollback := true, complete := true })] })), by decide +kernel⟩,
   ⟨1, fab {} { regions := [(1, { rollback := true })] }, by decide +kernel⟩⟩

theorem witness_StopsFreeze :
  (∃ (s : State) (reg c : Nat) (t : Trap), (s.fab.region reg).stop = some (c, t) ∧ (s.fab.region reg).stopped = false) ∧
  (∃ c, MetF (fun f => (f.core c).dbg.frozen = false ∧ (f.core c).group.isSome = true ∧ (f.region (f.core c).regionId).acts = false)) ∧
  (∃ c, MetF (fun f => (f.core c).dbg.frozen = true)) ∧
  (∃ c n, MetF (fun f => (f.core c).dbg.stop = some n ∧ n ≤ (f.core c).dbg.retired ∧ (f.core c).dbg.frozen = false ∧ (f.core
    c).group.isSome = true ∧ (f.region (f.core c).regionId).rollback = false)) :=
  ⟨⟨⟨{}, fab {} { regions := [(1, { stop := some (0, { code := 0x30 }) })] }, {}⟩, 1, 0, { code := 0x30 }, by decide +kernel, by
    decide +kernel⟩,
   ⟨0, fab { group := some (groupWith []) } { regions := [(1, { frozen := true })] }, by decide +kernel⟩,
   ⟨0, fab { dbg := { frozen := true } } {}, by decide +kernel⟩,
   ⟨0, 0, fab { group := some (groupWith []), dbg := { stop := some 0 } } {}, by decide +kernel⟩⟩

theorem witness_RecoveryActs :
  (∃ die e r, MetF (fun f => (sget {} f.units.banks die).coming = e :: r)) ∧
  (∃ die i, MetF (fun f => i < 16 ∧ shas (sget {} f.units.banks die).entries i = true)) ∧
  (∃ c site n g paths now, MetF (fun f => (sget {} f.units.banks (dieOf c)).lasting.find? (fun p => p.1 = c) = some (c, n) ∧ site ∈
    f.spares (dieOf c) ∧ (f.core c).group = some g ∧ n < (f.region (f.core c).regionId).interval ∧ f.units.movePaths (f.core c).regionId
    (f.coreAt c) (dieOf c * 162 + site) paths = some now)) ∧
  (∃ reg, MetF (fun f => (f.region reg).running = true ∧ (f.region reg).acts = true ∧ (f.region reg).walking = false ∧ (f.region
    reg).dlock ≤ (f.region reg).idle ∧ f.regionIdle reg = false)) ∧
  (∃ reg l g, MetM (fun _ f => (f.region reg).walking = true ∧ (f.region reg).acts = true ∧ f.modRegion reg (fun r =>
    { r with walking := false, idle := 0 }) = g ∧ g.walkRegion reg = (true, l))) ∧
  (∃ reg l g rows, MetM (fun _ f => (f.region reg).walking = true ∧ (f.region reg).acts = true ∧ f.modRegion reg (fun r =>
    { r with walking := false, idle := 0 }) = g ∧ g.walkRegion reg = (false, l) ∧ reportRows (f.region reg).context (f.region
    reg).repRows false l = rows ∧ rows ≠ [] ∧ rows ≠ (f.region reg).lastStall)) :=
  ⟨⟨0, 1, [], fab {} { banks := [(0, { coming := [1] })] }, by decide +kernel⟩,
   ⟨0, 15, fab {} { banks := [(0, { entries := [(15, 1)] })] }, by decide +kernel⟩,
   ⟨0, 144, 0, groupWith [], [], [], fab { group := some (groupWith []) }
    { regions := [(1, { interval := 1 })], banks := [(0, { lasting := [(0, 0)] })] }, by decide +kernel⟩,
   ⟨1, fab { group := some (groupWith []), seq := { exec := some { waits := [(0, .bar 0 false)] }, phase := .run } }
    { regions := [(1, { running := true, idle := 65536 })] }, by decide +kernel⟩,
   ⟨1, ((cycleFab false).walkRegion 1).2, cycleFab false, {}, cycleFab true, by decide +kernel, by decide +kernel, by decide +kernel,
    Prod.ext (by decide +kernel) rfl⟩,
   ⟨1, ((waitFab false).walkRegion 1).2, waitFab false, reportRows 0 1 false ((waitFab false).walkRegion 1).2, {}, waitFab true, by
    decide +kernel, by decide +kernel, by decide +kernel, Prod.ext (by decide +kernel) rfl, by decide +kernel, by decide +kernel, by
    decide +kernel⟩⟩

theorem witness_RouterOperatorsStep :
  (∃ op cfg d p, MetS (fun k a b => k.operRuns op 0x2C5 = some cfg ∧ k.inData op 0 a = some d ∧ k.inData op 1 b = some p ∧ k.hasSpace
    op (armOf p) = true ∧ k.hasSpace op 2 = true)) ∧
  (∃ op cfg d p, MetS (fun k a b => k.operRuns op 0x2C6 = some cfg ∧ k.inData op 2 b = some p ∧ k.inData op (armOf p) a = some d ∧
    k.hasSpace op 0 = true)) ∧
  (∃ op cfg d, MetS (fun k a _ => k.operRuns op 0x2C7 = some cfg ∧ (k.oper op).phase = 0 ∧ k.inData op 0 a = some d ∧ k.hasSpace op 0
    = true)) ∧
  (∃ op cfg d p, MetS (fun k a b => k.operRuns op 0x2C7 = some cfg ∧ (k.oper op).phase ≠ 0 ∧ k.inData op 2 b = some p ∧ predTrue p =
    true ∧ k.inData op 1 a = some d ∧ k.hasSpace op 0 = true)) ∧
  (∃ op cfg p, MetS (fun k _ b => k.operRuns op 0x2C7 = some cfg ∧ (k.oper op).phase ≠ 0 ∧ k.inData op 2 b = some p ∧ predTrue p =
    false)) ∧
  (∃ op cfg d, MetS (fun k a _ => k.operRuns op 0x2C8 = some cfg ∧ (k.oper op).held = none ∧ k.inData op 0 a = some d ∧ k.hasSpace op
    0 = true)) ∧
  (∃ op cfg v p, MetS (fun k _ b => k.operRuns op 0x2C8 = some cfg ∧ (k.oper op).held = some v ∧ k.inData op 1 b = some p ∧ predTrue p
    = true ∧ k.hasSpace op 0 = true)) ∧
  (∃ op cfg v p, MetS (fun k _ b => k.operRuns op 0x2C8 = some cfg ∧ (k.oper op).held = some v ∧ k.inData op 1 b = some p ∧ predTrue p
    = false)) :=
  ⟨⟨0, ⟨0x2C5, 0, 0, 0⟩, ⟨0, false⟩, ⟨1, false⟩,
    { group := some (groupWith []), plane := { opers := [(0, ⟨0x2C5, 0, 0, 0⟩)], ends := [(1, ⟨1, 0, 0, 0⟩), (3, ⟨1, 0, 1, 0⟩)] }, ends := [(1, { recv := [⟨0, ⟨0, false⟩⟩] }), (3, { recv := [⟨0, ⟨1, false⟩⟩] })], opers := [(0, {})] },
    fun _ _ => ⟨rfl, rfl, rfl, by decide +kernel, rfl⟩⟩,
   ⟨0, ⟨0x2C6, 0, 0, 0⟩, ⟨0, false⟩, ⟨1, false⟩,
    { group := some (groupWith []), plane := { opers := [(0, ⟨0x2C6, 0, 0, 0⟩)], ends := [(1, ⟨1, 0, 0, 0⟩), (5, ⟨1, 0, 2, 0⟩)] }, ends := [(1, { recv := [⟨0, ⟨0, false⟩⟩] }), (5, { recv := [⟨0, ⟨1, false⟩⟩] })], opers := [(0, {})] },
    fun _ _ => ⟨rfl, rfl, by rw [show armOf ⟨1, false⟩ = 0 by decide +kernel]; rfl, rfl⟩⟩,
   ⟨0, ⟨0x2C7, 0, 0, 0⟩, ⟨0, false⟩,
    { group := some (groupWith []), plane := { opers := [(0, ⟨0x2C7, 0, 0, 0⟩)], ends := [(1, ⟨1, 0, 0, 0⟩)] }, ends := [(1, { recv := [⟨0, ⟨0, false⟩⟩] })], opers := [(0, {})] },
    fun _ _ => ⟨rfl, rfl, rfl, rfl⟩⟩,
   ⟨0, ⟨0x2C7, 0, 0, 0⟩, ⟨0, false⟩, ⟨1, false⟩,
    { group := some (groupWith []), plane := { opers := [(0, ⟨0x2C7, 0, 0, 0⟩)], ends := [(3, ⟨1, 0, 1, 0⟩), (5, ⟨1, 0, 2, 0⟩)] }, ends := [(3, { recv := [⟨0, ⟨0, false⟩⟩] }), (5, { recv := [⟨0, ⟨1, false⟩⟩] })], opers := [(0, { phase := 1 })] },
    fun _ _ => ⟨rfl, by decide +kernel, rfl, by decide +kernel, rfl, rfl⟩⟩,
   ⟨0, ⟨0x2C7, 0, 0, 0⟩, ⟨0, false⟩,
    { group := some (groupWith []), plane := { opers := [(0, ⟨0x2C7, 0, 0, 0⟩)], ends := [(5, ⟨1, 0, 2, 0⟩)] }, ends := [(5, { recv := [⟨0, ⟨0, false⟩⟩] })], opers := [(0, { phase := 1 })] },
    fun _ _ => ⟨rfl, by decide +kernel, rfl, by decide +kernel⟩⟩,
   ⟨0, ⟨0x2C8, 0, 0, 0⟩, ⟨0, false⟩,
    { group := some (groupWith []), plane := { opers := [(0, ⟨0x2C8, 0, 0, 0⟩)], ends := [(1, ⟨1, 0, 0, 0⟩)] }, ends := [(1, { recv := [⟨0, ⟨0, false⟩⟩] })], opers := [(0, {})] },
    fun _ _ => ⟨rfl, rfl, rfl, rfl⟩⟩,
   ⟨0, ⟨0x2C8, 0, 0, 0⟩, ⟨0, false⟩, ⟨1, false⟩,
    { group := some (groupWith []), plane := { opers := [(0, ⟨0x2C8, 0, 0, 0⟩)], ends := [(3, ⟨1, 0, 1, 0⟩)] }, ends := [(3, { recv := [⟨0, ⟨1, false⟩⟩] })], opers := [(0, { held := some ⟨0, false⟩ })] },
    fun _ _ => ⟨rfl, rfl, rfl, by decide +kernel, rfl⟩⟩,
   ⟨0, ⟨0x2C8, 0, 0, 0⟩, ⟨0, false⟩, ⟨0, false⟩,
    { group := some (groupWith []), plane := { opers := [(0, ⟨0x2C8, 0, 0, 0⟩)], ends := [(3, ⟨1, 0, 1, 0⟩)] }, ends := [(3, { recv := [⟨0, ⟨0, false⟩⟩] })], opers := [(0, { held := some ⟨0, false⟩ })] },
    fun _ _ => ⟨rfl, rfl, rfl, by decide +kernel⟩⟩⟩

theorem witness_IndexOperatorsStep :
  (∃ op cfg t, MetS (fun k _ _ => k.operRuns op 0x2C9 = some cfg ∧ k.inHead op 1 = none ∧ (k.oper op).started = false ∧ (k.inRoute op
    0).isSome = true ∧ HeadData k op 0 t)) ∧
  (∃ op cfg ix, MetS (fun k _ _ => k.operRuns op 0x2C9 = some cfg ∧ k.inHead op 1 = none ∧ k.inRoute op 1 = none ∧ (k.oper op).started
    = true ∧ k.hasSpace op 0 = true ∧ cfg.chainNext 5 (k.oper op).ix = (none, ix))) ∧
  (∃ op cfg d, MetS (fun k a _ => k.operRuns op 0x2CA = some cfg ∧ (k.oper op).started = false ∧ k.inData op 0 a = some d)) ∧
  (∃ op cfg, MetS (fun k _ _ => k.operRuns op 0x2CA = some cfg ∧ (k.oper op).started = true ∧ k.hasSpace op 0 = true ∧ loopCount
    (k.oper op).bound ≤ (k.oper op).ix.headD 0)) ∧
  (∃ op cfg i b, MetS (fun k _ _ => k.operRuns op 0x2CA = some cfg ∧ (k.oper op).started = true ∧ k.hasSpace op 0 = true ∧ (k.oper
    op).ix.headD 0 = i ∧ (k.oper op).bound = b ∧ i < loopCount b)) ∧
  (∃ op cfg t, MetS (fun k _ _ => k.operRuns op 0x2CB = some cfg ∧ (k.oper op).phase = 0 ∧ HeadData k op 0 t)) ∧
  (∃ op cfg j, MetS (fun k _ _ => k.operRuns op 0x2CB = some cfg ∧ (k.oper op).phase ≠ 0 ∧ k.hasSpace op 0 = true ∧ (k.oper
    op).ix.headD 0 = j)) :=
  ⟨⟨0, ⟨0x2C9, 0, 0x100000001, 0⟩, ⟨0, false⟩,
    { group := some (groupWith []), plane := { opers := [(0, ⟨0x2C9, 0, 0x100000001, 0⟩)], ends := [(1, ⟨1, 0, 0, 0⟩)] }, ends := [(1, { recv := [⟨0, ⟨0, false⟩⟩] })], opers := [(0, {})] },
    fun _ _ => ⟨rfl, rfl, rfl, rfl, _, rfl, rfl, rfl⟩⟩,
   ⟨0, ⟨0x2C9, 0, 0x100000001, 0x10000000200000000⟩, [1],
    { group := some (groupWith []), plane := { opers := [(0, ⟨0x2C9, 0, 0x100000001, 0x10000000200000000⟩)], ends := [] }, ends := [], opers := [(0, { started := true, ix := [0] })] },
    fun _ _ => ⟨rfl, rfl, rfl, rfl, rfl, by decide +kernel⟩⟩,
   ⟨0, ⟨0x2CA, 0, 0, 0⟩, ⟨0, false⟩,
    { group := some (groupWith []), plane := { opers := [(0, ⟨0x2CA, 0, 0, 0⟩)], ends := [(1, ⟨1, 0, 0, 0⟩)] }, ends := [(1, { recv := [⟨0, ⟨0, false⟩⟩] })], opers := [(0, {})] },
    fun _ _ => ⟨rfl, rfl, rfl⟩⟩,
   ⟨0, ⟨0x2CA, 0, 0, 0⟩,
    { group := some (groupWith []), plane := { opers := [(0, ⟨0x2CA, 0, 0, 0⟩)], ends := [] }, ends := [], opers := [(0, { started := true, bound := 0x10000000200000000, ix := [2] })] },
    fun _ _ => ⟨rfl, rfl, rfl, by decide +kernel⟩⟩,
   ⟨0, ⟨0x2CA, 0, 0, 0⟩, 1, 0x10000000200000000,
    { group := some (groupWith []), plane := { opers := [(0, ⟨0x2CA, 0, 0, 0⟩)], ends := [] }, ends := [], opers := [(0, { started := true, bound := 0x10000000200000000, ix := [1] })] },
    fun _ _ => ⟨rfl, rfl, rfl, rfl, rfl, by decide +kernel⟩⟩,
   ⟨0, ⟨0x2CB, 0, 0, 0⟩, ⟨0, false⟩,
    { group := some (groupWith []), plane := { opers := [(0, ⟨0x2CB, 0, 0, 0⟩)], ends := [(1, ⟨1, 0, 0, 0⟩)] }, ends := [(1, { recv := [⟨0, ⟨0, false⟩⟩] })], opers := [(0, { buf := List.replicate 15 {} })] },
    fun _ _ => ⟨rfl, rfl, _, rfl, rfl, rfl⟩⟩,
   ⟨0, ⟨0x2CB, 0, 0, 0⟩, 15,
    { group := some (groupWith []), plane := { opers := [(0, ⟨0x2CB, 0, 0, 0⟩)], ends := [] }, ends := [], opers := [(0, { phase := 1, buf := List.replicate 16 {}, ix := [15] })] },
    fun _ _ => ⟨rfl, by decide +kernel, rfl, rfl⟩⟩⟩

theorem witness_CircuitsCarry :
  (∃ (s : State) (c route : Nat) (b : Beat) (d : Nat), MaySend s.fab c route b d ∧ s.fab.edgesOf (s.fab.core c).regionId route = 0) ∧
  (∃ (s : State) (c route : Nat) (b : Beat) (d : Nat), MaySend s.fab c route b d ∧ s.fab.edgesOf (s.fab.core c).regionId route ≠ 0) ∧
  (∃ (f : Fabric) (c d route : Nat) (b : Beat), (f.core d).cutDone = false ∧ (b.tag < 8 ∨ f.isBack (f.core c).regionId route = false)) ∧
  (∃ (f : Fabric) (c route : Nat) (b : Beat), 8 ≤ b.tag ∧ f.isBack (f.core c).regionId route = true) ∧
  (∃ (s : State) (c route : Nat) (g : Fabric), (s.fab.core c).dbg.frozen = false ∧ (s.fab.core c).group.isSome = true ∧ s.fab.sendBeat
    c route = none ∧ s.fab.takeBeat c route = some g) ∧
  (∃ c route, MetF (fun f => (f.core c).inMarked route = true)) ∧
  (∃ c route e b r, MetF (fun f => sfind (f.core c).plane.ends (route * 2 + 1) = some e ∧ (f.core c).inBeats route = b :: r ∧ (f.core
    c).inMarked route = false ∧ e.kind = 0 ∧ (f.core c).dbg.frozen = false ∧ (f.core c).restoring e.obj = false ∧ b.tag = 0 ∧ (f.core
    c).freeRows e.obj ≠ 0)) ∧
  (∃ c route e b r, MetF (fun f => sfind (f.core c).plane.ends (route * 2 + 1) = some e ∧ (f.core c).inBeats route = b :: r ∧ (f.core
    c).inMarked route = false ∧ e.kind = 0 ∧ (f.core c).dbg.frozen = false ∧ (f.core c).restoring e.obj = false ∧ b.tag ≠ 0)) :=
  ⟨⟨⟨{},
    { cores := [(0, { group := some (groupWith []), ends := [(4, { out := [⟨0, ⟨7, false⟩⟩] })] }), (1, { group := some (groupWith []), plane := { ends := [(5, ⟨0, 3, 0, 0⟩)] } })] },
    {}⟩, 0, 2, ⟨0, ⟨7, false⟩⟩, 1, ⟨rfl, rfl, rfl, rfl, by decide +kernel, by decide +kernel, by decide +kernel, .inr ⟨by
    decide +kernel, by decide +kernel⟩⟩, by decide +kernel⟩,
   ⟨⟨{},
    { cores := [(0, { group := some (groupWith []), ends := [(4, { out := [⟨0, ⟨7, false⟩⟩] })] }), (1, { group := some (groupWith []), plane := { ends := [(5, ⟨0, 3, 0, 0⟩)] } })], units := { regions := [(1, { paths := [⟨2, false, [.edge 0 1 0]⟩] })] } },
    {}⟩, 0, 2, ⟨0, ⟨7, false⟩⟩, 1, ⟨rfl, rfl, rfl, rfl, by decide +kernel, by decide +kernel, by decide +kernel, .inr ⟨by
    decide +kernel, by decide +kernel⟩⟩, by decide +kernel⟩,
   ⟨{}, 0, 0, 0, ⟨7, {}⟩, by decide +kernel, .inl (by decide)⟩,
   ⟨fab { group := some (groupWith []) } { regions := [(1, { paths := [⟨2, true, []⟩] })] }, 0, 2, ⟨8, {}⟩, by decide, by
    decide +kernel⟩,
   ⟨⟨{}, fab
    { group := some (groupWith []), plane := { wins := [(3, ⟨0, 4, 0, 0, some true⟩)], ends := [(4, ⟨0, 3, 0, 2⟩)] }, wins := [(3, { ctl := [(0, 1)] })] }
    {}, {}⟩, 0, 2, _, rfl, rfl, rfl, rfl⟩,
   ⟨0, 2, fab { ends := [(5, { recv := [⟨0, {}⟩, ⟨8, {}⟩] })] } {}, by decide +kernel⟩,
   ⟨0, 2, ⟨0, 3, 0, 0⟩, ⟨0, ⟨7, false⟩⟩, [], fab
    { plane := { wins := [(3, ⟨0, 4, 0, 0, some false⟩)], ends := [(5, ⟨0, 3, 0, 0⟩)] }, ends := [(5, { recv := [⟨0, ⟨7, false⟩⟩] })] }
    {}, by decide +kernel⟩,
   ⟨0, 2, ⟨0, 3, 0, 0⟩, ⟨1, {}⟩, [], fab { plane := { ends := [(5, ⟨0, 3, 0, 0⟩)] }, ends := [(5, { recv := [⟨1, {}⟩] })] } {}, by
    decide +kernel⟩⟩

theorem witness_RetryCarries :
  (∃ n what g q l g', MetF (fun f => Crosses f n what g q l g' ∧ q = l.expect)) ∧
  (∃ n what good g q l g', MetF (fun f => Crosses f n what g q l g' ∧ (good = false ∨ q ≠ l.expect))) ∧
  (∃ n, MetF (fun f => (f.units.link n).dead = false ∧ (f.units.link n).accepted ≠ 0)) ∧
  (∃ n, MetF (fun f => (f.units.link n).dead = false ∧ (f.units.link n).nak = true)) ∧
  (∃ n, MetF (fun f => (f.units.link n).dead = false ∧ (f.units.link n).buf ≠ [] ∧ 256 ≤ (f.units.link n).stall)) :=
  ⟨⟨1, .config 1, { what := .config 1, dst := 1, vc := 2 }, 0, _, _, fab {}
    { links := [(1, { buf := [⟨0, { what := .config 1, dst := 1, vc := 2 }, 8⟩] })] }, ⟨⟨by decide +kernel, by decide +kernel, by
    decide +kernel, by decide +kernel, .inl ⟨_, rfl, rfl, rfl, rfl, rfl, rfl⟩⟩, rfl⟩⟩,
   ⟨1, .config 1, false, { what := .config 1, dst := 1, vc := 2 }, 0, _, _, fab {}
    { cycle := 1, mesh := { bufs := [(18, [{ what := .config 1, dst := 1, vc := 2 }])] } }, ⟨⟨by decide +kernel, by decide +kernel, by
    decide +kernel, by decide +kernel, .inr ⟨by decide +kernel, by decide +kernel, rfl, rfl, rfl⟩⟩, .inl rfl⟩⟩,
   ⟨1, fab {} { links := [(1, { buf := [⟨0, { what := .config 1, dst := 1, vc := 2 }, 8⟩], expect := 1 })] }, by decide +kernel⟩,
   ⟨1, fab {} { links := [(1, { nak := true })] }, by decide +kernel⟩,
   ⟨1, fab {} { links := [(1, { buf := [⟨0, { what := .config 1, dst := 1, vc := 2 }, 8⟩], stall := 256 })] }, by decide +kernel⟩⟩

theorem witness_RoutersServe :
  (∃ n site, ∃ (what : LinkUnit), ∃ g, MetM (fun m f => linkEnds n = (site, 5) ∧ f.flitOf m what = some g ∧ g.src / 2 = site ∧
    (f.units.paused = false ∨ ∃ d, what = .config d) ∧ f.units.carries what = false ∧ (f.units.mesh.buf (bufKey site 4 g.vc)).length <
    bufCap g.vc)) ∧
  (∃ n site, ∃ (what : LinkUnit), ∃ g g', MetF (fun f => linkEnds n = (site, 4) ∧ f.takeFlit site 4 what (fun _ => true) = some (g,
    g') ∧ g'.awaited what = true ∧ ∀ d, what ≠ .config d)) ∧
  (∃ n site d g g', MetF (fun f => linkEnds n = (site, 4) ∧ f.takeFlit site 4 (.config d) (fun _ => true) = some (g, g'))) ∧
  (∃ n site, ∃ (what : LinkUnit), MetF (fun f => linkEnds n = (site, 5) ∧ f.units.paused = true ∧ ∀ d, what ≠ .config d)) :=
  ⟨⟨5, 0, .ask 1 0, _, {}, (fab {}
    { reqs := [{ id := 1, who := A, exec := 0, slot := 0, op := 0x1C0, ty := 15, kind := .load, lanes := [{ idx := 0, va := 0, n := 64, pa := some (0, 0) }] }] }),
    ⟨by decide +kernel, rfl, by decide +kernel, .inl rfl, by decide +kernel, by decide +kernel⟩⟩,
   ⟨4, 0, .reply 1 0, { what := .reply 1 0, src := 16, vc := 1 }, _, fab {}
    { reqs := [{ id := 1, who := A, exec := 0, slot := 0, op := 0x1C0, ty := 15, kind := .load, lanes := [{ idx := 0, va := 0, n := 64, pa := some (0, 0) }] }], cycle := 1, mesh := { bufs := [(5, [{ what := .reply 1 0, src := 16, vc := 1 }])] } },
    ⟨by decide +kernel, rfl, by decide +kernel, nofun⟩⟩,
   ⟨4, 0, 0, { what := .config 0, vc := 2 }, _, fab {} { cycle := 1, mesh := { bufs := [(6, [{ what := .config 0, vc := 2 }])] } }, ⟨by
    decide +kernel, rfl⟩⟩,
   ⟨5, 0, .ack 0, fab {} { paused := true }, ⟨by decide +kernel, by decide +kernel, nofun⟩⟩⟩

theorem witness_LinksDie :
  (∃ n e, MetF (fun f => e ∈ (f.units.link n).buf ∧ 8 ≤ e.replays)) ∧
  (∃ n, MetF (fun f => ∀ e ∈ (f.units.link n).buf, e.replays < 8)) ∧
  (∃ n, MetF (fun _ => (reverseLink n).isSome = true)) ∧
  (∃ (f : Fabric) (n : Nat), (f.units.link n).dead = false ∧ reverseLink n = none) ∧
  (∃ (f : Fabric) (n r : Nat), (f.units.link n).dead = false ∧ (f.units.link r).dead = false ∧ n ≠ r ∧ reverseLink n = some r) ∧
  ((∃ (f : Fabric) (n : Nat) (e : Sent), e ∈ (f.units.link n).buf) ∧ ∃ (f : Fabric) (n : Nat) (q : Nat × List Flit) (g : Flit), q ∈
    f.units.mesh.bufs ∧ g ∈ q.2 ∧ q.1 / 64 = (linkEnds n).1 ∧ f.units.mesh.out (linkEnds n).1 g = (linkEnds n).2) ∧
  (∃ (s : State) (tables : List (Nat × Nat × Nat)) (paths : List (Nat × List RoutePath)), s.run.plan = ⟨tables, paths⟩ ∧
    s.fab.units.paused = true ∧ s.fab.allStill = true ∧ (∀ n ∈ s.fab.units.deadLinks, (s.fab.units.mesh.rewrite tables).avoids n = true) ∧ (∀ e ∈ tables, (s.fab.units.mesh.rewrite
    tables).reaches e.2.1 256 e.1 = true) ∧ s.fab.units.relaysAll paths = true) :=
  ⟨⟨1, ⟨0, { what := .config 1, dst := 1, vc := 2 }, 8⟩, fab {}
    { links := [(1, { buf := [⟨0, { what := .config 1, dst := 1, vc := 2 }, 8⟩] })] }, by decide +kernel⟩,
   ⟨1, fab {} { links := [(1, { buf := [⟨0, { what := .config 1, dst := 1, vc := 2 }, 7⟩] })] }, by decide +kernel⟩,
   ⟨1, fab {} {}, by decide +kernel⟩,
   ⟨{}, 0, by decide +kernel, by decide +kernel⟩,
   ⟨{}, 1, 19, by decide +kernel, by decide +kernel, by decide +kernel, by decide +kernel⟩,
   ⟨⟨fab {} { links := [(1, { buf := [⟨0, { what := .config 1, dst := 1, vc := 2 }, 8⟩] })] }, 1, _, List.mem_singleton.mpr rfl⟩, fab
    {} { mesh := { bufs := [(18, [{ what := .config 1, dst := 1, vc := 2 }])] } }, 1, _, _, List.mem_singleton.mpr rfl,
    List.mem_singleton.mpr rfl, by decide +kernel, by decide +kernel⟩,
   ⟨{ ({} : State) with fab := { units := { paused := true, deadLinks := [0] } } }, [], [], rfl, by decide +kernel, by decide +kernel, by
    decide +kernel, by decide +kernel, by decide +kernel⟩⟩

theorem witness_ContextRequestsComplete :
  (MetR 1 (fun _ _ f => f.units.admin = none)) ∧
  (∃ (s : State) (m place : Nat), Asked s.fab m 2 ∧ reqCtx m ≠ 0 ∧ s.fab.isOpen (reqCtx m) = false ∧ field (reqArg1 m) 31 0 ≠ 0 ∧
    s.fab.units.hasRun (3 * field (reqArg1 m) 31 0) 1 = true ∧ s.fab.units.freeAt place (3 * field (reqArg1 m) 31 0) = true) ∧
  (MetR 3 (fun m mem f => OnTenant m f ∧ emptyTable mem 4 (f.context (reqCtx m)).root = true ∧ ∀ q ∈ f.units.regions, q.2.context ≠
    reqCtx m)) ∧
  (MetR 4 (fun m _ f => OnTenant m f ∧ (f.context (reqCtx m)).isSealed = true)) ∧
  (MetR 7 (fun m _ f => OnTenant m f ∧ shas (f.context (reqCtx m)).conns (field (reqArg0 m) 7 0) = false)) ∧
  (MetR 8 (fun m _ _ => field (reqKey m) 11 0 ≠ 0 ∧ gangEntryOk (reqArg1 m <<< 64 + reqArg0 m) = true)) :=
  ⟨⟨(request 1 1 (0) (0) (5)), {}, (askFab (request 1 1 (0) (0) (5)) none {} {}), ⟨⟨_, _, rfl, by decide +kernel⟩, by decide +kernel,
    by decide +kernel, by decide +kernel, by decide +kernel, by decide +kernel, fun _ => rfl⟩, by decide +kernel⟩,
   ⟨⟨{}, askFab (request 2 2 (0) (1) (0)) (some 0) {} {}, {}⟩, (request 2 2 (0) (1) (0)), 7, ⟨⟨_, _, rfl, by decide +kernel⟩, by
    decide +kernel, by decide +kernel, by decide +kernel, by decide +kernel, by decide +kernel, fun h => absurd h (by decide +kernel)⟩,
    by decide +kernel, by decide +kernel, by decide +kernel, by decide +kernel, by decide +kernel⟩,
   ⟨(request 3 1 (0) (0) (0)), {}, (askFab (request 3 1 (0) (0) (0)) (some 0) {} {}), ⟨⟨_, _, rfl, by decide +kernel⟩, by
    decide +kernel, by decide +kernel, by decide +kernel, by decide +kernel, by decide +kernel, fun h => absurd h (by decide +kernel)⟩,
    ⟨⟨by decide +kernel, by decide +kernel⟩, empty_tables _ _, fun _ h => absurd h List.not_mem_nil⟩⟩,
   ⟨(request 4 1 (0) (0) (0)), {}, (askFab (request 4 1 (0) (0) (0)) (some 0) { isSealed := true } {}), ⟨⟨_, _, rfl, by
    decide +kernel⟩, by decide +kernel, by decide +kernel, by decide +kernel, by decide +kernel, by decide +kernel, fun h => absurd h
    (by decide +kernel)⟩, ⟨⟨by decide +kernel, by decide +kernel⟩, by decide +kernel⟩⟩,
   ⟨(request 7 1 (255) (0) (0)), {}, (askFab (request 7 1 (255) (0) (0)) (some 0) {} {}), ⟨⟨_, _, rfl, by decide +kernel⟩, by
    decide +kernel, by decide +kernel, by decide +kernel, by decide +kernel, by decide +kernel, fun h => absurd h (by decide +kernel)⟩,
    ⟨⟨by decide +kernel, by decide +kernel⟩, by decide +kernel⟩⟩,
   ⟨(request 8 1 (0) (0) (4095)), {}, (askFab (request 8 1 (0) (0) (4095)) (some 0) {} {}), ⟨⟨_, _, rfl, by decide +kernel⟩, by
    decide +kernel, by decide +kernel, by decide +kernel, by decide +kernel, by decide +kernel, fun h => absurd h (by decide +kernel)⟩,
    by decide +kernel⟩⟩

theorem witness_PageRequestsComplete :
  (∃ frame level mem' next, MetR 5 (fun m mem f => let c := f.context (reqCtx m); let size := pageBytes level; let n := size / 65536;
    let base := if bitOf (reqArg1 m) 4 then 0x8000000000000 + frame * 65536 else frame * 65536; OnTenant m f ∧ level = field (reqArg1 m)
    1 0 + 1 ∧ level ≠ 4 ∧ reqArg0 m % size = 0 ∧ reqArg0 m < 2 ^ 56 ∧ field (reqArg1 m) 7 6 ≠ 3 ∧ (bitOf (reqArg1 m) 4 = true → level ≠
    3) ∧ frame % n = 0 ∧ enterLeaf (reqArg0 m) (mapLeaf (reqArg1 m) c.isSealed base) level c.ptEnd 4 mem c.ptNext c.root = .ok (mem',
    next) ∧ (if bitOf (reqArg1 m) 4 then (peatRun f.units.peat f.units.peatCap n).isSome = true ∧ f.units.peatFree frame n = true else
    f.units.hasRun n n = true ∧ f.units.freeAt frame n = true))) ∧
  (∃ l p e, MetR 6 (fun m mem f => OnTenant m f ∧ reqArg0 m < 2 ^ 56 ∧ (f.context (reqCtx m)).leaf mem (reqArg0 m) = some (l, p, e) ∧
    f.inTransit (reqCtx m) (reqArg0 m / pageBytes l * pageBytes l) = false)) ∧
  (MetR 13 (fun m _ f => OnTenant m f ∧ ∀ q ∈ f.units.regions, q.2.context = reqCtx m → f.unitsSettled q.1 = true)) :=
  ⟨⟨5, 1, (pages 0).writeNat 0x30000 8 0x50003, 0, (request 5 1 (0) (0) (0)), (pages 0), (askFab (request 5 1 (0) (0) (0)) (some 0) {}
    {}), ⟨⟨_, _, rfl, by decide +kernel⟩, by decide +kernel, by decide +kernel, by decide +kernel, by decide +kernel, by decide +kernel,
    fun h => absurd h (by decide +kernel)⟩, ⟨⟨by decide +kernel, by decide +kernel⟩, by decide +kernel⟩⟩,
   ⟨1, 0x30000, 0x50003, (request 6 1 (0) (0) (0)), (pages inHearth), (askFab (request 6 1 (0) (0) (0)) (some 0) {} {}), ⟨⟨_, _, rfl,
    by decide +kernel⟩, by decide +kernel, by decide +kernel, by decide +kernel, by decide +kernel, by decide +kernel, fun h => absurd h
    (by decide +kernel)⟩, ⟨⟨by decide +kernel, by decide +kernel⟩, by decide +kernel, by decide +kernel, by decide +kernel⟩⟩,
   ⟨(request 13 1 (0) (0) (0)), {}, (askFab (request 13 1 (0) (0) (0)) (some 0) {} {}), ⟨⟨_, _, rfl, by decide +kernel⟩, by
    decide +kernel, by decide +kernel, by decide +kernel, by decide +kernel, by decide +kernel, fun h => absurd h (by decide +kernel)⟩,
    ⟨⟨by decide +kernel, by decide +kernel⟩, fun _ h => absurd h List.not_mem_nil⟩⟩⟩

theorem witness_RegionRequestsComplete :
  (∃ r, MetR 9 (fun m _ f => OnRegionOf m f r)) ∧
  (∃ r, MetR 10 (fun m _ f => OnRegionOf m f r ∧ (f.region r).acts = false)) ∧
  (∃ r, MetR 11 (fun m _ f => OnRegionOf m f r ∧ (f.region r).complete = true ∧ (f.region r).full = false)) ∧
  (∃ r, MetR 12 (fun m _ f => OnRegionOf m f r ∧ f.unitsSettled r = true)) :=
  ⟨⟨1, (request 9 1 (0) (0) (0)), {}, (askFab (request 9 1 (0) (0) (0)) (some 0) {} { regions := [(1, { context := 1, tag := 0 })] }),
    ⟨⟨_, _, rfl, by decide +kernel⟩, by decide +kernel, by decide +kernel, by decide +kernel, by decide +kernel, by decide +kernel, fun
    h => absurd h (by decide +kernel)⟩, ⟨⟨by decide +kernel, by decide +kernel⟩, by decide +kernel⟩⟩,
   ⟨1, (request 10 1 (0) (0) (0)), {}, (askFab (request 10 1 (0) (0) (0)) (some 0) {}
    { regions := [(1, { context := 1, frozen := true })] }), ⟨⟨_, _, rfl, by decide +kernel⟩, by decide +kernel, by decide +kernel, by
    decide +kernel, by decide +kernel, by decide +kernel, fun h => absurd h (by decide +kernel)⟩, ⟨⟨⟨by decide +kernel, by
    decide +kernel⟩, by decide +kernel⟩, by decide +kernel⟩⟩,
   ⟨1, (request 11 1 (0) (0) (0)), {}, (askFab (request 11 1 (0) (0) (0)) (some 0) {}
    { regions := [(1, { context := 1, complete := true })] }), ⟨⟨_, _, rfl, by decide +kernel⟩, by decide +kernel, by decide +kernel, by
    decide +kernel, by decide +kernel, by decide +kernel, fun h => absurd h (by decide +kernel)⟩, ⟨⟨⟨by decide +kernel, by
    decide +kernel⟩, by decide +kernel⟩, by decide +kernel, by decide +kernel⟩⟩,
   ⟨1, (request 12 1 (0) (0) (0)), {}, (askFab (request 12 1 (0) (0) (0)) (some 0) {}
    { regions := [(1, { context := 1, tag := 0 })] }), ⟨⟨_, _, rfl, by decide +kernel⟩, by decide +kernel, by decide +kernel, by
    decide +kernel, by decide +kernel, by decide +kernel, fun h => absurd h (by decide +kernel)⟩, ⟨⟨⟨by decide +kernel, by
    decide +kernel⟩, by decide +kernel⟩, by decide +kernel⟩⟩⟩

theorem witness_ControlTokensPass :
    (∃ (k : Core) (cfg : OperCfg) (level : Nat), sfind k.plane.opers 0 = some cfg ∧ k.dbg.frozen = false ∧ k.group.isSome = true ∧
      (k.oper 0).stuck = false ∧ k.operIdle 0 cfg.op = true ∧
      ((List.range (operPorts cfg.op).1).filter fun i => (k.inRoute 0 i).isSome) = [0, 1] ∧ level ≠ 0 ∧
      (∀ i ∈ [0, 1], ∃ b, k.inHead 0 i = some b ∧ b.tag = level) ∧ ∀ o < (operPorts cfg.op).2, k.hasSpace 0 o = true) ∧
    ∃ (k : Core) (cfg : OperCfg) (b d : Beat), sfind k.plane.opers 0 = some cfg ∧ k.dbg.frozen = false ∧ k.group.isSome = true ∧
      (k.oper 0).stuck = false ∧ k.operIdle 0 cfg.op = true ∧
      ((List.range (operPorts cfg.op).1).filter fun i => (k.inRoute 0 i).isSome) = [0, 1] ∧ k.inHead 0 0 = some b ∧
      k.inHead 0 1 = some d ∧ b.tag ≠ d.tag ∧ ∀ i ∈ [0, 1], ∃ b, k.inHead 0 i = some b ∧ b.tag ≠ 0 :=
  ⟨⟨{ group := some (groupWith []), plane := { opers := [(0, ⟨0x2C5, 0, 0, 0⟩)], ends := [(1, ⟨1, 0, 0, 0⟩), (3, ⟨1, 0, 1, 0⟩)] }, ends := [(1, { recv := [⟨1, ⟨0, false⟩⟩] }), (3, { recv := [⟨1, ⟨0, false⟩⟩] })], opers := [(0, {})] },
    ⟨0x2C5, 0, 0, 0⟩, 1, by decide +kernel, by decide +kernel, by decide +kernel, by decide +kernel, by decide +kernel, by decide +kernel, by decide +kernel,
    fun i h => by
      rcases List.mem_cons.mp h with rfl | h
      · exact ⟨_, rfl, rfl⟩
      · cases List.mem_singleton.mp h; exact ⟨_, rfl, rfl⟩, by decide +kernel⟩,
   ⟨{ group := some (groupWith []), plane := { opers := [(0, ⟨0x2C5, 0, 0, 0⟩)], ends := [(1, ⟨1, 0, 0, 0⟩), (3, ⟨1, 0, 1, 0⟩)] }, ends := [(1, { recv := [⟨1, ⟨0, false⟩⟩] }), (3, { recv := [⟨7, ⟨0, false⟩⟩] })], opers := [(0, {})] },
    ⟨0x2C5, 0, 0, 0⟩, ⟨1, ⟨0, false⟩⟩, ⟨7, ⟨0, false⟩⟩, by decide +kernel, by decide +kernel, by decide +kernel, by decide +kernel, by decide +kernel, by decide +kernel, by decide +kernel, by decide +kernel, by decide +kernel,
    fun i h => by
      rcases List.mem_cons.mp h with rfl | h
      · exact ⟨_, rfl, by decide +kernel⟩
      · cases List.mem_singleton.mp h; exact ⟨_, rfl, by decide +kernel⟩⟩⟩

/-- What the proof of the administrator's key needs but for the signature check, which is not the model's to decide (log entry 4). -/
theorem witness_AdministratorProves :
    (∀ key nonce sig, Config.slhVerify key nonce sig = true → MetF (fun f => f.units.admin = some ((Config.shake256 key).setWidth 256) ∧
      f.units.serves = true ∧ Config.slhVerify key nonce sig = true)) ∧
    ∃ ctx, MetF (fun f => f.units.serves = true ∧ ctx ≠ 0 ∧ f.isOpen ctx = true) :=
  ⟨fun key _ _ h => ⟨fab {} { service := .full, admin := some ((Config.shake256 key).setWidth 256) }, rfl, rfl, h⟩,
   ⟨1, fab {} { service := .full, contexts := [(1, {})] }, by decide +kernel⟩⟩

/-- A cold module with any image: its signature holds or it does not. -/
theorem witness_ModuleServes :
    (∀ fw sig, MetF (fun f => f.units.service = .none ∧ Config.slhVerify Config.vendorKey fw sig = true) ∨
      MetF (fun f => f.units.service = .none ∧ Config.slhVerify Config.vendorKey fw sig = false)) ∧
    (∃ enabled expanders, trained enabled expanders = true ∧ MetF (fun f => f.units.service = .reduced)) ∧
    (∃ (s : State) (port : Nat), port < s.fab.units.expanders.length ∧ port ∉ s.fab.units.failed) ∧
    (∃ step, 4 ≤ step ∧ MetF (fun f => f.units.serves = true ∧ step ≤ f.units.topStep ∧
      (step + 1 = f.units.clock ∨ step = f.units.clock + 1))) ∧
    (∃ s : State, s.fab.units.serves = true) ∧ ∃ time : Word, field time.toNat 31 0 < 1000000000 :=
  ⟨fun fw sig => by
      cases h : Config.slhVerify Config.vendorKey fw sig
      · exact .inr ⟨{}, rfl, rfl⟩
      · exact .inl ⟨{}, rfl, rfl⟩,
   ⟨List.range 32, [], by decide +kernel, fab {} { service := .reduced }, rfl⟩,
   ⟨⟨{}, fab {} { expanders := [16] }, {}⟩, 0, by decide +kernel, by decide +kernel⟩,
   ⟨4, by decide, fab {} { service := .full, clock := 5 }, by decide +kernel⟩, ⟨⟨{}, fab {} { service := .reduced }, {}⟩, by decide +kernel⟩,
   999999999, by decide +kernel⟩

/-- An outcome that is a next state. -/
theorem nextOf {σ φ ρ : Type} {o : Host.Outcome σ φ ρ} (h : (match o with | .next _ => true | _ => false) = true) : ∃ t, o = .next t := by
  cases o with
  | next t => exact ⟨t, rfl⟩
  | fault x => cases h
  | refused x => cases h

theorem witness_DecodeOfEncode : ∃ i, WellFormed i := ⟨.add ⟨2, 5, 0, 5, 15, 0x084, 0x3BF, 0xFFFF⟩, by decide +kernel⟩

theorem witness_EncodeOfDecode : (∃ w lit i, decodeWord w lit = .ok i) ∧ ∃ w lit f, decodeWord w lit = .ok (.lit f) :=
  ⟨⟨0x224FD80000000000, 0, .nop ⟨0, 15, 6, 6, 0, 0, 0, 0⟩, rfl⟩,
   0x220E000810000000, 0x3F800000BF800000, ⟨0, 14, 0x081, 0, 0x3F800000BF800000⟩, rfl⟩

theorem witness_StepsKeepMemoryCanonical : ∃ s t, step s = .next t ∧ s.mem.wf := by
  obtain ⟨t, h⟩ : ∃ t, step { State.reset with run := { turns := [.elapse 1] } } = .next t := nextOf (by decide +kernel)
  exact ⟨_, t, h, by decide +kernel⟩

theorem witness_IntegerElements :
    ∃ i x r f, resultOf i x = some r ∧ (exactOf i 0 0 0).map Prod.fst = some f ∧ f.ty.toNat < 8 :=
  ⟨.add ⟨0, 7, 0, 0, 4, 0, 0, 0⟩, inA (.add ⟨0, 7, 0, 0, 4, 0, 0, 0⟩), _, _, rfl, rfl, by decide⟩

theorem witness_ShiftsReduce : ∃ f : DFields, f.ty.toNat < 8 := ⟨⟨0, 7, 0, 0, 0, 0, 0, 0⟩, by decide⟩

theorem witness_MovhBuilds : ∃ (f : DFields) (e : Nat), tyBits f.ty = 16 ∧ e < laneCount f.ty f.mod :=
  ⟨⟨0, 13, 0, 0, 0, 0, 0, 0⟩, 31, by decide +kernel⟩

theorem witness_SignsAlone :
    ∃ (f : DFields) (a : Row) (e e' : Nat), (f.ty = 12 ∨ f.ty = 13 ∨ f.ty = 14) ∧ e < laneCount f.ty f.mod ∧
      e' < laneCount f.ty f.mod ∧ 2 ^ (tyBits f.ty - 1) - 2 ^ (fmtOf f.ty).mb < elem (tyBits f.ty) a e % 2 ^ (tyBits f.ty - 1) ∧
      ¬ 2 ^ (tyBits f.ty - 1) - 2 ^ (fmtOf f.ty).mb < elem (tyBits f.ty) a e' % 2 ^ (tyBits f.ty - 1) :=
  ⟨⟨0, 14, 0, 0, 0, 0, 0, 0⟩, 0xFF8000017F800000, 1, 0, .inr (.inr rfl), by decide +kernel, by decide +kernel, by decide +kernel, by decide +kernel⟩

theorem witness_ScalarWritesZero :
    ∃ i x r f e, resultOf i x = some r ∧ fieldsOf i = some (.d f) ∧ (shapeIn i).mods / 8 % 2 = 1 ∧ f.mod.getLsbD 3 = true ∧ 1 ≤ e :=
  ⟨.add ⟨0, 0, 0, 0, 8, 0, 0, 0⟩, inA (.add ⟨0, 0, 0, 0, 8, 0, 0, 0⟩), _, _, 63, rfl, rfl, by decide +kernel, by decide +kernel, by decide⟩

theorem witness_BitwiseOnEveryBit :
    (∃ f : DFields, f.mod.getLsbD 3 = false) ∧ (∃ f : DFields, f.mod.getLsbD 3 = true) ∧
    ∃ i f, i = Instr.and f ∨ i = .or f ∨ i = .xor f ∨ i = .andn f ∨ i = .not f :=
  ⟨⟨⟨0, 15, 0, 0, 7, 0, 0, 0⟩, rfl⟩, ⟨⟨0, 15, 0, 0, 8, 0, 0, 0⟩, rfl⟩, .not ⟨0, 15, 0, 0, 0, 0, 0, 0⟩, _,
   .inr (.inr (.inr (.inr rfl)))⟩

theorem witness_ComparesWriteOnes : ∃ f : DFields, f.ty.toNat < 8 := ⟨⟨0, 7, 0, 0, 0, 0, 0, 0⟩, by decide⟩

theorem witness_WcntDescribesWindow :
    ∃ w s who slot e b n, Issues s who slot (.wcnt w) e b ∧ (s.fab.core who.core).winOf who w.port.toNat = some n :=
  ⟨⟨0, 14, 0, 0, 0, 0, 0, 0, 0⟩, stateWith {} { plane := { ports := [(0, ⟨3, false, 1⟩)], wins := [(3, ⟨0, 4, 0, 0, none⟩)] }, wins := [(3, { f := 2 })] } {} A (.wcnt ⟨0, 14, 0, 0, 0, 0, 0, 0, 0⟩) (ran 0 0 0), A, 0, _, _, 3, issues (by decide +kernel), by decide +kernel⟩

theorem witness_OnlyTheseWriteMemory : ∃ s t, step s = .next t ∧ t.mem ≠ s.mem := by
  have h : (match step ⟨{}, { units := { stores := [{ id := 1, cycle := 0, core := 0, pe := 0, whos := [], region := 0, lanes := [{ va := 0, pa := 0, n := 8, data := 0x1122334455667788 }], arrived := [0] }] } }, { turns := [.event (.storeUnitPerform 1)] }⟩ with
      | .next t => decide (t.mem ≠ {})
      | _ => false) = true := by decide +kernel
  revert h
  cases hs : step ⟨{}, { units := { stores := [{ id := 1, cycle := 0, core := 0, pe := 0, whos := [], region := 0, lanes := [{ va := 0, pa := 0, n := 8, data := 0x1122334455667788 }], arrived := [0] }] } }, { turns := [.event (.storeUnitPerform 1)] }⟩ with
  | next t => intro h; exact ⟨_, t, hs, of_decide_eq_true h⟩
  | fault x => intro h; cases h
  | refused x => intro h; cases h

theorem witness_StepRunsDecodedPart :
    ∃ (s : State) (who : Agent) (r : List Turn) (e : Exec) (b : Block) (pre : List Instr) (i : Instr) (post : List Instr),
      s.run.turns = .issue who (pre.flatMap encode).length :: r ∧ (s.fab.core who.core).exec who = some e ∧
      (s.fab.core who.core).blockOf who e = some b ∧ b.words = (pre ++ i :: post).flatMap encode ∧
      ∀ j ∈ pre ++ i :: post, WellFormed j :=
  ⟨{ stateWith {} {} {} S (.nop ⟨0, 15, 6, 6, 0, 0, 0, 0⟩) (ran 0 0 0) with run := { turns := [.issue S 0] } }, S, [], ran 0 0 0, ⟨0, encode (.nop ⟨0, 15, 6, 6, 0, 0, 0, 0⟩)⟩, [],
   (.nop ⟨0, 15, 6, 6, 0, 0, 0, 0⟩), [], by decide +kernel, by decide +kernel, by decide +kernel, by decide +kernel, by decide +kernel⟩

/-- The turn drawn when none is chosen ahead is an event, an issue or the passing of cycles: the model does not say which (log entry 2). -/
theorem witness_TurnsHappen :
    (∃ (s : State) (i : Instr) (r : List Turn), s.run.turns = .event i :: r) ∧
    (∃ (s : State) (n : Nat) (r : List Turn), s.run.turns = .elapse n :: r) ∧
    ∀ n, (∃ i, Config.turn n = .event i) ∨ (∃ who slot, Config.turn n = .issue who slot) ∨ ∃ k, Config.turn n = .elapse k :=
  ⟨⟨⟨{}, {}, { turns := [.event .thermalStop] }⟩, _, _, rfl⟩, ⟨⟨{}, {}, { turns := [.elapse 1] }⟩, _, _, rfl⟩,
   fun n => by
     cases Config.turn n with
     | event i => exact .inl ⟨i, rfl⟩
     | issue who slot => exact .inr (.inl ⟨who, slot, rfl⟩)
     | elapse k => exact .inr (.inr ⟨k, rfl⟩)⟩

theorem witness_FiringsActAtCommit :
    ∃ i s t c a slot, actsAtCommit i = true ∧ s.run.acting = some (Agent.actor c a, slot) ∧ exec i s = .next t := by
  obtain ⟨t, h⟩ := nextOf (o := exec (.nop ⟨0, 15, 6, 6, 0, 0, 0, 0⟩) (stateWith {} {} {} A (.nop ⟨0, 15, 6, 6, 0, 0, 0, 0⟩) (ran 0 0 0))) (by decide +kernel)
  exact ⟨_, _, t, 0, 0, 0, by decide +kernel, rfl, h⟩

theorem witness_BlocksActAtTheirEnd :
    ∃ i s t c slot, actsAtBlockEnd i = true ∧ s.run.acting = some (Agent.seq c, slot) ∧ exec i s = .next t := by
  obtain ⟨t, h⟩ := nextOf (o := exec (.nop ⟨0, 15, 6, 6, 0, 0, 0, 0⟩) (stateWith {} {} {} S (.nop ⟨0, 15, 6, 6, 0, 0, 0, 0⟩) (ran 0 0 0))) (by decide +kernel)
  exact ⟨_, _, t, 0, 0, by decide +kernel, rfl, h⟩

theorem witness_StoresWriteTheirBytesPart :
    ∃ (s t : State) (id : Nat) (u : StoreUnit) (pre : List MemLane) (l : MemLane) (post : List MemLane) (j : Nat),
      s.fab.units.stores.find? (fun u => u.id = id) = some u ∧ u.performed = false ∧ s.fab.holdsAll u = true ∧
      (s.fab.region u.region).redo = [] ∧
      exec (.storeUnitPerform id) s = .next t ∧ u.lanes = pre ++ l :: post ∧ l.op = 0 ∧ j < l.n ∧
      ∀ x ∈ post, Outside (l.pa + j) x := by
  obtain ⟨t, h⟩ := nextOf (o := exec (.storeUnitPerform 1) ⟨{}, { units := { stores := [{ id := 1, cycle := 0, core := 0, pe := 0, whos := [], region := 0, lanes := [{ va := 0, pa := 0, n := 8, data := 0x1122334455667788 }], arrived := [0] }] } }, {}⟩) (by decide +kernel)
  exact ⟨_, t, 1, { id := 1, cycle := 0, core := 0, pe := 0, whos := [], region := 0, lanes := [{ va := 0, pa := 0, n := 8, data := 0x1122334455667788 }], arrived := [0] }, [], _, [], 7, by decide +kernel, by decide +kernel, by decide +kernel, by decide +kernel, h, rfl, rfl, by decide, fun _ hx => absurd hx List.not_mem_nil⟩

theorem witness_MemoryLittleEndian : (∃ i n : Nat, i < n) ∧ ∃ c a n : Nat, c < a ∨ a + n ≤ c := ⟨⟨7, 8, by decide⟩, 8, 0, 8, by decide⟩

theorem witness_ResetValues : ∃ num : Nat, num = 0x010 ∨ num = 0x030 := ⟨0x10, .inl rfl⟩

theorem witness_SealedFramesKept : ∃ m x ctx va t, Machine.translate m x ctx va = .ok t ∧ bitOf t.attr 4 = false :=
  ⟨pages inHearth, {}, 1, 0, ⟨1, 0, 65536, 0x50000, 0x30000, 0x3, 0, 0, 0⟩, by decide +kernel, by decide +kernel⟩

/-! ### Words of Table 4-10, laid out by Tables 4-4 to 4-9: every field with a value of its own, one theorem a row -/

theorem test_words_000 :
    [0x002E8E4A55688CE1, 0x006E8E4A55688CE1, 0x00AE8E4A55688CE1, 0x00EE8E4A55688CE1, 0x012E8E4A55688CE1, 0x016E8E4A55688CE1,
     0x01AE8E4A55688CE1, 0x01EE8E4A55688CE1, 0x022E8E4A55688CE1, 0x026E8E4A55688CE1, 0x02AE8E4A55688CE1, 0x02EE8E4A55688CE1,
     0x032E8E4A55688CE1, 0x036E8E4A55688CE1, 0x03AE8E4A55688CE1].map (decodeTableWord 64) =
      [some (.add ⟨2, 14, 4, 3, 9, 0x0A5, 0x15A, 0x8CE1⟩), some (.sub ⟨2, 14, 4, 3, 9, 0x0A5, 0x15A, 0x8CE1⟩),
       some (.mul ⟨2, 14, 4, 3, 9, 0x0A5, 0x15A, 0x8CE1⟩), some (.mulh ⟨2, 14, 4, 3, 9, 0x0A5, 0x15A, 0x8CE1⟩),
       some (.mad ⟨2, 14, 4, 3, 9, 0x0A5, 0x15A, 0x8CE1⟩), some (.quo ⟨2, 14, 4, 3, 9, 0x0A5, 0x15A, 0x8CE1⟩),
       some (.rem ⟨2, 14, 4, 3, 9, 0x0A5, 0x15A, 0x8CE1⟩), some (.neg ⟨2, 14, 4, 3, 9, 0x0A5, 0x15A, 0x8CE1⟩),
       some (.abs ⟨2, 14, 4, 3, 9, 0x0A5, 0x15A, 0x8CE1⟩), some (.min ⟨2, 14, 4, 3, 9, 0x0A5, 0x15A, 0x8CE1⟩),
       some (.max ⟨2, 14, 4, 3, 9, 0x0A5, 0x15A, 0x8CE1⟩), some (.clamp ⟨2, 14, 4, 3, 9, 0x0A5, 0x15A, 0x8CE1⟩),
       some (.adds ⟨2, 14, 4, 3, 9, 0x0A5, 0x15A, 0x8CE1⟩), some (.subs ⟨2, 14, 4, 3, 9, 0x0A5, 0x15A, 0x8CE1⟩),
       some (.dot4 ⟨2, 14, 4, 3, 9, 0x0A5, 0x15A, 0x8CE1⟩)] := by
  decide +kernel

theorem test_words_040 :
    [0x102E8E4A55688CE1, 0x106E8E4A55688CE1, 0x10AE8E4A55688CE1, 0x10EE8E4A55688CE1, 0x112E8E4A55688CE1, 0x116E8E4A55688CE1,
     0x11AE8E4A55688CE1, 0x11EE8E4A55688CE1, 0x122E8E4A55688CE1, 0x126E8E4A55688CE1, 0x12AE8E4A55688CE1, 0x12EE8E4A55688CE1,
     0x132E8E4A55688CE1].map (decodeTableWord 64) =
      [some (.and ⟨2, 14, 4, 3, 9, 0x0A5, 0x15A, 0x8CE1⟩), some (.or ⟨2, 14, 4, 3, 9, 0x0A5, 0x15A, 0x8CE1⟩),
       some (.xor ⟨2, 14, 4, 3, 9, 0x0A5, 0x15A, 0x8CE1⟩), some (.andn ⟨2, 14, 4, 3, 9, 0x0A5, 0x15A, 0x8CE1⟩),
       some (.not ⟨2, 14, 4, 3, 9, 0x0A5, 0x15A, 0x8CE1⟩), some (.shl ⟨2, 14, 4, 3, 9, 0x0A5, 0x15A, 0x8CE1⟩),
       some (.shr ⟨2, 14, 4, 3, 9, 0x0A5, 0x15A, 0x8CE1⟩), some (.sra ⟨2, 14, 4, 3, 9, 0x0A5, 0x15A, 0x8CE1⟩),
       some (.rotl ⟨2, 14, 4, 3, 9, 0x0A5, 0x15A, 0x8CE1⟩), some (.clz ⟨2, 14, 4, 3, 9, 0x0A5, 0x15A, 0x8CE1⟩),
       some (.popc ⟨2, 14, 4, 3, 9, 0x0A5, 0x15A, 0x8CE1⟩), some (.bfx ⟨2, 14, 4, 3, 9, 0x0A5, 0x15A, 0x8CE1⟩),
       some (.bfi ⟨2, 14, 4, 3, 9, 0x0A5, 0x15A, 0x8CE1⟩)] := by
  decide +kernel

theorem test_words_080 :
    [0x202E8E4A55688CE1, 0x206E8E4A55688CE1, 0x20AE8E4A55688CE1, 0x20EE8E4A55688CE1, 0x212E8E4A55688CE1, 0x216E8E4A55688CE1,
     0x21AE8E4A55688CE1, 0x21EE8E4A55688CE1].map (decodeTableWord 64) =
      [some (.cmpeq ⟨2, 14, 4, 3, 9, 0x0A5, 0x15A, 0x8CE1⟩), some (.cmpne ⟨2, 14, 4, 3, 9, 0x0A5, 0x15A, 0x8CE1⟩),
       some (.cmplt ⟨2, 14, 4, 3, 9, 0x0A5, 0x15A, 0x8CE1⟩), some (.cmple ⟨2, 14, 4, 3, 9, 0x0A5, 0x15A, 0x8CE1⟩),
       some (.sel ⟨2, 14, 4, 3, 9, 0x0A5, 0x15A, 0x8CE1⟩), some (.mov ⟨2, 14, 4, 3, 9, 0x0A5, 0x15A, 0x8CE1⟩),
       some (.movi ⟨2, 14, 4, 3, 9, 0x0A5, 0x15A, 0x8CE1⟩), some (.movh ⟨2, 14, 4, 3, 9, 0x0A5, 0x15A, 0x8CE1⟩)] := by
  decide +kernel

theorem test_words_088 :
    [0x0123456789ABCDEF222E000A55680000].map (decodeTableWord 128) =
      [some (.lit ⟨2, 14, 0x0A5, 0x15A, 0x0123456789ABCDEF⟩)] := by
  decide +kernel

theorem test_words_089 :
    [0x226E8E4A55688CE1].map (decodeTableWord 64) =
      [some (.nop ⟨2, 14, 4, 3, 9, 0x0A5, 0x15A, 0x8CE1⟩)] := by
  decide +kernel

theorem test_words_0C0 :
    [0x302E8E4A55688CE1, 0x306E8E4A55688CE1, 0x30AE8E4A55688CE1, 0x30EE8E4A55688CE1, 0x312E8E4A55688CE1, 0x316E8E4A55688CE1,
     0x31AE8E4A55688CE1, 0x31EE8E4A55688CE1, 0x322E8E4A55688CE1, 0x326E8E4A55688CE1, 0x32AE8E4A55688CE1, 0x32EE8E4A55688CE1,
     0x332E8E4A55688CE1, 0x336E8E4A55688CE1, 0x33AE8E4A55688CE1, 0x33EE8E4A55688CE1].map (decodeTableWord 64) =
      [some (.fadd ⟨2, 14, 4, 3, 9, 0x0A5, 0x15A, 0x8CE1⟩), some (.fsub ⟨2, 14, 4, 3, 9, 0x0A5, 0x15A, 0x8CE1⟩),
       some (.fmul ⟨2, 14, 4, 3, 9, 0x0A5, 0x15A, 0x8CE1⟩), some (.fma ⟨2, 14, 4, 3, 9, 0x0A5, 0x15A, 0x8CE1⟩),
       some (.fnma ⟨2, 14, 4, 3, 9, 0x0A5, 0x15A, 0x8CE1⟩), some (.fmin ⟨2, 14, 4, 3, 9, 0x0A5, 0x15A, 0x8CE1⟩),
       some (.fmax ⟨2, 14, 4, 3, 9, 0x0A5, 0x15A, 0x8CE1⟩), some (.fabs ⟨2, 14, 4, 3, 9, 0x0A5, 0x15A, 0x8CE1⟩),
       some (.fneg ⟨2, 14, 4, 3, 9, 0x0A5, 0x15A, 0x8CE1⟩), some (.fcmpeq ⟨2, 14, 4, 3, 9, 0x0A5, 0x15A, 0x8CE1⟩),
       some (.fcmplt ⟨2, 14, 4, 3, 9, 0x0A5, 0x15A, 0x8CE1⟩), some (.fcmple ⟨2, 14, 4, 3, 9, 0x0A5, 0x15A, 0x8CE1⟩),
       some (.fcmpun ⟨2, 14, 4, 3, 9, 0x0A5, 0x15A, 0x8CE1⟩), some (.fclass ⟨2, 14, 4, 3, 9, 0x0A5, 0x15A, 0x8CE1⟩),
       some (.fscale ⟨2, 14, 4, 3, 9, 0x0A5, 0x15A, 0x8CE1⟩), some (.fdiv ⟨2, 14, 4, 3, 9, 0x0A5, 0x15A, 0x8CE1⟩)] := by
  decide +kernel

theorem test_words_100 :
    [0x402E8E4A55688CE1, 0x406E8E4A55688CE1, 0x40AE8E4A55688CE1, 0x40EE8E4A55688CE1, 0x412E8E4A55688CE1, 0x416E8E4A55688CE1,
     0x41AE8E4A55688CE1].map (decodeTableWord 64) =
      [some (.frcp ⟨2, 14, 4, 3, 9, 0x0A5, 0x15A, 0x8CE1⟩), some (.frsq ⟨2, 14, 4, 3, 9, 0x0A5, 0x15A, 0x8CE1⟩),
       some (.fsqrt ⟨2, 14, 4, 3, 9, 0x0A5, 0x15A, 0x8CE1⟩), some (.fexp2 ⟨2, 14, 4, 3, 9, 0x0A5, 0x15A, 0x8CE1⟩),
       some (.flog2 ⟨2, 14, 4, 3, 9, 0x0A5, 0x15A, 0x8CE1⟩), some (.fsig ⟨2, 14, 4, 3, 9, 0x0A5, 0x15A, 0x8CE1⟩),
       some (.ftanh ⟨2, 14, 4, 3, 9, 0x0A5, 0x15A, 0x8CE1⟩)] := by
  decide +kernel

theorem test_words_110 :
    [0x442E8E4A55688CE1, 0x446E8E4A55688CE1, 0x44AE8E4A55688CE1, 0x44EE8E4A55688CE1].map (decodeTableWord 64) =
      [some (.cvt ⟨2, 14, 4, 3, 9, 0x0A5, 0x15A, 0x8CE1⟩), some (.cvts ⟨2, 14, 4, 3, 9, 0x0A5, 0x15A, 0x8CE1⟩),
       some (.pack ⟨2, 14, 4, 3, 9, 0x0A5, 0x15A, 0x8CE1⟩), some (.unpk ⟨2, 14, 4, 3, 9, 0x0A5, 0x15A, 0x8CE1⟩)] := by
  decide +kernel

theorem test_words_140 :
    [0x502E8E4A55688CE1, 0x506E8E4A55688CE1, 0x50AE8E4A55688CE1, 0x50EE8E4A55688CE1, 0x512E8E4A55688CE1, 0x516E8E4A55688CE1,
     0x51AE8E4A55688CE1, 0x51EE8E4A55688CE1, 0x522E8E4A55688CE1].map (decodeTableWord 64) =
      [some (.bcast ⟨2, 14, 4, 3, 9, 0x0A5, 0x15A, 0x8CE1⟩), some (.shuf ⟨2, 14, 4, 3, 9, 0x0A5, 0x15A, 0x8CE1⟩),
       some (.rotx ⟨2, 14, 4, 3, 9, 0x0A5, 0x15A, 0x8CE1⟩), some (.lane ⟨2, 14, 4, 3, 9, 0x0A5, 0x15A, 0x8CE1⟩),
       some (.insl ⟨2, 14, 4, 3, 9, 0x0A5, 0x15A, 0x8CE1⟩), some (.redadd ⟨2, 14, 4, 3, 9, 0x0A5, 0x15A, 0x8CE1⟩),
       some (.redmax ⟨2, 14, 4, 3, 9, 0x0A5, 0x15A, 0x8CE1⟩), some (.redmin ⟨2, 14, 4, 3, 9, 0x0A5, 0x15A, 0x8CE1⟩),
       some (.scan ⟨2, 14, 4, 3, 9, 0x0A5, 0x15A, 0x8CE1⟩)] := by
  decide +kernel

theorem test_words_180 :
    [0x602E8E4A5568BABC, 0x606E8E4A5568BABC, 0x60AE8E4A5568BABC, 0x60EE8E4A5568BABC, 0x612E8E4A5568BABC,
     0x616E8E4A5568BABC].map (decodeTableWord 64) =
      [some (.wrd ⟨2, 14, 4, 3, 9, 0x0A5, 0x15A, 11, 0xABC⟩), some (.wrdx ⟨2, 14, 4, 3, 9, 0x0A5, 0x15A, 11, 0xABC⟩),
       some (.wupd ⟨2, 14, 4, 3, 9, 0x0A5, 0x15A, 11, 0xABC⟩), some (.wfil ⟨2, 14, 4, 3, 9, 0x0A5, 0x15A, 11, 0xABC⟩),
       some (.wshr ⟨2, 14, 4, 3, 9, 0x0A5, 0x15A, 11, 0xABC⟩), some (.wcnt ⟨2, 14, 4, 3, 9, 0x0A5, 0x15A, 11, 0xABC⟩)] := by
  decide +kernel

theorem test_words_186 :
    [0x61AE8E4A556AB9D6, 0x61EE8E4A556AB9D6].map (decodeTableWord 64) =
      [some (.wsave ⟨2, 14, 4, 3, 9, 0x0A5, 0x15A, 0x2B, 0x9D, 6⟩), some (.wrest ⟨2, 14, 4, 3, 9, 0x0A5, 0x15A, 0x2B, 0x9D, 6⟩)] := by
  decide +kernel

theorem test_words_190 :
    [0x642E8E4A55688CE1].map (decodeTableWord 64) =
      [some (.hget ⟨2, 14, 4, 3, 9, 0x0A5, 0x15A, 0x8CE1⟩)] := by
  decide +kernel

theorem test_words_198 :
    [0x662E8E4A55688CE1, 0x666E8E4A55688CE1, 0x66AE8E4A55688CE1, 0x66EE8E4A55680034, 0x66EE8E4A55680434, 0x66EE8E4A55680834,
     0x672E8E4A55688CE1].map (decodeTableWord 64) =
      [some (.ard ⟨2, 14, 4, 3, 9, 0x0A5, 0x15A, 0x8CE1⟩), some (.awr ⟨2, 14, 4, 3, 9, 0x0A5, 0x15A, 0x8CE1⟩),
       some (.aacc ⟨2, 14, 4, 3, 9, 0x0A5, 0x15A, 0x8CE1⟩), some (.apatchSet ⟨2, 14, 4, 3, 9, 0x0A5, 0x15A, 0x0034⟩),
       some (.apatchAdd ⟨2, 14, 4, 3, 9, 0x0A5, 0x15A, 0x0434⟩), some (.apatchScale ⟨2, 14, 4, 3, 9, 0x0A5, 0x15A, 0x0834⟩),
       some (.aclr ⟨2, 14, 4, 3, 9, 0x0A5, 0x15A, 0x8CE1⟩)] := by
  decide +kernel

theorem test_words_1C0 :
    [0x702E8E4A556A8CE1, 0x706E8E4A556A8CE1, 0x70AE8E4A556A8CE1, 0x70EE8E4A556A8CE1, 0x712E8E4A556A8CE1, 0x716E8E4A556A8CE1,
     0x71AE8E4A556A8CE1, 0x71EE8E4A556A8CE1].map (decodeTableWord 64) =
      [some (.ld ⟨2, 14, 4, 3, 9, 0x0A5, 0x15A, 2, 0x8CE1⟩), some (.ld2 ⟨2, 14, 4, 3, 9, 0x0A5, 0x15A, 2, 0x8CE1⟩),
       some (.lds ⟨2, 14, 4, 3, 9, 0x0A5, 0x15A, 2, 0x8CE1⟩), some (.st ⟨2, 14, 4, 3, 9, 0x0A5, 0x15A, 2, 0x8CE1⟩),
       some (.sts ⟨2, 14, 4, 3, 9, 0x0A5, 0x15A, 2, 0x8CE1⟩), some (.gath ⟨2, 14, 4, 3, 9, 0x0A5, 0x15A, 2, 0x8CE1⟩),
       some (.scat ⟨2, 14, 4, 3, 9, 0x0A5, 0x15A, 2, 0x8CE1⟩), some (.pref ⟨2, 14, 4, 3, 9, 0x0A5, 0x15A, 2, 0x8CE1⟩)] := by
  decide +kernel

theorem test_words_200 :
    [0x802E8E4A556A8CE1, 0x806E8E4A556A8CE1, 0x80AE8E4A556A8CE1, 0x80EE8E4A556A8CE1, 0x812E8E4A556A8CE1, 0x816E8E4A556A8CE1,
     0x81AE8E4A556A8CE1, 0x81EE8E4A556A8CE1, 0x822E8E4A556A8CE1, 0x826E8E4A556A8CE1].map (decodeTableWord 64) =
      [some (.atadd ⟨2, 14, 4, 3, 9, 0x0A5, 0x15A, 2, 0x8CE1⟩), some (.atfadd ⟨2, 14, 4, 3, 9, 0x0A5, 0x15A, 2, 0x8CE1⟩),
       some (.atmin ⟨2, 14, 4, 3, 9, 0x0A5, 0x15A, 2, 0x8CE1⟩), some (.atmax ⟨2, 14, 4, 3, 9, 0x0A5, 0x15A, 2, 0x8CE1⟩),
       some (.atfmax ⟨2, 14, 4, 3, 9, 0x0A5, 0x15A, 2, 0x8CE1⟩), some (.atand ⟨2, 14, 4, 3, 9, 0x0A5, 0x15A, 2, 0x8CE1⟩),
       some (.ator ⟨2, 14, 4, 3, 9, 0x0A5, 0x15A, 2, 0x8CE1⟩), some (.atxor ⟨2, 14, 4, 3, 9, 0x0A5, 0x15A, 2, 0x8CE1⟩),
       some (.atxch ⟨2, 14, 4, 3, 9, 0x0A5, 0x15A, 2, 0x8CE1⟩), some (.atcas ⟨2, 14, 4, 3, 9, 0x0A5, 0x15A, 2, 0x8CE1⟩)] := by
  decide +kernel

theorem test_words_240 :
    [0x902E8E4A55688CE1, 0x906E8E4A55688CE1].map (decodeTableWord 64) =
      [some (.fence ⟨2, 14, 4, 3, 9, 0x0A5, 0x15A, 0x8CE1⟩), some (.xfence ⟨2, 14, 4, 3, 9, 0x0A5, 0x15A, 0x8CE1⟩)] := by
  decide +kernel

theorem test_words_242 :
    [0x90AE8E4A55688CE1, 0x90EE8E4A55688CE1].map (decodeTableWord 64) =
      [some (.tset ⟨2, 14, 4, 3, 9, 0x0A5, 0x15A, 0x8CE1⟩), some (.tget ⟨2, 14, 4, 3, 9, 0x0A5, 0x15A, 0x8CE1⟩)] := by
  decide +kernel

theorem test_words_244 :
    [0x912E8E4A55688CE1].map (decodeTableWord 64) =
      [some (.bara ⟨2, 14, 4, 3, 9, 0x0A5, 0x15A, 0x8CE1⟩)] := by
  decide +kernel

theorem test_words_245 :
    [0x916E8E4A55688CE1, 0x91AE8E4A55688CE1, 0x91EE8E4A55688CE1].map (decodeTableWord 64) =
      [some (.barw ⟨2, 14, 4, 3, 9, 0x0A5, 0x15A, 0x8CE1⟩), some (.baraw ⟨2, 14, 4, 3, 9, 0x0A5, 0x15A, 0x8CE1⟩),
       some (.waitc ⟨2, 14, 4, 3, 9, 0x0A5, 0x15A, 0x8CE1⟩)] := by
  decide +kernel

theorem test_words_280 :
    [0xA02E8E4A55688CE1, 0xA06E8E4A55688CE1, 0xA0AE8E4A55688CE1, 0xA0EE8E4A55688CE1, 0xA12E8E4A55688CE1].map (decodeTableWord 64) =
      [some (.br ⟨2, 14, 4, 3, 9, 0x0A5, 0x15A, 0x8CE1⟩), some (.brc ⟨2, 14, 4, 3, 9, 0x0A5, 0x15A, 0x8CE1⟩),
       some (.brx ⟨2, 14, 4, 3, 9, 0x0A5, 0x15A, 0x8CE1⟩), some (.call ⟨2, 14, 4, 3, 9, 0x0A5, 0x15A, 0x8CE1⟩),
       some (.ret ⟨2, 14, 4, 3, 9, 0x0A5, 0x15A, 0x8CE1⟩)] := by
  decide +kernel

theorem test_words_285 :
    [0xA16E8E4A55688CE1, 0xA1AE8E4A55688CE1].map (decodeTableWord 64) =
      [some (.grd ⟨2, 14, 4, 3, 9, 0x0A5, 0x15A, 0x8CE1⟩), some (.mfk ⟨2, 14, 4, 3, 9, 0x0A5, 0x15A, 0x8CE1⟩)] := by
  decide +kernel

theorem test_words_287 :
    [0xA1EE8E4A55680123, 0xA1EE8E4A55680030, 0xA1EE8E4A55680034].map (decodeTableWord 64) =
      [some (.mtk ⟨2, 14, 4, 3, 9, 0x0A5, 0x15A, 0x0123⟩), some (.fpxClear ⟨2, 14, 4, 3, 9, 0x0A5, 0x15A, 0x0030⟩),
       some (.wpHitClear ⟨2, 14, 4, 3, 9, 0x0A5, 0x15A, 0x0034⟩)] := by
  decide +kernel

theorem test_words_288 :
    [0xA22E8E4A55688CE1].map (decodeTableWord 64) =
      [some (.trap ⟨2, 14, 4, 3, 9, 0x0A5, 0x15A, 0x8CE1⟩)] := by
  decide +kernel

theorem test_words_289 :
    [0xA26E8E4A55688CE1, 0xA2AE8E4A55688CE1, 0xA2EE8E4A55688CE1].map (decodeTableWord 64) =
      [some (.rft ⟨2, 14, 4, 3, 9, 0x0A5, 0x15A, 0x8CE1⟩), some (.halt ⟨2, 14, 4, 3, 9, 0x0A5, 0x15A, 0x8CE1⟩),
       some (.evwait ⟨2, 14, 4, 3, 9, 0x0A5, 0x15A, 0x8CE1⟩)] := by
  decide +kernel

theorem test_words_2C0 :
    [0xB02E8E4A5568C3A5, 0xB02E8E4A5568C3A8, 0xB06E8E4A5568C3A5, 0xB0AE8E4A5568C3A5].map (decodeTableWord 64) =
      [some (.cactor ⟨2, 14, 4, 3, 9, 0x0A5, 0x15A, 0xC3, 0xA5⟩), some (.cactorUnbind ⟨2, 14, 4, 3, 9, 0x0A5, 0x15A, 0xC3, 0xA8⟩),
       some (.cport ⟨2, 14, 4, 3, 9, 0x0A5, 0x15A, 0xC3, 0xA5⟩), some (.cwin ⟨2, 14, 4, 3, 9, 0x0A5, 0x15A, 0xC3, 0xA5⟩)] := by
  decide +kernel

theorem test_words_2C3 :
    [0xB0EE8E4A5568C3A5].map (decodeTableWord 64) =
      [some (.wgrow ⟨2, 14, 4, 3, 9, 0x0A5, 0x15A, 0xC3, 0xA5⟩)] := by
  decide +kernel

theorem test_words_2C4 :
    [0xB12E8E4A5568C3A5, 0xB16E8E4A5568C3A5, 0xB1AE8E4A5568C3A5, 0xB1EE8E4A5568C3A5, 0xB22E8E4A5568C3A5, 0xB26E8E4A5568C3A5,
     0xB2AE8E4A5568C3A5, 0xB2EE8E4A5568C3A5, 0xB32E8E4A5568C300, 0xB32E8E4A5568C301, 0xB32E8E4A5568C302,
     0xB36E8E4A5568C3A5].map (decodeTableWord 64) =
      [some (.croute ⟨2, 14, 4, 3, 9, 0x0A5, 0x15A, 0xC3, 0xA5⟩), some (.csteer ⟨2, 14, 4, 3, 9, 0x0A5, 0x15A, 0xC3, 0xA5⟩),
       some (.cmerge ⟨2, 14, 4, 3, 9, 0x0A5, 0x15A, 0xC3, 0xA5⟩), some (.ccarry ⟨2, 14, 4, 3, 9, 0x0A5, 0x15A, 0xC3, 0xA5⟩),
       some (.cinv ⟨2, 14, 4, 3, 9, 0x0A5, 0x15A, 0xC3, 0xA5⟩), some (.cchain ⟨2, 14, 4, 3, 9, 0x0A5, 0x15A, 0xC3, 0xA5⟩),
       some (.cloop ⟨2, 14, 4, 3, 9, 0x0A5, 0x15A, 0xC3, 0xA5⟩), some (.cturn ⟨2, 14, 4, 3, 9, 0x0A5, 0x15A, 0xC3, 0xA5⟩),
       some (.cmodeMatrixRectangle ⟨2, 14, 4, 3, 9, 0x0A5, 0x15A, 0xC3, 0x00⟩),
       some (.cmodePatchLogWindow ⟨2, 14, 4, 3, 9, 0x0A5, 0x15A, 0xC3, 0x01⟩),
       some (.cmodeBarrierCount ⟨2, 14, 4, 3, 9, 0x0A5, 0x15A, 0xC3, 0x02⟩),
       some (.cdesc ⟨2, 14, 4, 3, 9, 0x0A5, 0x15A, 0xC3, 0xA5⟩)] := by
  decide +kernel

theorem test_words_2CE :
    [0xB3AE8E4A5568C300, 0xB3AE8E4A5568C301, 0xB3EE8E4A5568C3A5].map (decodeTableWord 64) =
      [some (.cswap ⟨2, 14, 4, 3, 9, 0x0A5, 0x15A, 0xC3, 0x00⟩), some (.cswapDiscard ⟨2, 14, 4, 3, 9, 0x0A5, 0x15A, 0xC3, 0x01⟩),
       some (.cqui ⟨2, 14, 4, 3, 9, 0x0A5, 0x15A, 0xC3, 0xA5⟩)] := by
  decide +kernel

theorem test_words_300 :
    [0xC02E8E4A556AB9D6, 0xC06E8E4A556AB9D6, 0xC0AE8E4A556AB9D6, 0xC0EE8E4A556AB9D6, 0xC12E8E4A556AB9D6,
     0xC16E8E4A556AB9D6].map (decodeTableWord 64) =
      [some (.mxldw ⟨2, 14, 4, 3, 9, 0x0A5, 0x15A, 0x2B, 0x9D, 6⟩), some (.mxsel ⟨2, 14, 4, 3, 9, 0x0A5, 0x15A, 0x2B, 0x9D, 6⟩),
       some (.mxrun ⟨2, 14, 4, 3, 9, 0x0A5, 0x15A, 0x2B, 0x9D, 6⟩), some (.mxstat ⟨2, 14, 4, 3, 9, 0x0A5, 0x15A, 0x2B, 0x9D, 6⟩),
       some (.mxthr ⟨2, 14, 4, 3, 9, 0x0A5, 0x15A, 0x2B, 0x9D, 6⟩),
       some (.mxpeek ⟨2, 14, 4, 3, 9, 0x0A5, 0x15A, 0x2B, 0x9D, 6⟩)] := by
  decide +kernel

theorem test_words_340 :
    [0xD02E8E4A556AB9D1, 0xD02E8E4A556AB9D5, 0xD06E8E4A556AB9D6, 0xD0AE8E4A556AB9D6, 0xD0EE8E4A556AB9D6, 0xD12E8E4A556AB9D0,
     0xD12E8E4A556AB9D1, 0xD16E8E4A556AB9D6].map (decodeTableWord 64) =
      [some (.cpy ⟨2, 14, 4, 3, 9, 0x0A5, 0x15A, 0x2B, 0x9D, 1⟩), some (.cpyChained ⟨2, 14, 4, 3, 9, 0x0A5, 0x15A, 0x2B, 0x9D, 5⟩),
       some (.cpyw ⟨2, 14, 4, 3, 9, 0x0A5, 0x15A, 0x2B, 0x9D, 6⟩), some (.cpyr ⟨2, 14, 4, 3, 9, 0x0A5, 0x15A, 0x2B, 0x9D, 6⟩),
       some (.cpyi ⟨2, 14, 4, 3, 9, 0x0A5, 0x15A, 0x2B, 0x9D, 6⟩), some (.cpypMax ⟨2, 14, 4, 3, 9, 0x0A5, 0x15A, 0x2B, 0x9D, 0⟩),
       some (.cpypAvg ⟨2, 14, 4, 3, 9, 0x0A5, 0x15A, 0x2B, 0x9D, 1⟩),
       some (.cpyf ⟨2, 14, 4, 3, 9, 0x0A5, 0x15A, 0x2B, 0x9D, 6⟩)] := by
  decide +kernel

theorem test_words_348 :
    [0xD22E8E4A556AB9D2, 0xD22E8E4A556AB9D3, 0xD26E8E4A556AB9D6, 0xD2AE8E4A556AB9D0, 0xD2AE8E4A556AB9D1].map (decodeTableWord 64) =
      [some (.strmRead ⟨2, 14, 4, 3, 9, 0x0A5, 0x15A, 0x2B, 0x9D, 2⟩), some (.strmWrite ⟨2, 14, 4, 3, 9, 0x0A5, 0x15A, 0x2B, 0x9D, 3⟩),
       some (.strw ⟨2, 14, 4, 3, 9, 0x0A5, 0x15A, 0x2B, 0x9D, 6⟩), some (.strxStop ⟨2, 14, 4, 3, 9, 0x0A5, 0x15A, 0x2B, 0x9D, 0⟩),
       some (.strxResume ⟨2, 14, 4, 3, 9, 0x0A5, 0x15A, 0x2B, 0x9D, 1⟩)] := by
  decide +kernel

theorem test_words_350 :
    [0xD42E8E4A556AB9D6, 0xD46E8E4A556AB9D6, 0xD4AE8E4A556AB9D6].map (decodeTableWord 64) =
      [some (.tqry ⟨2, 14, 4, 3, 9, 0x0A5, 0x15A, 0x2B, 0x9D, 6⟩), some (.tin ⟨2, 14, 4, 3, 9, 0x0A5, 0x15A, 0x2B, 0x9D, 6⟩),
       some (.tout ⟨2, 14, 4, 3, 9, 0x0A5, 0x15A, 0x2B, 0x9D, 6⟩)] := by
  decide +kernel

theorem test_words_358 :
    [0xD62E8E4A556AB9D6, 0xD66E8E4A556AB9D6, 0xD6AE8E4A556AB9D0, 0xD6AE8E4A556AB9D1, 0xD6AE8E4A556AB9D2].map (decodeTableWord 64) =
      [some (.nsend ⟨2, 14, 4, 3, 9, 0x0A5, 0x15A, 0x2B, 0x9D, 6⟩), some (.nget ⟨2, 14, 4, 3, 9, 0x0A5, 0x15A, 0x2B, 0x9D, 6⟩),
       some (.nredAdd ⟨2, 14, 4, 3, 9, 0x0A5, 0x15A, 0x2B, 0x9D, 0⟩), some (.nredMax ⟨2, 14, 4, 3, 9, 0x0A5, 0x15A, 0x2B, 0x9D, 1⟩),
       some (.nredMin ⟨2, 14, 4, 3, 9, 0x0A5, 0x15A, 0x2B, 0x9D, 2⟩)] := by
  decide +kernel

theorem test_words_360 :
    [0xD82E8E4A556AB9D6].map (decodeTableWord 64) =
      [some (.xinv ⟨2, 14, 4, 3, 9, 0x0A5, 0x15A, 0x2B, 0x9D, 6⟩)] := by
  decide +kernel

theorem test_words_380 :
    [0xE02E8E4A556AB9D0, 0xE02E8E4A556AB9D1].map (decodeTableWord 64) =
      [some (.wpsetDescriptor ⟨2, 14, 4, 3, 9, 0x0A5, 0x15A, 0x2B, 0x9D, 0⟩),
       some (.wpsetRange ⟨2, 14, 4, 3, 9, 0x0A5, 0x15A, 0x2B, 0x9D, 1⟩)] := by
  decide +kernel

theorem test_words_381 :
    [0xE06E8E4A55688CE1, 0xE0AE8E4A55688CE1, 0xE0EE8E4A55680001, 0xE0EE8E4A55680000, 0xE12E8E4A55688CE1, 0xE16E8E4A55688CE1,
     0xE1AE8E4A55680000, 0xE1AE8E4A55680001, 0xE1AE8E4A55680002, 0xE1EE8E4A55688CE1].map (decodeTableWord 64) =
      [some (.wpclr ⟨2, 14, 4, 3, 9, 0x0A5, 0x15A, 0x8CE1⟩), some (.mark ⟨2, 14, 4, 3, 9, 0x0A5, 0x15A, 0x8CE1⟩),
       some (.rwcArm ⟨2, 14, 4, 3, 9, 0x0A5, 0x15A, 0x0001⟩), some (.rwcCancel ⟨2, 14, 4, 3, 9, 0x0A5, 0x15A, 0x0000⟩),
       some (.finj ⟨2, 14, 4, 3, 9, 0x0A5, 0x15A, 0x8CE1⟩), some (.mcrd ⟨2, 14, 4, 3, 9, 0x0A5, 0x15A, 0x8CE1⟩),
       some (.profStart ⟨2, 14, 4, 3, 9, 0x0A5, 0x15A, 0x0000⟩), some (.profStop ⟨2, 14, 4, 3, 9, 0x0A5, 0x15A, 0x0001⟩),
       some (.profRead ⟨2, 14, 4, 3, 9, 0x0A5, 0x15A, 0x0002⟩), some (.walk ⟨2, 14, 4, 3, 9, 0x0A5, 0x15A, 0x8CE1⟩)] := by
  decide +kernel


/-! ### Ill-formed terms: the reason codes of Table 4-11 (R115) -/

/-- A field of a D-format ADD of constants: everything legal. -/
theorem test_wellformed_add : wellFormed (.add ⟨2, 5, 0, 5, 15, 0x084, 0x3BF, 0xFFFF⟩) = true := by decide +kernel

/-- 0x05: the imm16 of an ADD that reads no constant. -/
theorem test_illformed_reserved : wellFormed (.add ⟨0, 5, 0, 0, 0, 0x084, 0, 7⟩) = false := by decide +kernel

/-- 0x05: a source field that MULH does not read is not code 6. -/
theorem test_reason_reserved_source : Machine.wordFails 1 0 10 (.mulh ⟨0, 5, 0, 0, 4, 0x084, 0, 0⟩) = [0x05] := by decide +kernel

/-- 0x06: an event has no opcode. -/
theorem test_illformed_opcode : wellFormed .thermalStop = false ∧ Machine.wordFails 0 0 10 .thermalStop = [0x06] := by
  decide +kernel

/-- 0x07: predicate mode 11. -/
theorem test_illformed_predicate :
    wellFormed (.add ⟨3, 5, 0, 0, 0, 0x084, 0, 0⟩) = false ∧
      Machine.wordFails 0 0 10 (.add ⟨3, 5, 0, 0, 0, 0x084, 0, 0⟩) = [0x07] := by decide +kernel

/-- 0x08: source code 7, and a link source outside an actor block. -/
theorem test_illformed_source :
    wellFormed (.add ⟨0, 5, 7, 0, 0, 0x084, 0, 0⟩) = false ∧
      Machine.wordFails 0 0 10 (.add ⟨0, 5, 1, 0, 0, 0x084, 0, 0⟩) = [0x08] := by decide +kernel

/-- 0x08: OFS 2 of a WRD. -/
theorem test_illformed_offset : Machine.wordFails 1 0 10 (.wrd ⟨0, 14, 6, 2, 0, 0x084, 0, 0, 0⟩) = [0x08] := by decide +kernel

/-- 0x09: a type ADD does not take. -/
theorem test_illformed_type : wellFormed (.add ⟨0, 12, 0, 0, 0, 0x084, 0, 0⟩) = false := by decide +kernel

/-- 0x0A: a target of kind 0 with an index. -/
theorem test_illformed_target : wellFormed (.add ⟨0, 5, 0, 0, 0, 0x084, 1, 0⟩) = false := by decide +kernel

/-- 0x0D: a branch in an actor block. -/
theorem test_reason_kind : Machine.wordFails 1 0 10 (.br ⟨0, 15, 6, 6, 0, 0, 0, 1⟩) = [0x0D] := by decide +kernel

/-- A constructor that its selector field does not name. -/
theorem test_illformed_selector : wellFormed (.mtk ⟨0, 15, 0, 6, 0, 0, 0, 0x030⟩) = false := by decide +kernel

/-! ### Blocks: the manual's own example of chapter 4, and each check that reads more than a word -/

/-- The four words of the example. -/
def halfRow : List Word := [0x600EC00810000000, 0x308E144820003F00, 0x60CF000000001000, 0x610FC00000000001]

theorem test_header_example : (headerOf 1 halfRow).toNat % 2 ^ 96 = 0x000000000000001000000DB7 := by decide +kernel

theorem test_block_example : Block.validate ⟨headerOf 1 halfRow, halfRow⟩ true = none := by decide +kernel

/-- Header checks come first: 0x01, 0x02, 0x03, 0x04 and the set bit [18], slot 0xFF and opcode 0 (R116). -/
theorem test_header_checks :
    Block.validate ⟨headerOf 1 halfRow ^^^ 1, halfRow⟩ true = some 0xFF01 ∧
    Block.validate ⟨headerOf 1 halfRow, halfRow⟩ false = some 0xFF02 ∧
    Block.validate ⟨headerOf 1 halfRow ^^^ (1 <<< 96), halfRow⟩ true = some 0xFF03 ∧
    Block.validate ⟨headerOf 1 halfRow ^^^ (1 <<< 36), halfRow⟩ true = some 0xFF04 ∧
    Block.validate ⟨headerOf 1 halfRow ^^^ (1 <<< 18), halfRow⟩ true = some 0xFF05 := by decide +kernel

/-- 0x0B: the WFIL (0x183) of the example in slot 0 reads an operand that no target names; 0x0F: a NOP alone is no output. -/
theorem test_block_checks :
    Block.validate ⟨headerOf 1 [0x60CF000000001000], [0x60CF000000001000]⟩ true = some 0x0183000B ∧
    Block.validate ⟨headerOf 1 [0x224FD80000000000], [0x224FD80000000000]⟩ true = some 0xFF0F ∧
    Block.validate ⟨headerOf 0 [0x224FD80000000000], [0x224FD80000000000]⟩ false = some 0xFF0C := by decide +kernel

/-- R102: the check value of the nine ASCII digits 1 to 9. -/
theorem test_crc : Machine.crc32c [0x31, 0x32, 0x33, 0x34, 0x35, 0x36, 0x37, 0x38, 0x39] = 0xE3069283 := by decide +kernel

/-! ### Results that the manual works out -/

/-- BFX.s32 with imm16 0x0804 on 0x0F70: −9. -/
theorem test_bfx : elem 32 (aluBfx ⟨0, 5, 0, 6, 0, 0, 0, 0x0804⟩ 0x0F70).1 0 = 0xFFFFFFF7 := by decide +kernel

/-- R153: FEXP2.bf of 0.5. -/
theorem test_fexp2 : elem 16 (aluFexp2 ⟨0, 12, 0, 6, 0, 0, 0, 0⟩ 0x3F00).1 0 = 0x3FB5 := by decide +kernel

/-- The row that `qrow` quantises: CVTS.e4 with the inverse scale of E8 code 128 gives 30 BC 7E 03, with OF, UF and NX. -/
theorem test_cvts :
    aluCvts ⟨0, 8, 0, 0, 0, 0, 0, 0x004E⟩ 0x3C300000447A0000C04000003F800000 0x80 = (0x037EBC30, 0x1C) := by decide +kernel

/-- The f32 elements 2^24, 1, 1 and −2^24. -/
def orderRow : Row := 0xCB8000003F8000003F8000004B800000

/-- R73: the tree of REDADD gives 1.0 with NX. -/
theorem test_redadd : aluRedadd ⟨0, 14, 0, 6, 0, 0, 0, 0⟩ orderRow = (0x3F800000, fNX) := by decide +kernel

/-- R73: the chain of SCAN gives 2^24 in element 1 and +0 in element 15. -/
theorem test_scan :
    elem 32 (aluScan ⟨0, 14, 0, 6, 0, 0, 0, 0⟩ orderRow).1 1 = 0x4B800000 ∧
      elem 32 (aluScan ⟨0, 14, 0, 6, 0, 0, 0, 0⟩ orderRow).1 15 = 0 := by decide +kernel

/-- The levels of the worked group of R70: codes 9, 2, 9, 5 and then 7. -/
def workedLevels : List Nat := [9, 2, 9, 5] ++ List.replicate 60 7

/-- Its activation row: 3, −1, 2.5, 0.5 in e4, then zeros. -/
def workedRow : List FVal := [0x44, 0xB8, 0x42, 0x30].map (valOf 8) ++ List.replicate 60 (valOf 8 0)

/-- Table 2-8: three non-zero steps (3, 2, 2), the base level 2, and y = 7.5. -/
theorem test_worked_group :
    field (sortedRecord 0 workedLevels 0x3F00 7) 541 536 = 3 ∧
    field (sortedRecord 0 workedLevels 0x3F00 7) 459 448 = 0x223 ∧
    field (sortedRecord 0 workedLevels 0x3F00 7) 511 508 = 2 ∧
    groupSorted 0 (sortedRecord 0 workedLevels 0x3F00 7) workedRow = ⟨0x40F00000, false, false⟩ := by decide +kernel
/-- A program's first configuration instruction meets a copy of the active plane. -/
theorem atProgram {k : Core} {u : Units} {i : Instr} {e : Exec} (h : k.kindling = .empty) :
    Configures (stateWith {} k u S i e).fab (gather S 0 i e) k.plane := by
  have hc : (stateWith {} k u S i e).fab.core 0 = coreWith k i e := rfl
  refine ⟨?_, fun c hs => ?_⟩
  · simp only [gather, Agent.core, hc, coreWith, h]
  · cases hs; rw [hc]; simp [coreWith, h]

theorem witness_WindowItemsEnter :
  (∃ m, Met (.cwin m) (fun f x => ∃ p, Configures f x p ∧ m.arg = 0 ∧ argA x 0 < 49152 ∧ 1 ≤ argA x 1 ∧ argA x 1 ≤ 4096 ∧ identOk
    (argA x 2) = true ∧ identOk (argA x 3) = true ∧ Within x 4 ∧ p.overlaps ((f.core x.who.core).stackRows x.who) m.obj.toNat (argA x 0)
    (argA x 1) = false ∧ p.clash m.obj.toNat true (argA x 2) = false ∧ p.clash m.obj.toNat false (argA x 3) = false ∧ ∀ q ∈ p.ports,
    q.2.win = m.obj.toNat → q.2.need ≤ argA x 1)) ∧
  (∃ m c base, Met (.wgrow m) (fun f x => ∃ p, Configures f x p ∧ m.arg = 0 ∧ sfind p.wins m.obj.toNat = some c ∧ c.cap < argA x 0 ∧
    argA x 0 ≤ 4096 ∧ ((argA x 1 = 0xFFFFFFFF ∧ base = c.base) ∨ (argA x 1 < 49152 ∧ base = argA x 1)) ∧ Within x 2 ∧ p.overlaps
    ((f.core x.who.core).stackRows x.who) m.obj.toNat base (argA x 0) = false)) :=
  ⟨⟨⟨0, 15, 0, 0, 0, 0, 0, 3, 0⟩, met { plane := {} } {} S (ran (ofVals 32 [8, 4, 0, 0]) 0 0) (by decide +kernel) (⟨_, atProgram rfl,
    by decide +kernel⟩)⟩,
   ⟨⟨0, 15, 0, 0, 0, 0, 0, 3, 0⟩, ⟨8, 4, 0, 0, none⟩, 8, met { plane := { wins := [(3, ⟨8, 4, 0, 0, none⟩)] } } {} S (ran (ofVals 32
    [5, 0xFFFFFFFF]) 0 0) (by decide +kernel) (⟨_, atProgram rfl, by decide +kernel⟩)⟩⟩

theorem witness_PortItemsEnter :
  (∃ m c, Met (.cport m) (fun f x => ∃ p, Configures f x p ∧ bitOf m.arg.toNat 7 = false ∧ argA x 0 ≤ 255 ∧ argA x 2 = 0 ∧ argA x 3 =
    0 ∧ Within x 4 ∧ sfind p.wins m.obj.toNat = some c ∧ argA x 1 ≤ c.cap ∧ p.heldBy m.obj.toNat (bitOf m.arg.toNat 6) (portOfItem m x)
    (portIdent (portOfItem m x)) = false ∧ Plane.bindFails
    { p with ports := sset p.ports (portOfItem m x) ⟨m.obj.toNat, bitOf m.arg.toNat 6, argA x 1⟩ } ((f.core x.who.core).groupOf x.who)
    (portActor m x) = [])) ∧
  (∃ m, Met (.cport m) (fun f x => ∃ p, Configures f x p ∧ bitOf m.arg.toNat 7 = true ∧ argA x 0 ≤ 255 ∧ 1 ≤ argA x 2 ∧ argA x 2 ≤ 16
    ∧ argA x 3 < 49152 ∧ argA x 1 ≤ argA x 2 ∧ Within x 4 ∧ p.overlaps ((f.core x.who.core).stackRows x.who) m.obj.toNat (argA x 3)
    (argA x 2) = false ∧ Plane.heldBy { p with wins := sset p.wins m.obj.toNat ⟨argA x 3, argA x 2, 0, 0, some (bitOf m.arg.toNat 6)⟩ }
    m.obj.toNat (bitOf m.arg.toNat 6) (portOfItem m x) (portIdent (portOfItem m x)) = false ∧ (∀ q ∈ p.ports, q.2.win = m.obj.toNat →
    q.1 = portOfItem m x) ∧ (bitOf m.arg.toNat 6 = true ∨ p.patchLog ≠ some m.obj.toNat) ∧ Plane.bindFails
    { p with wins := sset p.wins m.obj.toNat ⟨argA x 3, argA x 2, 0, 0, some (bitOf m.arg.toNat 6)⟩, ports := sset p.ports (portOfItem m x) ⟨m.obj.toNat, bitOf m.arg.toNat 6, argA x 1⟩ }
    ((f.core x.who.core).groupOf x.who) (portActor m x) = [])) :=
  ⟨⟨⟨0, 15, 0, 0, 0, 0, 0, 3, 69⟩, ⟨8, 4, 0, 0, none⟩, met { plane := { wins := [(3, ⟨8, 4, 0, 0, none⟩)] } } {} S (ran (ofVals 32 [0,
    2, 0, 0]) 0 0) (by decide +kernel) (⟨_, atProgram rfl, by decide +kernel⟩)⟩,
   ⟨⟨0, 15, 0, 0, 0, 0, 0, 3, 197⟩, met { plane := {} } {} S (ran (ofVals 32 [0, 1, 2, 8]) 0 0) (by decide +kernel) (⟨_, atProgram rfl,
    by decide +kernel⟩)⟩⟩

theorem witness_ActorItemsEnter :
  (∃ m b, Met (.cactor m) (fun f x => ∃ p, Configures f x p ∧ Group.actorBlock ((f.core x.who.core).groupOf x.who) (argA x 0) = some b
    ∧ b.validate true = none ∧ field m.arg.toNat 7 4 = 0 ∧ argA x 1 ≤ 3 ∧ (argA x 2 = 0xFFFFFFFF ∨ argA x 2 ≤ 15) ∧ Within x 3 ∧ (∀ q ∈
    p.actors, q.1 ≠ namedActor m → q.1 / 4 = namedActor m / 4 → ((actorItem m x).links = none ∨ q.2.links ≠ (actorItem m x).links) ∧
    (q.2.store = argA x 1 → q.2.block = argA x 0)) ∧ Plane.bindFails { p with actors := sset p.actors (namedActor m) (actorItem m x) }
    ((f.core x.who.core).groupOf x.who) (namedActor m) = [])) ∧
  (∃ m, Met (.cactorUnbind m) (fun f x => ∃ p, Configures f x p ∧ field m.arg.toNat 7 4 = 0)) :=
  ⟨⟨⟨0, 15, 0, 0, 0, 0, 0, 0, 0⟩, ⟨headerOf 1 halfRow, halfRow⟩, met { group := some (groupWith [⟨headerOf 1 halfRow, halfRow⟩]) } {} S
    (ran (ofVals 32 [1, 0, 0xFFFFFFFF]) 0 0) (by decide +kernel) (⟨_, atProgram rfl, by decide +kernel⟩)⟩,
   ⟨⟨0, 15, 0, 0, 0, 0, 0, 0, 0⟩, met { plane := {} } {} S (ran (ofVals 32 [0]) 0 0) (by decide +kernel) (⟨_, atProgram rfl, by
    decide +kernel⟩)⟩⟩

theorem witness_RouteItemsEnter :
  (∃ m c, Met (.croute m) (fun f x => ∃ p, Configures f x p ∧ field m.arg.toNat 7 1 = 0 ∧ field (argA x 0) 29 12 = 0 ∧ Within x 2 ∧
    (if bitOf m.arg.toNat 0 then argA x 1 = 0 else 1 ≤ argA x 1 ∧ argA x 1 ≤ 64) ∧ field (argA x 0) 31 30 = 0 ∧ field (argA x 0) 11 8 =
    0 ∧ sfind p.wins (field (argA x 0) 7 0) = some c ∧ c.landing = some (!bitOf m.arg.toNat 0) ∧ (p.portOf (field (argA x 0) 7 0)
    (!bitOf m.arg.toNat 0)).isSome = true ∧ (bitOf m.arg.toNat 0 = true → p.patchLog ≠ some (field (argA x 0) 7 0)) ∧ EndFree m x p)) ∧
  (∃ m, Met (.croute m) (fun f x => ∃ p, Configures f x p ∧ field m.arg.toNat 7 1 = 0 ∧ field (argA x 0) 29 12 = 0 ∧ Within x 2 ∧ (if
    bitOf m.arg.toNat 0 then argA x 1 = 0 else 1 ≤ argA x 1 ∧ argA x 1 ≤ 64) ∧ field (argA x 0) 31 30 = (if bitOf m.arg.toNat 0 then 1
    else 2) ∧ field (argA x 0) 7 0 ≤ 63 ∧ field (argA x 0) 11 8 ≤ 2 ∧ (∀ o, sfind p.opers (field (argA x 0) 7 0) = some o → field (argA
    x 0) 11 8 < if bitOf m.arg.toNat 0 then (operPorts o.op).1 else (operPorts o.op).2) ∧ EndFree m x p)) :=
  ⟨⟨⟨0, 15, 0, 0, 0, 0, 0, 2, 1⟩, ⟨8, 2, 0, 0, some false⟩, met
    { plane := { wins := [(3, ⟨8, 2, 0, 0, some false⟩)], ports := [(5, ⟨3, false, 1⟩)] } } {} S (ran (ofVals 32 [3, 0]) 0 0) (by
    decide +kernel) (⟨_, atProgram rfl, by decide +kernel⟩)⟩,
   ⟨⟨0, 15, 0, 0, 0, 0, 0, 2, 0⟩, met { plane := {} } {} S (ran (ofVals 32 [0x80000104, 16]) 0 0) (by decide +kernel) (⟨_, atProgram
    rfl, by decide +kernel⟩)⟩⟩

theorem witness_OperatorItemsEnter :
  (∃ m, Met (.csteer m) (fun f x => ∃ p, Configures f x p ∧ m.obj.toNat ≤ 63 ∧ m.arg = 0 ∧ x.a = 0 ∧ x.b = 0)) ∧
  (∃ m, Met (.cmerge m) (fun f x => ∃ p, Configures f x p ∧ m.obj.toNat ≤ 63 ∧ m.arg = 0 ∧ argA x 0 ≤ 63 ∧ Within x 2)) ∧
  (∃ m, Met (.ccarry m) (fun f x => ∃ p, Configures f x p ∧ m.obj.toNat ≤ 63 ∧ m.arg = 0 ∧ x.a = 0 ∧ x.b = 0)) ∧
  (∃ m, Met (.cinv m) (fun f x => ∃ p, Configures f x p ∧ m.obj.toNat ≤ 63 ∧ m.arg = 0 ∧ x.a = 0 ∧ x.b = 0)) ∧
  (∃ m, Met (.cchain m) (fun f x => ∃ p, Configures f x p ∧ m.obj.toNat ≤ 63 ∧ m.arg = 0 ∧ 1 ≤ argA x 0 ∧ argA x 0 ≤ 4 ∧ 1 ≤ argA x 1
    ∧ argA x 1 ≤ 255 ∧ beyond 3 x.a = false ∧ beyond (3 * argA x 0) x.b = false ∧ (∀ j < argA x 0, elem 32 x.b (3 * j + 2) ≠ 0) ∧ (p.fed
    m.obj.toNat 1 = true → 1 ≤ argA x 2 ∧ argA x 2 ≤ 64))) ∧
  (∃ m, Met (.cloop m) (fun f x => ∃ p, Configures f x p ∧ m.obj.toNat ≤ 63 ∧ field m.arg.toNat 7 3 = 0 ∧ 1 ≤ field m.arg.toNat 2 0 ∧
    1 ≤ argA x 0 ∧ argA x 0 ≤ 255 ∧ Within x 1)) ∧
  (∃ m, Met (.cturn m) (fun f x => ∃ p, Configures f x p ∧ m.obj.toNat ≤ 63 ∧ m.arg = 0 ∧ x.a = 0 ∧ x.b = 0)) :=
  ⟨⟨⟨0, 15, 0, 0, 0, 0, 0, 63, 0⟩, met { plane := {} } {} S (ran (ofVals 32 [0]) 0 0) (by decide +kernel) (⟨_, atProgram rfl, by
    decide +kernel⟩)⟩,
   ⟨⟨0, 15, 0, 0, 0, 0, 0, 63, 0⟩, met { plane := {} } {} S (ran (ofVals 32 [63, 5]) 0 0) (by decide +kernel) (⟨_, atProgram rfl, by
    decide +kernel⟩)⟩,
   ⟨⟨0, 15, 0, 0, 0, 0, 0, 63, 0⟩, met { plane := {} } {} S (ran (ofVals 32 [0]) 0 0) (by decide +kernel) (⟨_, atProgram rfl, by
    decide +kernel⟩)⟩,
   ⟨⟨0, 15, 0, 0, 0, 0, 0, 63, 0⟩, met { plane := {} } {} S (ran (ofVals 32 [0]) 0 0) (by decide +kernel) (⟨_, atProgram rfl, by
    decide +kernel⟩)⟩,
   ⟨⟨0, 15, 0, 0, 0, 0, 0, 63, 0⟩, met { plane := {} } {} S (ran (ofVals 32 [4, 255, 0]) (ofVals 32 [0, 1, 1, 0, 1, 2, 0, 1, 3, 0, 1,
    4]) 0) (by decide +kernel) (⟨_, atProgram rfl, by decide +kernel⟩)⟩,
   ⟨⟨0, 15, 0, 0, 0, 0, 0, 63, 7⟩, met { plane := {} } {} S (ran (ofVals 32 [255]) 0 0) (by decide +kernel) (⟨_, atProgram rfl, by
    decide +kernel⟩)⟩,
   ⟨⟨0, 15, 0, 0, 0, 0, 0, 63, 0⟩, met { plane := {} } {} S (ran (ofVals 32 [0]) 0 0) (by decide +kernel) (⟨_, atProgram rfl, by
    decide +kernel⟩)⟩⟩

theorem witness_ModeItemsEnter :
  (∃ m, Met (.cmodeMatrixRectangle m) (fun f x => ∃ p, Configures f x p ∧ m.arg = 0 ∧ m.obj = 0 ∧ Within x 4 ∧ (argA x 2 = 0 ∨ argA x
    3 = 0))) ∧
  (∃ m, Met (.cmodeMatrixRectangle m) (fun f x => ∃ p, Configures f x p ∧ m.arg = 0 ∧ m.obj = 0 ∧ Within x 4 ∧ argA x 2 ≠ 0 ∧ argA x 3
    ≠ 0 ∧ argA x 0 + argA x 2 ≤ 16 ∧ argA x 1 + argA x 3 ≤ 16 ∧ ∀ q ∈ p.actors, inRect (argA x 0, argA x 1, argA x 2, argA x 3) (q.1 /
    4) = false)) ∧
  (∃ m, Met (.cmodePatchLogWindow m) (fun f x => ∃ p, Configures f x p ∧ m.obj = 0 ∧ argA x 0 = 0xFFFFFFFF ∧ Within x 1)) ∧
  (∃ m, Met (.cmodePatchLogWindow m) (fun f x => ∃ p, Configures f x p ∧ m.obj = 0 ∧ argA x 0 ≤ 255 ∧ Within x 1 ∧ (sfind p.wins (argA
    x 0)).isSome = true ∧ Plane.heldBy { p with patchLog := none } (argA x 0) true (2 ^ 32) 0 = false)) ∧
  (∃ m, Met (.cmodeBarrierCount m) (fun f x => ∃ p, Configures f x p ∧ m.obj.toNat ≤ 31 ∧ 1 ≤ argA x 0 ∧ argA x 0 ≤ 1024 ∧ Within x
    1)) ∧
  (∃ m, Met (.cdesc m) (fun f x => ∃ p, Configures f x p ∧ m.obj.toNat ≤ 63 ∧ m.arg = 0 ∧ Desc.reserved ⟨x.a, x.b⟩ = false ∧ Desc.bad
    ⟨x.a, x.b⟩ = false)) :=
  ⟨⟨⟨0, 15, 0, 0, 0, 0, 0, 0, 0⟩, met { plane := {} } {} S (ran (ofVals 32 [1, 1, 0, 3]) 0 0) (by decide +kernel) (⟨_, atProgram rfl,
    by decide +kernel⟩)⟩,
   ⟨⟨0, 15, 0, 0, 0, 0, 0, 0, 0⟩, met { plane := {} } {} S (ran (ofVals 32 [8, 8, 8, 8]) 0 0) (by decide +kernel) (⟨_, atProgram rfl,
    by decide +kernel⟩)⟩,
   ⟨⟨0, 15, 0, 0, 0, 0, 0, 0, 0⟩, met { plane := {} } {} S (ran (ofVals 32 [0xFFFFFFFF]) 0 0) (by decide +kernel) (⟨_, atProgram rfl,
    by decide +kernel⟩)⟩,
   ⟨⟨0, 15, 0, 0, 0, 0, 0, 0, 0⟩, met { plane := { wins := [(3, ⟨8, 4, 0, 0, none⟩)] } } {} S (ran (ofVals 32 [3]) 0 0) (by
    decide +kernel) (⟨_, atProgram rfl, by decide +kernel⟩)⟩,
   ⟨⟨0, 15, 0, 0, 0, 0, 0, 31, 0⟩, met { plane := {} } {} S (ran (ofVals 32 [1024]) 0 0) (by decide +kernel) (⟨_, atProgram rfl, by
    decide +kernel⟩)⟩,
   ⟨⟨0, 15, 0, 0, 0, 0, 0, 63, 0⟩, met { plane := {} } {} S (ran (ofVals 32 [0x00000000]) 0 0) (by decide +kernel) (⟨_, atProgram rfl,
    by decide +kernel⟩)⟩⟩

end Sys2Proof.Tests
end

/-!
PROOFS. The statements of chapter 0's family: the store units (R3, R182, R367), the register moves (R39, R42, R201), the
administrator and the module (R2, R441 to R451), and the machine at power-on.
-/

/-! ### An event or an instruction answers what its meaning makes -/

namespace Sys2Proof.Proofs

open Sys2Proof.Machine Sys2Proof.Claims

/-- An event whose meaning is a change of the fabric moves it to `post` where the change gives `post`. -/
theorem moves_of_fabricStep {i : Instr} {g : Fabric → Fabric} {pre : Fabric → Prop} {post : Fabric → Fabric}
    (he : ∀ s, exec i s = fabricStep g s) (h : ∀ f, pre f → g f = post f) : Moves i pre post := by
  intro s hp
  rw [he, fabricStep_next, h s.fab hp]

/-- An instruction whose meaning is an issue does `post` where its own change with the operands gathered is `post`. -/
theorem does_of_issueStep {i : Instr} {go : Issue → Fabric → Fabric} {pre : Fabric → Issue → Prop}
    {post : Issue → Fabric → Fabric} (he : ∀ s, exec i s = issueStep i go s) (h : ∀ x f, pre f x → go x f = post x f) :
    Does i pre post := by
  intro s who slot e b hi hp
  rw [he, issueStep_offered hi.acting hi.running hi.issuing hi.offered hi.live hi.block hi.free hi.ordered, h _ _ hp]

end Sys2Proof.Proofs

/-! ### Changes of the fabric that leave every region's logged arrivals to replay -/

namespace Sys2Proof.Machine

/-- Two fabrics whose regions have the same logged arrivals still to replay (R434). -/
def Fabric.SameRedo (f g : Fabric) : Prop := ∀ r, (g.region r).redo = (f.region r).redo

theorem Fabric.SameRedo.refl (f : Fabric) : f.SameRedo f := fun _ => rfl

theorem Fabric.SameRedo.trans {f g h : Fabric} (a : f.SameRedo g) (b : g.SameRedo h) : f.SameRedo h :=
  fun r => (b r).trans (a r)

/-- Fabrics with the same regions have the same logged arrivals. -/
theorem Fabric.sameRedo_of_regions {f g : Fabric} (h : g.units.regions = f.units.regions) : f.SameRedo g :=
  fun r => by rw [Fabric.region, h, Fabric.region]

theorem Fabric.sameRedo_modCore (f : Fabric) (c : Nat) (g : Core → Core) : f.SameRedo (f.modCore c g) := fun _ => rfl

theorem Fabric.sameRedo_modRegion (f : Fabric) (q : Nat) {g : Region → Region} (h : ∀ x, (g x).redo = x.redo) :
    f.SameRedo (f.modRegion q g) := by
  intro r
  by_cases hr : r = q
  · subst hr; rw [region_modRegion, h]
  · rw [region_modRegion_other f g hr]

/-- A fold keeps the logged arrivals when its step does. -/
theorem Fabric.sameRedo_foldl {β : Type} {g : Fabric → β → Fabric} (h : ∀ (f : Fabric) b, f.SameRedo (g f b)) (l : List β)
    (f : Fabric) : f.SameRedo (l.foldl g f) := by
  induction l generalizing f with
  | nil => exact .refl f
  | cons b l ih => exact (h f b).trans (ih (g f b))

/-- Reading one field of a map's entry when every entry was changed in place without that field. -/
theorem sget_map_field {α β : Type} (field : α → β) {h : Nat × α → Nat × α} (hk : ∀ q, (h q).1 = q.1)
    (hv : ∀ q, field (h q).2 = field q.2) (d : α) (m : Sparse α) (i : Nat) :
    field (sget d (m.map h) i) = field (sget d m i) := by
  induction m with
  | nil => rfl
  | cons p r ih =>
    by_cases hi : i = p.1
    · simp [sget, sfind, hk, hv, hi]
    · simpa [sget, sfind, hk, hi] using ih

theorem Fabric.sameRedo_pastNote (f : Fabric) (m : Memory) (reg va pa : Nat) : f.SameRedo (f.pastNote m reg va pa) := by
  intro r
  refine sget_map_field Region.redo (fun q => ?_) (fun q => ?_) {} f.units.regions r
  · split <;> rfl
  · split <;> rfl

theorem Fabric.sameRedo_undoNote (f : Fabric) (m : Memory) (reg va pa : Nat) : f.SameRedo (f.undoNote m reg va pa) := by
  refine (f.sameRedo_pastNote m reg va pa).trans (Fabric.sameRedo_modRegion _ _ fun x => ?_)
  split <;> rfl

theorem Fabric.sameRedo_hide (f : Fabric) (m : Memory) (u : StoreUnit) (l : MemLane) : f.SameRedo (f.hide m u l) := fun _ => rfl

theorem Fabric.sameRedo_unhide (f : Fabric) (block pa n : Nat) : f.SameRedo (f.unhide block pa n) := fun _ => rfl

theorem Fabric.sameRedo_countAccess (f : Fabric) (reg va : Nat) : f.SameRedo (f.countAccess reg va) :=
  f.sameRedo_modRegion reg fun _ => rfl

theorem Fabric.sameRedo_record (f : Fabric) (c : Nat) (x : Finding) : f.SameRedo (f.record c x) := by
  obtain ⟨h, hf, hb⟩ := f.record_banks c x
  obtain ⟨b, hu⟩ := hb f.units
  refine Fabric.sameRedo_of_regions ?_
  rw [hf, modUnits_units, hu]

theorem Fabric.sameRedo_stopRegion (f : Fabric) (c : Nat) (t : Trap) : f.SameRedo (f.stopRegion c t) :=
  (f.sameRedo_modRegion (f.core c).regionId
    (g := fun r => { r with stop := match r.stop with | none => some (c, t) | x => x }) fun _ => rfl).trans
    (Fabric.sameRedo_modCore _ c _)

theorem Fabric.sameRedo_askRollback (f : Fabric) (c : Nat) : f.SameRedo (f.askRollback c) := by
  unfold Fabric.askRollback
  dsimp only
  split
  · exact f.sameRedo_modRegion _ fun _ => rfl
  · exact f.sameRedo_stopRegion c _

theorem Fabric.sameRedo_needRollback (f : Fabric) (c : Nat) (x : Finding) : f.SameRedo (f.needRollback c x) := by
  unfold Fabric.needRollback
  split
  · exact (f.sameRedo_record c _).trans (Fabric.sameRedo_askRollback _ c)
  · exact f.sameRedo_askRollback c

theorem Fabric.sameRedo_upset (f : Fabric) (c a : Nat) : f.SameRedo (f.upset c a) := by
  unfold Fabric.upset
  split
  · exact (f.sameRedo_modCore c _).trans (Fabric.sameRedo_needRollback _ c _)
  · exact f.sameRedo_modCore c _

theorem Fabric.sameRedo_conflict (f : Fabric) (reg line : Nat) (key : Option (Nat × Nat × Nat)) :
    f.SameRedo (f.conflict reg line key) := by
  refine Fabric.sameRedo_foldl (fun g q => ?_) _ f
  have step : ∀ p : Bool, g.SameRedo (if p then g.upset (q.1 / 1024) (q.1 % 1024) else g)
    | true => g.sameRedo_upset _ _
    | false => .refl g
  dsimp only
  cases g.reader q with
  | none => exact .refl g
  | some y => exact step _

theorem Fabric.sameRedo_settleSent (f : Fabric) (c : Nat) : f.SameRedo (f.settleSent c) := by
  unfold Fabric.settleSent
  split
  · exact .refl f
  · exact fun _ => rfl

theorem Fabric.sameRedo_unitSent (f : Fabric) (u : StoreUnit) : f.SameRedo (f.unitSent u) :=
  (Fabric.sameRedo_of_regions rfl).trans (Fabric.sameRedo_settleSent _ u.core)

/-! ### What a store unit writes -/

/-- The lanes of a unit applied to memory in their order (R367). -/
def Memory.lanes (m : Memory) (l : List MemLane) : Memory := l.foldl (fun m x => m.lane x.pa x.n x.op x.ty x.data x.cmp) m

/-- Memory after a unit's lanes does not hang on the fabric. -/
theorem performLanes_mem (m : Memory) (f : Fabric) (u : StoreUnit) : (Fabric.performLanes m f u).1 = m.lanes u.lanes :=
  (List.foldl_hom Prod.fst fun _ _ => rfl).symm

theorem performLanes_sameRedo (m : Memory) (f : Fabric) (u : StoreUnit) : f.SameRedo (Fabric.performLanes m f u).2 := by
  have lanes : ∀ (l : List MemLane) (q : Memory × Fabric), q.2.SameRedo (l.foldl (fun q l =>
      (q.1.lane l.pa l.n l.op l.ty l.data l.cmp,
       ((q.2.undoNote q.1 u.region l.va l.pa).hide q.1 u l).unhide u.block l.pa l.n)) q).2 := by
    intro l
    induction l with
    | nil => exact fun q => .refl q.2
    | cons x l ih =>
      exact fun q => (((q.2.sameRedo_undoNote _ _ _ _).trans (Fabric.sameRedo_hide _ _ _ _)).trans
        (Fabric.sameRedo_unhide _ _ _ _)).trans (ih _)
  exact (lanes u.lanes (m, f)).trans (Fabric.sameRedo_foldl (fun g line => g.sameRedo_conflict _ _ _) _ _)

/-- A region without logged arrivals applies none. -/
theorem Fabric.redoLine_of_nil {f : Fabric} {reg : Nat} (h : (f.region reg).redo = []) (m : Memory) (line : Nat) :
    f.redoLine m reg line = (m, f) := by
  unfold Fabric.redoLine; rw [h]; rfl

/-- The accesses of a unit counted in a region without logged arrivals leave memory as it is. -/
theorem countLines_mem {reg : Nat} (l : List Nat) (m : Memory) (f : Fabric) (h : (f.region reg).redo = []) :
    (l.foldl (fun q v => (q.2.countAccess reg (v * 64)).redoLine q.1 reg v) (m, f)).1 = m := by
  induction l generalizing f with
  | nil => rfl
  | cons v l ih =>
    have hv : ((f.countAccess reg (v * 64)).region reg).redo = [] := (f.sameRedo_countAccess reg (v * 64) reg).trans h
    rw [List.foldl_cons, Fabric.redoLine_of_nil hv]
    exact ih _ hv

/-- A unit that may be performed, in a region without logged arrivals to replay, changes memory by its lanes alone (R364, R367). -/
theorem Fabric.unitPerform_mem {f : Fabric} {m : Memory} {id : Nat} {u : StoreUnit}
    (hu : f.units.stores.find? (fun u => u.id = id) = some u) (hp : u.performed = false) (hh : f.holdsAll u = true)
    (hr : (f.region u.region).redo = []) : (f.unitPerform m id).1 = m.lanes u.lanes := by
  have hm := performLanes_mem m f u
  have hs : ((Fabric.performLanes m f u).2.region u.region).redo = [] := (performLanes_sameRedo m f u u.region).trans hr
  unfold Fabric.unitPerform
  simp only [hu, hp, hh, Bool.not_true, Bool.or_self, Bool.false_eq_true, if_false]
  generalize Fabric.performLanes m f u = q at hm hs
  rw [countLines_mem, hm]
  exact (Fabric.sameRedo_unitSent _ _ u.region).trans hs

end Sys2Proof.Machine

namespace Sys2Proof.Proofs

open Sys2Proof.Machine Sys2Proof.Claims

/-- A byte outside every lane stays as it was. -/
theorem byte_lanes_outside (m : Memory) {a : Nat} (l : List MemLane) (h : ∀ x ∈ l, Outside a x) :
    (m.lanes l).byte a = m.byte a := by
  induction l generalizing m with
  | nil => rfl
  | cons x l ih =>
    obtain ⟨hx, hl⟩ := List.forall_mem_cons.1 h
    exact (ih _ hl).trans (m.byte_lane_other _ _ _ _ _ _ hx)

/-- A byte of a store's lane that no later lane covers is that byte of the lane's data. -/
theorem byte_lanes_store (m : Memory) (pre : List MemLane) {l : MemLane} {post : List MemLane} {j : Nat} (ho : l.op = 0)
    (hj : j < l.n) (h : ∀ x ∈ post, Outside (l.pa + j) x) :
    ((m.lanes (pre ++ l :: post)).byte (l.pa + j)).toNat = l.data / 256 ^ j % 256 := by
  have cut : m.lanes (pre ++ l :: post) = ((m.lanes pre).lane l.pa l.n 0 l.ty l.data l.cmp).lanes post := by
    simp [Memory.lanes, ho]
  rw [cut, byte_lanes_outside _ post h, Memory.byte_lane _ _ _ _ _ _ hj]

theorem storesWriteTheirBytesPart : StoresWriteTheirBytesPart := by
  intro s t id u hu hp hh hr ht
  have hs : exec (.storeUnitPerform id) s = memStep (fun m f => f.unitPerform m id) s := rfl
  rw [hs, memStep_next] at ht
  have hm : t.mem = s.mem.lanes u.lanes := by
    cases ht; exact Fabric.unitPerform_mem hu hp hh hr
  rw [hm]
  refine ⟨fun a ha => byte_lanes_outside _ _ ha, fun pre l post j hl ho hj hx => ?_⟩
  rw [hl]
  exact byte_lanes_store _ pre ho hj hx

/-- Byte `i` of a number written is its digit to base 256. -/
theorem byte_writeNat (m : Memory) (a v : Nat) {i n : Nat} (h : i < n) :
    ((m.writeNat a n v).byte (a + i)).toNat = v / 256 ^ i % 256 := by
  have hl : i < (natBytes n v).length := (natBytes_length n v).symm ▸ h
  rw [Memory.writeNat, Memory.byte_write m a _ hl, natBytes_get n v i h]

theorem readNat_writeNat (m : Memory) (a n v : Nat) : (m.writeNat a n v).readNat a n = v % 256 ^ n := by
  have hl : ((m.writeNat a n v).read a n).length = n := by simp [Memory.read]
  rw [Memory.readNat, bytesNat_digits _ v fun i hi => ?_, hl]
  rw [hl] at hi
  simpa [Memory.read] using byte_writeNat m a v hi

theorem memoryLittleEndian : MemoryLittleEndian := fun m a n v =>
  ⟨readNat_writeNat m a n v, fun _ hi => byte_writeNat m a v hi,
    fun _ hc => m.byte_write_other a _ ((natBytes_length n v).symm ▸ hc)⟩

/-- Settles O29: the unit's step changes memory by its lanes in order, and a lane by its own bytes. -/
theorem storesWriteTheirBytes : Obligations.StoresWriteTheirBytes :=
  ⟨storesWriteTheirBytesPart, memoryLittleEndian⟩

/-! ### The register moves -/

/-- A firing reads gN as at its start; g0 reads zero (R39, R201). -/
theorem does_grd (d : DFields) :
    Does (.grd d) (fun _ _ => d.imm.toNat % 64 = 0) (fun x f => x.result (wordTok 0) fNone f) ∧
    Does (.grd d) (fun _ x => IsActor x ∧ d.imm.toNat % 64 ≠ 0)
      (fun x f => x.result (wordTok (sget 0 x.exec.snap.g (d.imm.toNat % 64))) fNone f) ∧
    Does (.grd d) (fun _ x => IsSeq x ∧ d.imm.toNat % 64 ≠ 0)
      (fun x f => x.result (wordTok (sget 0 (f.core x.who.core).seq.g (d.imm.toNat % 64))) fNone f) := by
  refine ⟨does_of_issueStep (fun _ => rfl) fun x f h => ?_, does_of_issueStep (fun _ => rfl) fun x f h => ?_,
    does_of_issueStep (fun _ => rfl) fun x f h => ?_⟩
  · simp only [h, if_true]
  · obtain ⟨⟨c, a, hw⟩, hn⟩ := h
    simp only [hn, if_false, hw]
  · obtain ⟨⟨c, hw⟩, hn⟩ := h
    simp only [hn, if_false, hw]

/-- A firing reads a control register as at its start and its own TSTAMP; a sequencer's block as it is (R192, R201). -/
theorem does_mfk (d : DFields) :
    Does (.mfk d) (fun _ x => IsActor x ∧ d.imm.toNat % 4096 ≠ 0x012)
      (fun x f => x.result (wordTok (sget 0 x.exec.snap.ctl (d.imm.toNat % 4096))) fNone f) ∧
    Does (.mfk d) (fun _ x => IsActor x ∧ d.imm.toNat % 4096 = 0x012)
      (fun x f => x.result (wordTok (x.exec.tstamp.getD (BitVec.allOnes 64))) fNone f) ∧
    Does (.mfk d) (fun _ x => IsSeq x)
      (fun x f => x.result (wordTok (f.ctlSeq x.who.core (d.imm.toNat % 4096))) fNone f) := by
  refine ⟨does_of_issueStep (fun _ => rfl) fun x f h => ?_, does_of_issueStep (fun _ => rfl) fun x f h => ?_,
    does_of_issueStep (fun _ => rfl) fun x f h => ?_⟩
  · obtain ⟨⟨c, a, hw⟩, hn⟩ := h
    simp only [hw, hn, if_false]
  · obtain ⟨⟨c, a, hw⟩, hn⟩ := h
    simp only [hw, hn, if_true]
    cases x.exec.tstamp <;> rfl
  · obtain ⟨c, hw⟩ := h
    simp only [hw]

/-- The three MTK forms keep their write to the end of the block (R197, R201). -/
theorem does_mtk {d : DFields} {i : Instr} (h : i = .mtk d ∨ i = .fpxClear d ∨ i = .wpHitClear d) :
    Does i (fun _ _ => True) (fun x f => x.buffer (.mtk (d.imm.toNat % 4096) ⟨x.a, x.ember⟩) f) := by
  have go : ∀ s, exec i s = issueStep i (mtkLater d) s := by
    obtain rfl | rfl | rfl := h <;> exact fun _ => rfl
  exact does_of_issueStep go fun _ _ _ => rfl

theorem registerMovesCompletePart : RegisterMovesCompletePart :=
  ⟨fun d => (does_grd d).1, fun d => (does_grd d).2.1, fun d => (does_grd d).2.2,
    fun d => (does_mfk d).1, fun d => (does_mfk d).2.1, fun d => (does_mfk d).2.2, fun _ _ h => does_mtk h⟩

theorem seqScope_iff (num : Nat) : seqScope num = true ↔ 0x020 ≤ num ∧ num ≤ 0x027 ∨ num = 0x037 := by
  simp [seqScope]

/-- A marked token is discarded (R404). -/
theorem applyMtk_marked (k : Core) (num : Nat) {t : Tok} (h : t.ember = true) : k.applyMtk num t = k := by
  simp [Core.applyMtk, h]

/-- A write to a sequencer-scope register sets it under its layout's mask (R8, R42). -/
theorem applyMtk_seqScope (k : Core) {num : Nat} {t : Tok} (ht : t.ember = false) (h : seqScope num = true) :
    k.applyMtk num t = k.setCtl num (BitVec.ofNat 64 (elem 64 t.bits 0)) := by
  have hs := (seqScope_iff num).1 h
  have h0 : num ≠ 0x030 := by omega
  have h4 : num ≠ 0x034 := by omega
  simp [Core.applyMtk, ht, h0, h4, h]

/-- A number that no MTK reaches is not written. -/
theorem applyMtk_other (k : Core) {num : Nat} (t : Tok) (h0 : num ≠ 0x030) (h4 : num ≠ 0x034) (h : seqScope num = false) :
    k.applyMtk num t = k := by
  simp [Core.applyMtk, h0, h4, h]

theorem controlWrite : ControlWrite := by
  intro k num t v
  refine ⟨fun h => applyMtk_marked k num h, fun ht h0 => ?_, fun ht h4 => ?_, fun ht lo hi => ?_, fun h0 h4 hn h37 => ?_⟩
  · simp [Core.applyMtk, ht, h0, v]
  · simp [Core.applyMtk, ht, h4, v]
  · rw [applyMtk_seqScope k ht ((seqScope_iff num).2 (by omega))]
    exact sget_sput_same _ _ _ _
  · refine applyMtk_other k t h0 h4 (Bool.eq_false_iff.2 fun h => ?_)
    have := (seqScope_iff num).1 h
    omega

/-- Settles O19, one clause an instruction, and the access codes of the registers that an MTK reaches. -/
theorem registerMovesComplete : Obligations.RegisterMovesComplete :=
  ⟨registerMovesCompletePart, controlWrite⟩

/-! ### The administrator and the module -/

theorem administratorProves : AdministratorProves := by
  refine ⟨fun key nonce proof_ d => moves_of_fabricStep (fun _ => rfl) fun f h => ?_,
    fun ctx nonce => moves_of_fabricStep (fun _ => rfl) fun f h => ?_⟩
  · obtain ⟨ha, hs, hd, hv⟩ := h
    simp [Fabric.adminSetup, ha, hs, hd, hv]
  · obtain ⟨hs, hc, ho⟩ := h
    simp [Fabric.attest, hs, hc, ho]

/-- A module without service takes its firmware when the signature holds and is dead when it does not (R448). -/
theorem moves_powerOnBoot (fw sig : List (BitVec 8)) :
    Moves (.powerOnBoot fw sig) (fun f => f.units.service = .none ∧ Config.slhVerify Config.vendorKey fw sig = true)
      (fun f => f.modUnits fun u => u.reduced fw) ∧
    Moves (.powerOnBoot fw sig) (fun f => f.units.service = .none ∧ Config.slhVerify Config.vendorKey fw sig = false)
      (fun f => f.modUnits fun u => { u with service := .dead }) := by
  refine ⟨moves_of_fabricStep (fun _ => rfl) fun f h => ?_, moves_of_fabricStep (fun _ => rfl) fun f h => ?_⟩ <;>
  · obtain ⟨hs, hv⟩ := h
    simp [hs, hv]

/-- Training that leaves a possible module ends in full service (R2, R448). -/
theorem moves_fullServiceStart {enabled expanders : List Nat} (ht : trained enabled expanders = true) :
    Moves (.fullServiceStart enabled expanders) (fun f => f.units.service = .reduced) (fun f => f.modUnits fun u =>
      { u with service := .full, enabled := enabled, expanders := expanders, clock := 16 }) :=
  moves_of_fabricStep (fun _ => rfl) fun f h => by simp [h, ht]

/-- An expander that fails for the first time ends every move of its pages (R441). -/
theorem expanderFails_new {f : Fabric} {port : Nat} (hp : port < f.units.expanders.length) (hn : port ∉ f.units.failed)
    (m : Memory) (free : Nat → Row) :
    f.expanderFails m port free =
      ((f.units.transits.filter fun t => Units.failedAt { f.units with failed := f.units.failed ++ [port] } (t.peatAt m)).zipIdx.foldl
        (fun f p => f.failMove (free p.2) p.1) (f.modUnits fun u => { u with failed := u.failed ++ [port] })) := by
  simp [Fabric.expanderFails, Nat.not_le.2 hp, hn, Fabric.modUnits]

/-- A step of the clock that service allows is taken, and each open tenant context told (R7, R451). -/
theorem throttle_step {f : Fabric} {step : Nat} (h4 : 4 ≤ step) (hs : f.units.serves = true) (ht : step ≤ f.units.topStep)
    (hc : step + 1 = f.units.clock ∨ step = f.units.clock + 1) :
    f.throttle step = (skeys f.units.contexts).foldl
      (fun g x => if x = 0 then g else g.complete x (completionRow 0 5 step 0 x 0 0 0 0 0 0 f.units.ptp.toNat))
      (f.modUnits fun u => { u with clock := step }) := by
  unfold Fabric.throttle
  dsimp only
  rw [if_neg]
  simp only [hs, Bool.not_true, Bool.false_or, Bool.or_eq_true, Bool.and_eq_true, decide_eq_true_eq]
  omega

/-- A module that serves is neither gated nor without service. -/
theorem service_of_serves {u : Units} (h : u.serves = true) : u.service ≠ .gated ∧ u.service ≠ .none := by
  cases hs : u.service <;> simp [Units.serves, hs] at h ⊢

/-- A thermal stop of a module that serves stops every region and gates every clock (R451). -/
theorem thermalStop_serving {f : Fabric} (h : f.units.serves = true) (free : Nat → Row) :
    f.thermalStop free =
      let g := (skeys f.units.regions).zipIdx.foldl (fun f p => f.stopNow (fun i => free (6 * p.2 + i)) p.1) f
      { cores := g.cores.map fun q => (q.1, { q.2 with dbg := { q.2.dbg with frozen := true, gating := true } })
        units := { g.units with service := .gated, paused := true } } := by
  obtain ⟨hg, hn⟩ := service_of_serves h
  simp [Fabric.thermalStop, hg, hn, Fabric.modUnits]

theorem moduleServes : ModuleServes := by
  refine ⟨fun fw sig => (moves_powerOnBoot fw sig).1, fun fw sig => (moves_powerOnBoot fw sig).2,
    fun _ _ ht => moves_fullServiceStart ht, fun s port hp hn => ?_, fun step h4 => ?_, fun s hs => ?_, fun time ht => ?_⟩
  · have he : exec (.expanderFailure port) s = execExpanderFailure port s := rfl
    rw [he, execExpanderFailure, expanderFails_new hp hn]
    rfl
  · exact moves_of_fabricStep (fun _ => rfl) fun f ⟨hs, hl, hc⟩ => throttle_step h4 hs hl hc
  · have he : exec .thermalStop s = execThermalStop s := rfl
    rw [he, execThermalStop, thermalStop_serving hs]
  · exact moves_of_fabricStep (fun _ => rfl) fun f _ => if_pos ht

/-- Settles O49, one lemma an event. -/
theorem administratorAndModule : Obligations.AdministratorAndModule :=
  ⟨administratorProves, moduleServes⟩

/-! ### Power-on -/

/-- No register of core, group, region or module scope holds anything at power-on but the core's place (Table 1-7). -/
theorem ctlShared_reset (c num : Nat) : State.reset.fab.ctlShared c num =
    if num = 0x000 then BitVec.ofNat 64 (c % 128) else if num = 0x001 then BitVec.ofNat 64 (c / 128) else 0 := by
  by_cases h0 : num = 0x000
  · subst h0; rfl
  by_cases h1 : num = 0x001
  · subst h1; rfl
  rw [if_neg h0, if_neg h1]
  unfold Fabric.ctlShared
  dsimp only
  split
  · exact absurd rfl h0
  · exact absurd rfl h1
  all_goals rfl

/-- Nothing is outstanding at power-on. -/
theorem outstanding_reset : Counts.word {} = 0 := by decide

/-- What a sequencer's block reads at power-on (Table 1-7): its place, the code of a sequencer and no timestamp, all else zero. -/
theorem ctlSeq_reset (c num : Nat) : State.reset.fab.ctlSeq c num =
    if num = 0x000 then BitVec.ofNat 64 (c % 128) else if num = 0x001 then BitVec.ofNat 64 (c / 128)
    else if num = 0x002 then 0xFFFF else if num = 0x012 then 0xFFFFFFFFFFFFFFFF else 0 := by
  unfold Fabric.ctlSeq
  dsimp only
  split
  case h_5 => exact outstanding_reset
  case h_6 h2 _ h12 _ _ =>
    rw [if_neg h2, if_neg h12, ctlShared_reset]
    split
    · rename_i h
      have := (seqScope_iff num).1 h
      rw [if_neg (by omega), if_neg (by omega)]
      rfl
    · rfl
  all_goals rfl

/-- FIRING_CNT and FPX of an actor are zero at power-on. -/
theorem ctlActor_reset (c a : Nat) {num : Nat} (h : num = 0x010 ∨ num = 0x030) : State.reset.fab.ctlActor c a num = 0 := by
  obtain rfl | rfl := h <;> rfl

/-- Settles O55: the registers by scope, every other field by its reset value. -/
theorem resetValues : Obligations.ResetValues :=
  ⟨reset_wf, fun _ => rfl, ctlSeq_reset, fun c a _ h => ctlActor_reset c a h, fun _ => ⟨rfl, rfl, rfl⟩, rfl⟩

end Sys2Proof.Proofs

/-! The check compiles this text in one process, and the model alone comes near its memory limit. Proofs elaborated one after another
keep less memory than proofs elaborated side by side. -/

section

set_option Elab.async false

/-! ### Words of well-formed instructions -/

namespace Sys2Proof.Proofs

open Sys2Proof.Machine Sys2Proof.Claims Sys2Proof.Laws

/-- Every instruction is what the decoder builds from its opcode and fields; an event has neither. -/
theorem rebuild (i : Instr) : Rebuild.Statement i := by
  cases i with
  | add f => exact Rebuild.add f
  | sub f => exact Rebuild.sub f
  | mul f => exact Rebuild.mul f
  | mulh f => exact Rebuild.mulh f
  | mad f => exact Rebuild.mad f
  | quo f => exact Rebuild.quo f
  | rem f => exact Rebuild.rem f
  | neg f => exact Rebuild.neg f
  | abs f => exact Rebuild.abs f
  | min f => exact Rebuild.min f
  | max f => exact Rebuild.max f
  | clamp f => exact Rebuild.clamp f
  | adds f => exact Rebuild.adds f
  | subs f => exact Rebuild.subs f
  | dot4 f => exact Rebuild.dot4 f
  | and f => exact Rebuild.and f
  | or f => exact Rebuild.or f
  | xor f => exact Rebuild.xor f
  | andn f => exact Rebuild.andn f
  | not f => exact Rebuild.not f
  | shl f => exact Rebuild.shl f
  | shr f => exact Rebuild.shr f
  | sra f => exact Rebuild.sra f
  | rotl f => exact Rebuild.rotl f
  | clz f => exact Rebuild.clz f
  | popc f => exact Rebuild.popc f
  | bfx f => exact Rebuild.bfx f
  | bfi f => exact Rebuild.bfi f
  | cmpeq f => exact Rebuild.cmpeq f
  | cmpne f => exact Rebuild.cmpne f
  | cmplt f => exact Rebuild.cmplt f
  | cmple f => exact Rebuild.cmple f
  | sel f => exact Rebuild.sel f
  | mov f => exact Rebuild.mov f
  | movi f => exact Rebuild.movi f
  | movh f => exact Rebuild.movh f
  | lit f => exact Rebuild.lit f
  | nop f => exact Rebuild.nop f
  | fadd f => exact Rebuild.fadd f
  | fsub f => exact Rebuild.fsub f
  | fmul f => exact Rebuild.fmul f
  | fma f => exact Rebuild.fma f
  | fnma f => exact Rebuild.fnma f
  | fmin f => exact Rebuild.fmin f
  | fmax f => exact Rebuild.fmax f
  | fabs f => exact Rebuild.fabs f
  | fneg f => exact Rebuild.fneg f
  | fcmpeq f => exact Rebuild.fcmpeq f
  | fcmplt f => exact Rebuild.fcmplt f
  | fcmple f => exact Rebuild.fcmple f
  | fcmpun f => exact Rebuild.fcmpun f
  | fclass f => exact Rebuild.fclass f
  | fscale f => exact Rebuild.fscale f
  | fdiv f => exact Rebuild.fdiv f
  | frcp f => exact Rebuild.frcp f
  | frsq f => exact Rebuild.frsq f
  | fsqrt f => exact Rebuild.fsqrt f
  | fexp2 f => exact Rebuild.fexp2 f
  | flog2 f => exact Rebuild.flog2 f
  | fsig f => exact Rebuild.fsig f
  | ftanh f => exact Rebuild.ftanh f
  | cvt f => exact Rebuild.cvt f
  | cvts f => exact Rebuild.cvts f
  | pack f => exact Rebuild.pack f
  | unpk f => exact Rebuild.unpk f
  | bcast f => exact Rebuild.bcast f
  | shuf f => exact Rebuild.shuf f
  | rotx f => exact Rebuild.rotx f
  | lane f => exact Rebuild.lane f
  | insl f => exact Rebuild.insl f
  | redadd f => exact Rebuild.redadd f
  | redmax f => exact Rebuild.redmax f
  | redmin f => exact Rebuild.redmin f
  | scan f => exact Rebuild.scan f
  | wrd f => exact Rebuild.wrd f
  | wrdx f => exact Rebuild.wrdx f
  | wupd f => exact Rebuild.wupd f
  | wfil f => exact Rebuild.wfil f
  | wshr f => exact Rebuild.wshr f
  | wcnt f => exact Rebuild.wcnt f
  | wsave f => exact Rebuild.wsave f
  | wrest f => exact Rebuild.wrest f
  | hget f => exact Rebuild.hget f
  | ard f => exact Rebuild.ard f
  | awr f => exact Rebuild.awr f
  | aacc f => exact Rebuild.aacc f
  | apatchSet f => exact Rebuild.apatchSet f
  | apatchAdd f => exact Rebuild.apatchAdd f
  | apatchScale f => exact Rebuild.apatchScale f
  | aclr f => exact Rebuild.aclr f
  | ld f => exact Rebuild.ld f
  | ld2 f => exact Rebuild.ld2 f
  | lds f => exact Rebuild.lds f
  | st f => exact Rebuild.st f
  | sts f => exact Rebuild.sts f
  | gath f => exact Rebuild.gath f
  | scat f => exact Rebuild.scat f
  | pref f => exact Rebuild.pref f
  | atadd f => exact Rebuild.atadd f
  | atfadd f => exact Rebuild.atfadd f
  | atmin f => exact Rebuild.atmin f
  | atmax f => exact Rebuild.atmax f
  | atfmax f => exact Rebuild.atfmax f
  | atand f => exact Rebuild.atand f
  | ator f => exact Rebuild.ator f
  | atxor f => exact Rebuild.atxor f
  | atxch f => exact Rebuild.atxch f
  | atcas f => exact Rebuild.atcas f
  | fence f => exact Rebuild.fence f
  | xfence f => exact Rebuild.xfence f
  | tset f => exact Rebuild.tset f
  | tget f => exact Rebuild.tget f
  | bara f => exact Rebuild.bara f
  | barw f => exact Rebuild.barw f
  | baraw f => exact Rebuild.baraw f
  | waitc f => exact Rebuild.waitc f
  | br f => exact Rebuild.br f
  | brc f => exact Rebuild.brc f
  | brx f => exact Rebuild.brx f
  | call f => exact Rebuild.call f
  | ret f => exact Rebuild.ret f
  | grd f => exact Rebuild.grd f
  | mfk f => exact Rebuild.mfk f
  | mtk f => exact Rebuild.mtk f
  | fpxClear f => exact Rebuild.fpxClear f
  | wpHitClear f => exact Rebuild.wpHitClear f
  | trap f => exact Rebuild.trap f
  | rft f => exact Rebuild.rft f
  | halt f => exact Rebuild.halt f
  | evwait f => exact Rebuild.evwait f
  | cactor f => exact Rebuild.cactor f
  | cactorUnbind f => exact Rebuild.cactorUnbind f
  | cport f => exact Rebuild.cport f
  | cwin f => exact Rebuild.cwin f
  | wgrow f => exact Rebuild.wgrow f
  | croute f => exact Rebuild.croute f
  | csteer f => exact Rebuild.csteer f
  | cmerge f => exact Rebuild.cmerge f
  | ccarry f => exact Rebuild.ccarry f
  | cinv f => exact Rebuild.cinv f
  | cchain f => exact Rebuild.cchain f
  | cloop f => exact Rebuild.cloop f
  | cturn f => exact Rebuild.cturn f
  | cmodeMatrixRectangle f => exact Rebuild.cmodeMatrixRectangle f
  | cmodePatchLogWindow f => exact Rebuild.cmodePatchLogWindow f
  | cmodeBarrierCount f => exact Rebuild.cmodeBarrierCount f
  | cdesc f => exact Rebuild.cdesc f
  | cswap f => exact Rebuild.cswap f
  | cswapDiscard f => exact Rebuild.cswapDiscard f
  | cqui f => exact Rebuild.cqui f
  | mxldw f => exact Rebuild.mxldw f
  | mxsel f => exact Rebuild.mxsel f
  | mxrun f => exact Rebuild.mxrun f
  | mxstat f => exact Rebuild.mxstat f
  | mxthr f => exact Rebuild.mxthr f
  | mxpeek f => exact Rebuild.mxpeek f
  | cpy f => exact Rebuild.cpy f
  | cpyChained f => exact Rebuild.cpyChained f
  | cpyw f => exact Rebuild.cpyw f
  | cpyr f => exact Rebuild.cpyr f
  | cpyi f => exact Rebuild.cpyi f
  | cpypMax f => exact Rebuild.cpypMax f
  | cpypAvg f => exact Rebuild.cpypAvg f
  | cpyf f => exact Rebuild.cpyf f
  | strmRead f => exact Rebuild.strmRead f
  | strmWrite f => exact Rebuild.strmWrite f
  | strw f => exact Rebuild.strw f
  | strxStop f => exact Rebuild.strxStop f
  | strxResume f => exact Rebuild.strxResume f
  | tqry f => exact Rebuild.tqry f
  | tin f => exact Rebuild.tin f
  | tout f => exact Rebuild.tout f
  | nsend f => exact Rebuild.nsend f
  | nget f => exact Rebuild.nget f
  | nredAdd f => exact Rebuild.nredAdd f
  | nredMax f => exact Rebuild.nredMax f
  | nredMin f => exact Rebuild.nredMin f
  | xinv f => exact Rebuild.xinv f
  | wpsetDescriptor f => exact Rebuild.wpsetDescriptor f
  | wpsetRange f => exact Rebuild.wpsetRange f
  | wpclr f => exact Rebuild.wpclr f
  | mark f => exact Rebuild.mark f
  | rwcArm f => exact Rebuild.rwcArm f
  | rwcCancel f => exact Rebuild.rwcCancel f
  | finj f => exact Rebuild.finj f
  | mcrd f => exact Rebuild.mcrd f
  | profStart f => exact Rebuild.profStart f
  | profStop f => exact Rebuild.profStop f
  | profRead f => exact Rebuild.profRead f
  | walk f => exact Rebuild.walk f
  | firingStart core pe => exact Rebuild.firingStart core pe
  | waitingFiringResume who slot => exact Rebuild.waitingFiringResume who slot
  | firingComplete core at_ => exact Rebuild.firingComplete core at_
  | commit core at_ => exact Rebuild.commit core at_
  | rowRelease core unit => exact Rebuild.rowRelease core unit
  | loadSlotGrant core chan => exact Rebuild.loadSlotGrant core chan
  | loadResponse id lane => exact Rebuild.loadResponse id lane
  | eagerAtomicReturn id => exact Rebuild.eagerAtomicReturn id
  | sliceAccess x => exact Rebuild.sliceAccess x
  | storeUnitPerform id => exact Rebuild.storeUnitPerform id
  | horizonBroadcast region => exact Rebuild.horizonBroadcast region
  | sequencerBlockComplete who => exact Rebuild.sequencerBlockComplete who
  | sequencerWaitEnd core => exact Rebuild.sequencerWaitEnd core
  | seqBlockFetch core => exact Rebuild.seqBlockFetch core
  | trapDelivery core => exact Rebuild.trapDelivery core
  | engineQueueEntry core => exact Rebuild.engineQueueEntry core
  | engineCommandStart core eng => exact Rebuild.engineCommandStart core eng
  | engineCommandComplete core eng => exact Rebuild.engineCommandComplete core eng
  | generatorRowFill core gen => exact Rebuild.generatorRowFill core gen
  | generatorRowShrink core gen => exact Rebuild.generatorRowShrink core gen
  | chainedHalfStart core => exact Rebuild.chainedHalfStart core
  | mxldwRecordWrite core => exact Rebuild.mxldwRecordWrite core
  | matrixRecordLoad core => exact Rebuild.matrixRecordLoad core
  | matrixRowAdmit core => exact Rebuild.matrixRowAdmit core
  | matrixAccWrite core => exact Rebuild.matrixAccWrite core
  | tinComplete ctx page => exact Rebuild.tinComplete ctx page
  | toutComplete ctx page => exact Rebuild.toutComplete ctx page
  | pageWalk w => exact Rebuild.pageWalk w
  | kilnPageIn ctx page => exact Rebuild.kilnPageIn ctx page
  | tierEntryFree core => exact Rebuild.tierEntryFree core
  | kilnFaultResolve core fix leaf => exact Rebuild.kilnFaultResolve core fix leaf
  | sideCounterFlush core n => exact Rebuild.sideCounterFlush core n
  | commandWindowWrite ctx row auth => exact Rebuild.commandWindowWrite ctx row auth
  | launch ctx place pool laid => exact Rebuild.launch ctx place pool laid
  | launchRetake ctx place pool laid => exact Rebuild.launchRetake ctx place pool laid
  | completionRecordFill ctx => exact Rebuild.completionRecordFill ctx
  | completionShrink ctx n => exact Rebuild.completionShrink ctx n
  | dispatchBatch die => exact Rebuild.dispatchBatch die
  | groupBind die => exact Rebuild.groupBind die
  | bindPlaneLight core => exact Rebuild.bindPlaneLight core
  | cswapLighting core => exact Rebuild.cswapLighting core
  | groupComplete core => exact Rebuild.groupComplete core
  | regionEnd region => exact Rebuild.regionEnd region
  | gangRecordReady rec => exact Rebuild.gangRecordReady rec
  | gangReadinessCheck gang => exact Rebuild.gangReadinessCheck gang
  | gangSwitch gang => exact Rebuild.gangSwitch gang
  | preemptionMarker core el => exact Rebuild.preemptionMarker core el
  | snapshotMarker core => exact Rebuild.snapshotMarker core
  | snapshotTimer region => exact Rebuild.snapshotTimer region
  | cutComplete region => exact Rebuild.cutComplete region
  | undoLogHalf region => exact Rebuild.undoLogHalf region
  | undoLogFull region => exact Rebuild.undoLogFull region
  | regionRollback region => exact Rebuild.regionRollback region
  | regionStop region => exact Rebuild.regionStop region
  | coreFreeze core => exact Rebuild.coreFreeze core
  | rwcStop core => exact Rebuild.rwcStop core
  | errorRecordWrite die what => exact Rebuild.errorRecordWrite die what
  | coreRetire core site => exact Rebuild.coreRetire core site
  | skidReport core eng => exact Rebuild.skidReport core eng
  | watchRaise core => exact Rebuild.watchRaise core
  | deadlockDetectorExpiry region => exact Rebuild.deadlockDetectorExpiry region
  | stallWalkDone region => exact Rebuild.stallWalkDone region
  | steerStep core op => exact Rebuild.steerStep core op
  | mergeStep core op => exact Rebuild.mergeStep core op
  | carryStep core op => exact Rebuild.carryStep core op
  | invariantStep core op => exact Rebuild.invariantStep core op
  | chainIndexEmit core op => exact Rebuild.chainIndexEmit core op
  | loopIndexEmit core op => exact Rebuild.loopIndexEmit core op
  | cornerTurnStep core op => exact Rebuild.cornerTurnStep core op
  | controlTokenPass core op => exact Rebuild.controlTokenPass core op
  | circuitBeatSend core route => exact Rebuild.circuitBeatSend core route
  | circuitBeatReceive core route => exact Rebuild.circuitBeatReceive core route
  | linkUnitReceive link what good => exact Rebuild.linkUnitReceive link what good
  | linkAckReceive link => exact Rebuild.linkAckReceive link
  | linkNakReceive link => exact Rebuild.linkNakReceive link
  | linkRetryTimeout link => exact Rebuild.linkRetryTimeout link
  | linkDead link => exact Rebuild.linkDead link
  | phyTrainingLoss link => exact Rebuild.phyTrainingLoss link
  | rerouteComplete => exact Rebuild.rerouteComplete
  | networkWriteArrival ctx conn va bytes => exact Rebuild.networkWriteArrival ctx conn va bytes
  | networkReadArrival ctx conn va n => exact Rebuild.networkReadArrival ctx conn va n
  | networkAtomicArrival ctx conn va op ty b c => exact Rebuild.networkAtomicArrival ctx conn va op ty b c
  | nredRowArrival ctx conn va op ty n row => exact Rebuild.nredRowArrival ctx conn va op ty n row
  | ngetRowArrival core row => exact Rebuild.ngetRowArrival core row
  | cpyrRowArrival core gen => exact Rebuild.cpyrRowArrival core gen
  | networkAckReceive core => exact Rebuild.networkAckReceive core
  | remoteRefusalReceive core scope => exact Rebuild.remoteRefusalReceive core scope
  | adminConnectionSetup key nonce proof_ => exact Rebuild.adminConnectionSetup key nonce proof_
  | attestationRead ctx nonce => exact Rebuild.attestationRead ctx nonce
  | enrol => exact Rebuild.enrol
  | openCtx place => exact Rebuild.openCtx place
  | sealCtx => exact Rebuild.sealCtx
  | ckey auth => exact Rebuild.ckey auth
  | mapPage frame => exact Rebuild.mapPage frame
  | unmap => exact Rebuild.unmap
  | connect => exact Rebuild.connect
  | gangEntry => exact Rebuild.gangEntry
  | freezeRegion => exact Rebuild.freezeRegion
  | resumeRegion => exact Rebuild.resumeRegion
  | rollbackRegion => exact Rebuild.rollbackRegion
  | endRegion => exact Rebuild.endRegion
  | closeCtx => exact Rebuild.closeCtx
  | powerOnBoot firmware signature => exact Rebuild.powerOnBoot firmware signature
  | fullServiceStart enabled expanders => exact Rebuild.fullServiceStart enabled expanders
  | expanderFailure port => exact Rebuild.expanderFailure port
  | throttleStep step => exact Rebuild.throttleStep step
  | thermalStop => exact Rebuild.thermalStop
  | storeAcknowledgement core unit => exact Rebuild.storeAcknowledgement core unit
  | ptpClockDiscipline time => exact Rebuild.ptpClockDiscipline time

theorem toNat_append_add {n m : Nat} (x : BitVec n) (y : BitVec m) : (x ++ y).toNat = x.toNat * 2 ^ m + y.toNat := by
  rw [BitVec.toNat_append, ← Nat.shiftLeft_add_eq_or_of_lt y.isLt, Nat.shiftLeft_eq]

/-- A field of a word with its width. -/
abbrev WordField := (n : Nat) × BitVec n

/-- The width of a list of fields. -/
def widthOf (l : List WordField) : Nat := (l.map Sigma.fst).sum

/-- The number of a word that holds a number and fields after it, the highest first. -/
def packed (v : Nat) (l : List WordField) : Nat := l.foldl (fun v p => v * 2 ^ p.1 + p.2.toNat) v

/-- The fields lie below the number they follow. -/
theorem packed_div (v : Nat) (l : List WordField) : packed v l / 2 ^ widthOf l = v := by
  induction l generalizing v with
  | nil => exact Nat.div_one v
  | cons p l ih =>
    rw [widthOf, List.map_cons, List.sum_cons, Nat.add_comm p.1, Nat.pow_add, ← Nat.div_div_eq_div_mul]
    refine (congrArg (· / 2 ^ p.1) (ih (v * 2 ^ p.1 + p.2.toNat))).trans ?_
    rw [Nat.mul_comm, Nat.mul_add_div (Nat.two_pow_pos _), Nat.div_eq_of_lt p.2.isLt, Nat.add_zero]

/-- Each field is read back at its place. -/
theorem packed_get {v i : Nat} {l : List WordField} {p : WordField} (h : l[i]? = some p) :
    packed v l / 2 ^ widthOf (l.drop (i + 1)) % 2 ^ p.1 = p.2.toNat := by
  induction l generalizing v i with
  | nil => cases h
  | cons q l ih =>
    cases i with
    | zero =>
      obtain rfl : q = p := Option.some.inj h
      rw [List.drop_succ_cons, List.drop_zero]
      refine (congrArg (· % 2 ^ q.1) (packed_div (v * 2 ^ q.1 + q.2.toNat) l)).trans ?_
      rw [Nat.mul_comm, Nat.mul_add_mod, Nat.mod_eq_of_lt q.2.isLt]
    | succ i => exact ih h

/-- The fields of format D after the opcode. -/
def dWordFields (f : DFields) : List WordField :=
  [⟨2, f.pred⟩, ⟨4, f.ty⟩, ⟨3, f.srcA⟩, ⟨3, f.srcB⟩, ⟨4, f.mod⟩, ⟨10, f.t1⟩, ⟨10, f.t2⟩, ⟨2, 0⟩, ⟨16, f.imm⟩]

theorem encodeFields_d_toNat (op : BitVec 10) (f : DFields) :
    (encodeFields op (.d f)).toNat = packed op.toNat (dWordFields f) := by
  rw [encodeFields]; repeat erw [toNat_append_add]
  rfl

/-- The fields of format W after the opcode. -/
def wWordFields (f : WFields) : List WordField :=
  [⟨2, f.pred⟩, ⟨4, f.ty⟩, ⟨3, f.srcA⟩, ⟨3, f.ofs⟩, ⟨4, f.mod⟩, ⟨10, f.t1⟩, ⟨10, f.t2⟩, ⟨2, 0⟩, ⟨4, f.port⟩, ⟨12, f.dist⟩]

theorem encodeFields_w_toNat (op : BitVec 10) (f : WFields) :
    (encodeFields op (.w f)).toNat = packed op.toNat (wWordFields f) := by
  rw [encodeFields]; repeat erw [toNat_append_add]
  rfl

/-- The fields of format M after the opcode. -/
def mWordFields (f : MFields) : List WordField :=
  [⟨2, f.pred⟩, ⟨4, f.ty⟩, ⟨3, f.srcA⟩, ⟨3, f.srcB⟩, ⟨4, f.mod⟩, ⟨10, f.t1⟩, ⟨10, f.t2⟩, ⟨2, f.size⟩, ⟨16, f.low⟩]

theorem encodeFields_m_toNat (op : BitVec 10) (f : MFields) :
    (encodeFields op (.m f)).toNat = packed op.toNat (mWordFields f) := by
  rw [encodeFields]; repeat erw [toNat_append_add]
  rfl

/-- The fields of format C after the opcode. -/
def cWordFields (f : CFields) : List WordField :=
  [⟨2, f.pred⟩, ⟨4, f.ty⟩, ⟨3, f.srcA⟩, ⟨3, f.srcB⟩, ⟨4, f.mod⟩, ⟨10, f.t1⟩, ⟨10, f.t2⟩, ⟨2, 0⟩, ⟨8, f.obj⟩, ⟨8, f.arg⟩]

theorem encodeFields_c_toNat (op : BitVec 10) (f : CFields) :
    (encodeFields op (.c f)).toNat = packed op.toNat (cWordFields f) := by
  rw [encodeFields]; repeat erw [toNat_append_add]
  rfl

/-- The fields of format E after the opcode. -/
def eWordFields (f : EFields) : List WordField :=
  [⟨2, f.pred⟩, ⟨4, f.ty⟩, ⟨3, f.srcA⟩, ⟨3, f.srcB⟩, ⟨4, f.mod⟩, ⟨10, f.t1⟩, ⟨10, f.t2⟩, ⟨6, f.desc⟩, ⟨8, f.win⟩, ⟨4, f.flags⟩]

theorem encodeFields_e_toNat (op : BitVec 10) (f : EFields) :
    (encodeFields op (.e f)).toNat = packed op.toNat (eWordFields f) := by
  rw [encodeFields]; repeat erw [toNat_append_add]
  rfl

/-- The fields of format L after the opcode. -/
def lWordFields (f : LFields) : List WordField :=
  [⟨2, f.pred⟩, ⟨4, f.ty⟩, ⟨10, 0⟩, ⟨10, f.t1⟩, ⟨10, f.t2⟩, ⟨18, 0⟩]

theorem encodeFields_l_toNat (op : BitVec 10) (f : LFields) :
    (encodeFields op (.l f)).toNat = packed op.toNat (lWordFields f) := by
  rw [encodeFields]; repeat erw [toNat_append_add]
  rfl

/-- A field that a word's number holds is read back. -/
theorem bits_eq {w : Word} {lo n : Nat} {x : BitVec n} (h : w.toNat / 2 ^ lo % 2 ^ n = x.toNat) : bits w lo n = x := by
  apply BitVec.eq_of_toNat_eq
  rw [bits, BitVec.extractLsb'_toNat, Nat.shiftRight_eq_div_pow, h]

/-- A field of a word is the one that stands at its place among the word's fields. -/
theorem bits_packed {w : Word} {v : Nat} {l : List WordField} (h : w.toNat = packed v l) (i : Nat) {n lo : Nat} {x : BitVec n}
    (hi : l[i]? = some ⟨n, x⟩) (hlo : widthOf (l.drop (i + 1)) = lo) : bits w lo n = x :=
  bits_eq (by rw [h, ← hlo]; exact packed_get hi)

/-- The opcode stands above the fields. -/
theorem opBits_packed {w : Word} {op : BitVec 10} {l : List WordField} (h : w.toNat = packed op.toNat l) (hl : widthOf l = 54) :
    opBits w = op :=
  bits_eq (by rw [h, ← hl, packed_div, Nat.mod_eq_of_lt op.isLt])

@[simp] theorem opBits_encodeFields (op : BitVec 10) (f : Fields) : opBits (encodeFields op f) = op := by
  cases f with
  | d f => exact opBits_packed (encodeFields_d_toNat op f) rfl
  | w f => exact opBits_packed (encodeFields_w_toNat op f) rfl
  | m f => exact opBits_packed (encodeFields_m_toNat op f) rfl
  | c f => exact opBits_packed (encodeFields_c_toNat op f) rfl
  | e f => exact opBits_packed (encodeFields_e_toNat op f) rfl
  | l f => exact opBits_packed (encodeFields_l_toNat op f) rfl

theorem dFields_encodeFields (op : BitVec 10) (f : DFields) : dFields (encodeFields op (.d f)) = f := by
  have h := encodeFields_d_toNat op f
  rw [dFields, DFields.mk.injEq]
  exact ⟨bits_packed h 0 rfl rfl, bits_packed h 1 rfl rfl, bits_packed h 2 rfl rfl, bits_packed h 3 rfl rfl, bits_packed h 4 rfl rfl,
    bits_packed h 5 rfl rfl, bits_packed h 6 rfl rfl, bits_packed h 8 rfl rfl⟩

theorem wFields_encodeFields (op : BitVec 10) (f : WFields) : wFields (encodeFields op (.w f)) = f := by
  have h := encodeFields_w_toNat op f
  rw [wFields, WFields.mk.injEq]
  exact ⟨bits_packed h 0 rfl rfl, bits_packed h 1 rfl rfl, bits_packed h 2 rfl rfl, bits_packed h 3 rfl rfl, bits_packed h 4 rfl rfl,
    bits_packed h 5 rfl rfl, bits_packed h 6 rfl rfl, bits_packed h 8 rfl rfl, bits_packed h 9 rfl rfl⟩

theorem mFields_encodeFields (op : BitVec 10) (f : MFields) : mFields (encodeFields op (.m f)) = f := by
  have h := encodeFields_m_toNat op f
  rw [mFields, MFields.mk.injEq]
  exact ⟨bits_packed h 0 rfl rfl, bits_packed h 1 rfl rfl, bits_packed h 2 rfl rfl, bits_packed h 3 rfl rfl, bits_packed h 4 rfl rfl,
    bits_packed h 5 rfl rfl, bits_packed h 6 rfl rfl, bits_packed h 7 rfl rfl, bits_packed h 8 rfl rfl⟩

theorem cFields_encodeFields (op : BitVec 10) (f : CFields) : cFields (encodeFields op (.c f)) = f := by
  have h := encodeFields_c_toNat op f
  rw [cFields, CFields.mk.injEq]
  exact ⟨bits_packed h 0 rfl rfl, bits_packed h 1 rfl rfl, bits_packed h 2 rfl rfl, bits_packed h 3 rfl rfl, bits_packed h 4 rfl rfl,
    bits_packed h 5 rfl rfl, bits_packed h 6 rfl rfl, bits_packed h 8 rfl rfl, bits_packed h 9 rfl rfl⟩

theorem eFields_encodeFields (op : BitVec 10) (f : EFields) : eFields (encodeFields op (.e f)) = f := by
  have h := encodeFields_e_toNat op f
  rw [eFields, EFields.mk.injEq]
  exact ⟨bits_packed h 0 rfl rfl, bits_packed h 1 rfl rfl, bits_packed h 2 rfl rfl, bits_packed h 3 rfl rfl, bits_packed h 4 rfl rfl,
    bits_packed h 5 rfl rfl, bits_packed h 6 rfl rfl, bits_packed h 7 rfl rfl, bits_packed h 8 rfl rfl, bits_packed h 9 rfl rfl⟩

theorem lFields_encodeFields (op : BitVec 10) (f : LFields) : lFields (encodeFields op (.l f)) f.lit = f := by
  have h := encodeFields_l_toNat op f
  rw [lFields, LFields.mk.injEq]
  exact ⟨bits_packed h 0 rfl rfl, bits_packed h 1 rfl rfl, bits_packed h 3 rfl rfl, bits_packed h 4 rfl rfl, rfl⟩

/-- A well-formed instruction agrees with its selector fields and has an opcode and fields. -/
theorem wellFormed_parts {i : Instr} (h : WellFormed i) :
    selectorOk i = true ∧ ∃ op f, opcodeOf i = some op ∧ fieldsOf i = some f := by
  obtain ⟨hs, hw⟩ := Bool.and_eq_true_iff.1 h
  refine ⟨hs, ?_⟩
  rcases ho : opcodeOf i with _ | op
  · simp [wordFails, ho] at hw
  · rcases hf : fieldsOf i with _ | f
    · simp [wordFails, ho, hf] at hw
    · exact ⟨op, f, rfl, rfl⟩

/-- The second word that an instruction of these fields is read with: the literal of format L, else whatever follows. -/
def secondWord : Fields → Word → Word
  | .l g, _ => g.lit
  | _, lit => lit

/-- A word made of an instruction's opcode and fields is read back as the instruction (R103, R106 to R111). -/
theorem readWord_encodeFields {i : Instr} {op : Nat} {f : Fields} (hs : selectorOk i = true) (ho : opcodeOf i = some op)
    (hf : fieldsOf i = some f) (lit : Word) :
    readWord (encodeFields (BitVec.ofNat 10 op) f) (secondWord f lit) = some i := by
  obtain ⟨hlt, hfmt, hb⟩ := rebuild i hs op f ho hf
  unfold readWord
  dsimp only
  rw [opBits_encodeFields, BitVec.toNat_ofNat, Nat.mod_eq_of_lt hlt, hfmt]
  cases f with
  | d f => simpa only [formatFor, dFields_encodeFields, buildFor] using hb
  | w f => simpa only [formatFor, wFields_encodeFields, buildFor] using hb
  | m f => simpa only [formatFor, mFields_encodeFields, buildFor] using hb
  | c f => simpa only [formatFor, cFields_encodeFields, buildFor] using hb
  | e f => simpa only [formatFor, eFields_encodeFields, buildFor] using hb
  | l f => simpa only [formatFor, secondWord, lFields_encodeFields, buildFor] using hb

/-- The one opcode of format L is that of LIT (R111). -/
theorem formatOf_l {op : Nat} : formatOf op = some .l ↔ op = 0x088 := by
  constructor
  · intro h
    unfold formatOf at h
    split_ifs at h
    case pos => cases h
    case pos hl => exact hl
    all_goals cases h
  · rintro rfl; rfl

/-- The words of a well-formed instruction at the front of a block's words are its slot, and the rest begin after them. -/
theorem slotsFrom_encode {i : Instr} (h : WellFormed i) (n : Nat) (rest : List Word) :
    ∃ w, slotsFrom n (encode i ++ rest) = (n, w, some i) :: slotsFrom (n + (encode i).length) rest := by
  obtain ⟨hs, op, f, ho, hf⟩ := wellFormed_parts h
  have hr := readWord_encodeFields hs ho hf
  obtain ⟨hlt, hfmt, -⟩ := rebuild i hs op f ho hf
  have hl : opBits (encodeFields (BitVec.ofNat 10 op) f) = 0x088 ↔ formatFor f = .l := by
    rw [opBits_encodeFields, ← BitVec.toNat_inj, BitVec.toNat_ofNat, Nat.mod_eq_of_lt hlt, ← Option.some_inj (b := Format.l), ← hfmt,
      formatOf_l]
    rfl
  refine ⟨encodeFields (BitVec.ofNat 10 op) f, ?_⟩
  have plain (hn : formatFor f ≠ .l) (he : encode i = [encodeFields (BitVec.ofNat 10 op) f])
      (h2 : ∀ lit, secondWord f lit = lit) :
      slotsFrom n (encode i ++ rest) = (n, encodeFields (BitVec.ofNat 10 op) f, some i) :: slotsFrom (n + (encode i).length) rest := by
    rw [he]
    simp only [h2] at hr
    cases rest with
    | nil => simp [slotsFrom, hr]
    | cons l r => simp only [List.cons_append, List.nil_append, slotsFrom, mt hl.1 hn, hr, if_false, List.length_singleton]
  cases f with
  | l g =>
    have he : encode i = [encodeFields (BitVec.ofNat 10 op) (.l g), g.lit] := by simp only [encode, ho, hf]
    have hg : readWord (encodeFields (BitVec.ofNat 10 op) (.l g)) g.lit = some i := hr 0
    rw [he]
    simp only [List.cons_append, List.nil_append, slotsFrom, hl.2 rfl, hg, if_true, List.length_cons, List.length_nil]
  | d g => exact plain nofun (by simp only [encode, ho, hf]) fun _ => rfl
  | w g => exact plain nofun (by simp only [encode, ho, hf]) fun _ => rfl
  | m g => exact plain nofun (by simp only [encode, ho, hf]) fun _ => rfl
  | c g => exact plain nofun (by simp only [encode, ho, hf]) fun _ => rfl
  | e g => exact plain nofun (by simp only [encode, ho, hf]) fun _ => rfl

theorem encode_length_pos {i : Instr} (h : WellFormed i) : 0 < (encode i).length := by
  obtain ⟨hs, op, f, ho, hf⟩ := wellFormed_parts h
  cases f <;> simp [encode, ho, hf]

/-- In a block made of well-formed instructions each stands at the slot of its first word (R111). -/
theorem slotsFrom_find {pre post : List Instr} {i : Instr} (h : ∀ j ∈ pre ++ i :: post, WellFormed j) (n : Nat) :
    ∃ w, (slotsFrom n ((pre ++ i :: post).flatMap encode)).find? (fun q => q.1 = n + (pre.flatMap encode).length) =
      some (n + (pre.flatMap encode).length, w, some i) := by
  induction pre generalizing n with
  | nil =>
    obtain ⟨w, hw⟩ := slotsFrom_encode (h i (by simp)) n (post.flatMap encode)
    exact ⟨w, by simp [hw]⟩
  | cons j pre ih =>
    have hj : WellFormed j := h j (by simp)
    obtain ⟨v, hv⟩ := slotsFrom_encode hj n ((pre ++ i :: post).flatMap encode)
    obtain ⟨w, hw⟩ := ih (fun k hk => h k (List.mem_cons_of_mem _ hk)) (n + (encode j).length)
    have hp := encode_length_pos hj
    refine ⟨w, ?_⟩
    simp only [List.cons_append, List.flatMap_cons, List.length_append]
    rw [hv, List.find?_cons_of_neg (by dsimp only; rw [decide_eq_true_eq]; omega), ← Nat.add_assoc, hw]

/-! ### A step's turn -/

theorem nextTurn_listed {s : State} {t : Turn} {r : List Turn} (h : s.run.turns = t :: r) :
    s.nextTurn = (t, { s with run := { s.run with turns := r } }) := by
  simp only [State.nextTurn, h]

theorem nextTurn_drawn {s : State} (h : s.run.turns = []) :
    s.nextTurn = (Config.turn s.run.draw, { s with run := { s.run with draw := s.run.draw + 1 } }) := by
  simp only [State.nextTurn, h]

theorem turnsHappen : TurnsHappen := by
  refine ⟨fun s i r h => ?_, fun s n r h => ?_, fun s i h hi => ?_, fun s who slot h hi => ?_⟩
  · rw [step, nextTurn_listed h]; rfl
  · rw [step, nextTurn_listed h]; rfl
  · rw [step, nextTurn_drawn h, hi]; rfl
  · rw [step, nextTurn_drawn h, hi]; rfl

/-- The slot of an instruction in a block of well-formed ones is fetched with it (R113). -/
theorem fetch_encoded {f : Fabric} {who : Agent} {e : Exec} {b : Block} {pre post : List Instr} {i : Instr}
    (he : (f.core who.core).exec who = some e) (hb : (f.core who.core).blockOf who e = some b)
    (hw : b.words = (pre ++ i :: post).flatMap encode) (h : ∀ j ∈ pre ++ i :: post, WellFormed j) :
    ∃ w, f.fetch who (pre.flatMap encode).length = some (w, some i) := by
  obtain ⟨w, hf⟩ := slotsFrom_find h 0
  rw [Nat.zero_add] at hf
  exact ⟨w, by simp only [Fabric.fetch, he, hb, Block.slots, hw, hf, Option.bind_eq_bind, Option.bind_some, Option.pure_def]⟩

theorem stepRunsDecodedPart : StepRunsDecodedPart := by
  intro s who r e b pre i post ht he hb hw h
  obtain ⟨w, hf⟩ := fetch_encoded he hb hw h
  rw [step, nextTurn_listed ht]
  simp only [State.turn, State.issue, hf]
  cases exec i { s with run := { s.run with turns := r, acting := some (who, (pre.flatMap encode).length) } } <;> rfl

/-- Settles O53: a slot offered is fetched with the instruction whose words stand there, and the turns happen by their kind. -/
theorem stepRunsDecoded : Obligations.StepRunsDecoded :=
  ⟨stepRunsDecodedPart, turnsHappen⟩

end Sys2Proof.Proofs

/-! ### Memory changes in its events alone -/

namespace Sys2Proof.Proofs

open Sys2Proof.Machine Sys2Proof.Claims

/-! A case of an instruction that a hypothesis excludes closes by one of these: a split over all instructions has hundreds of them. -/

theorem of_false_eq_true {p : Prop} (h : false = true) : p := nomatch h

theorem of_true_eq_false {p : Prop} (h : true = false) : p := nomatch h

theorem of_none_eq_some {α : Type} {a : α} {p : Prop} (h : none = some a) : p := nomatch h

theorem onContext_mem {m : Nat} {mem : Memory} {f : Fabric} {go : Nat → Option Reply} {r : Reply}
    (hg : ∀ x r, go x = some r → r.mem = mem) (h : onContext m mem f go = some r) : r.mem = mem := by
  unfold onContext refused at h
  dsimp only at h
  split_ifs at h
  · cases h; rfl
  · cases h; rfl
  · exact hg _ _ h

theorem onRegion_mem {m : Nat} {mem : Memory} {f : Fabric} {go : Nat → Option Reply} {r : Reply}
    (hg : ∀ x r, go x = some r → r.mem = mem) (h : onRegion m mem f go = some r) : r.mem = mem := by
  refine onContext_mem (fun x r h => ?_) h
  split at h
  · cases h; rfl
  · exact hg _ _ h

/-- A management request whose reply leaves memory as it was leaves it so (R447). -/
theorem manage_mem {f : Fabric} {mem : Memory} {op : Nat} {act : Nat → Memory → Fabric → Option Reply}
    (ha : ∀ n r, act n mem f = some r → r.mem = mem) : (f.manage mem op act).1 = mem := by
  unfold Fabric.manage
  split
  · rfl
  · dsimp only
    split
    · rfl
    · split
      · rfl
      · rename_i hr
        split_ifs at hr
        · cases hr; rfl
        · cases hr; rfl
        · exact ha _ _ hr

theorem manageStep_mem {op : Nat} {act : Nat → Memory → Fabric → Option Reply} {s t : State}
    (ha : ∀ n m f r, act n m f = some r → r.mem = m) (h : manageStep op act s = .next t) : t.mem = s.mem := by
  cases h
  exact manage_mem fun n r => ha n _ _ r

/-- The memory that an outcome leaves. -/
def memAfter (s : State) : Host.Outcome State Fault Refusal → Memory
  | .next t => t.mem
  | _ => s.mem

theorem mem_of_memAfter {s t : State} {o : Host.Outcome State Fault Refusal} (h : o = .next t) (hm : memAfter s o = s.mem) :
    t.mem = s.mem := by
  subst h; exact hm

/-- An instruction of a block, and an event outside `memoryEvent`, leaves memory as it was (R24, R161, R182). -/
theorem exec_mem {i : Instr} {s t : State} (hi : memoryEvent i = false) (h : exec i s = .next t) : t.mem = s.mem := by
  revert hi h
  cases i
  case enrol =>
    refine fun _ => manageStep_mem fun n m f r hr => ?_
    split at hr <;> cases hr <;> rfl
  case sealCtx =>
    refine fun _ => manageStep_mem fun n m f r => onContext_mem fun x r hr => ?_
    split at hr <;> cases hr <;> rfl
  case ckey auth =>
    refine fun _ => manageStep_mem fun n m f r => onContext_mem fun x r hr => ?_
    split_ifs at hr <;> cases hr <;> rfl
  case connect =>
    refine fun _ => manageStep_mem fun n m f r => onContext_mem fun x r hr => ?_
    dsimp only at hr
    split_ifs at hr <;> cases hr <;> rfl
  case gangEntry =>
    refine fun _ => manageStep_mem fun n m f r hr => ?_
    dsimp only at hr
    split_ifs at hr <;> cases hr <;> rfl
  case freezeRegion =>
    refine fun _ => manageStep_mem fun n m f r => onRegion_mem fun x r hr => ?_
    cases hr; rfl
  case resumeRegion =>
    refine fun _ => manageStep_mem fun n m f r => onRegion_mem fun x r hr => ?_
    split at hr <;> cases hr <;> rfl
  case sliceAccess | storeUnitPerform | engineCommandComplete | sequencerBlockComplete | trapDelivery | pageWalk | sideCounterFlush
      | tinComplete | toutComplete | kilnPageIn | kilnFaultResolve | launch | launchRetake | groupBind | preemptionMarker
      | regionRollback | stallWalkDone | groupComplete | regionEnd | errorRecordWrite | networkWriteArrival | networkReadArrival
      | networkAtomicArrival | nredRowArrival | openCtx | mapPage | unmap | rollbackRegion | endRegion | closeCtx =>
    exact of_true_eq_false
  all_goals exact fun _ h => mem_of_memAfter h rfl

/-- One arm of the decoder's table, as its match unfolds: the match's own equations, one for each pair of arms, are too many to use. -/
theorem any_arm {p : Instr → Bool} {op n : Nat} {a : Option Instr} {e : ¬op = n → Option Instr} (ha : a.any p = false)
    (he : ∀ h, (e h).any p = false) : (dite (op = n) (Eq.ndrec_symm (motive := fun _ => Option Instr) a) e).any p = false := by
  by_cases h : op = n
  · subst h; simpa using ha
  · simpa [h] using he h

section

set_option linter.auxLemma false

theorem buildW_block (op : Nat) (f : WFields) : (buildW op f).any memoryEvent = false := by
  delta buildW buildW.match_1
  repeat' refine any_arm ?_ fun _ => ?_
  all_goals rfl

theorem buildM_block (op : Nat) (f : MFields) : (buildM op f).any memoryEvent = false := by
  delta buildM buildM.match_1
  repeat' refine any_arm ?_ fun _ => ?_
  all_goals rfl

theorem buildD_block (op : Nat) (f : DFields) : (buildD op f).any memoryEvent = false := by
  delta buildD buildD.match_5
  repeat' refine any_arm ?_ fun _ => ?_
  any_goals rfl
  all_goals
    simp only [Option.any_some]
    repeat' split
    all_goals rfl

theorem buildC_block (op : Nat) (f : CFields) : (buildC op f).any memoryEvent = false := by
  delta buildC buildC.match_1
  repeat' refine any_arm ?_ fun _ => ?_
  any_goals rfl
  all_goals
    simp only [Option.any_some]
    repeat' split
    all_goals rfl

theorem buildE_block (op : Nat) (f : EFields) : (buildE op f).any memoryEvent = false := by
  delta buildE buildE.match_1
  repeat' refine any_arm ?_ fun _ => ?_
  any_goals rfl
  all_goals
    simp only [Option.any_some]
    repeat' split
    all_goals rfl

end

/-- No word is read as an event that may change memory (R103). -/
theorem readWord_block (w lit : Word) : (readWord w lit).any memoryEvent = false := by
  unfold readWord
  dsimp only
  split
  · rfl
  · exact buildD_block ..
  · exact buildW_block ..
  · exact buildM_block ..
  · exact buildC_block ..
  · exact buildE_block ..
  · rfl

/-- No instruction that a block holds is such an event. -/
theorem slotsFrom_block {q : Nat × Word × Option Instr} :
    ∀ (l : List Word) (n : Nat), q ∈ slotsFrom n l → q.2.2.any memoryEvent = false
  | [], _, h => by cases h
  | [w], n, h => by
    rw [slotsFrom, List.mem_singleton] at h
    subst h
    exact readWord_block ..
  | w :: v :: r, n, h => by
    rw [slotsFrom] at h
    split_ifs at h
    · rcases List.mem_cons.1 h with rfl | h
      · exact readWord_block ..
      · exact slotsFrom_block r _ h
    · rcases List.mem_cons.1 h with rfl | h
      · exact readWord_block ..
      · exact slotsFrom_block (v :: r) _ h

/-- The instruction fetched from a slot is no such event. -/
theorem fetch_block {f : Fabric} {who : Agent} {slot : Nat} {w : Word} {i : Instr} (h : f.fetch who slot = some (w, some i)) :
    memoryEvent i = false := by
  simp only [Fabric.fetch, Option.bind_eq_bind, Option.bind_eq_some_iff, Option.pure_def, Option.some.injEq] at h
  obtain ⟨e, -, b, -, q, hq, hs⟩ := h
  have hb := slotsFrom_block _ _ (List.mem_of_find?_eq_some hq)
  rwa [congrArg Prod.snd hs] at hb

/-- A slot offered to issue leaves memory as it was. -/
theorem issue_mem {s t : State} {who : Agent} {slot : Nat} (h : s.issue who slot = .next t) : t.mem = s.mem := by
  unfold State.issue at h
  split at h
  · cases h; rfl
  · cases h
  · rename_i hf
    split at h
    · rename_i he
      cases h
      exact (exec_mem (fetch_block hf) he : _)
    · rename_i hn
      exact absurd h (hn t)

theorem nextTurn_mem (s : State) : s.nextTurn.2.mem = s.mem := by
  unfold State.nextTurn; split <;> rfl

/-- Settles O57: by the kind of the turn, an instruction, an event or cycles. -/
theorem onlyTheseWriteMemory : Obligations.OnlyTheseWriteMemory := by
  intro s t h hm
  rw [← nextTurn_mem s] at hm
  unfold step State.turn at h
  split at h
  · exact absurd (issue_mem h) hm
  · rename_i i hi
    exact ⟨i, hi, Bool.of_not_eq_false fun he => hm (exec_mem he h)⟩
  · cases h; exact absurd rfl hm

end Sys2Proof.Proofs

/-! ### Barriers and WAITC -/

namespace Sys2Proof.Machine

/-- A block in progress changed leaves the barriers as they were. -/
@[simp] theorem Core.bar_modExec (k : Core) (who : Agent) (g : Exec → Exec) (b : Nat) : (k.modExec who g).bar b = k.bar b := by
  cases who <;> rfl

/-- A block in progress changed leaves the phases that the sequencer recorded as they were. -/
@[simp] theorem Core.recorded_modExec (k : Core) (who : Agent) (g : Exec → Exec) (b : Nat) :
    (k.modExec who g).recorded b = k.recorded b := by
  cases who <;> rfl

/-- An arrival counts, and at the expected count flips the phase and clears the count (R50). -/
theorem Core.bar_arrive (k : Core) (b : Nat) : (k.arrive b).bar b =
    if (k.bar b).arrived + 1 ≥ sget 1 k.plane.bars b then ⟨0, !(k.bar b).phase⟩ else ⟨(k.bar b).arrived + 1, (k.bar b).phase⟩ :=
  sget_sset_same _ _ _ _

theorem Core.bar_arrive_other (k : Core) {b c : Nat} (h : c ≠ b) : (k.arrive b).bar c = k.bar c :=
  sget_sset_other _ _ _ h

end Sys2Proof.Machine

namespace Sys2Proof.Proofs

open Sys2Proof.Machine Sys2Proof.Claims

theorem barrierArrival : BarrierArrival := fun k b =>
  ⟨sget_sset_same _ _ _ _, fun h => (k.bar_arrive b).trans (if_neg (Nat.not_le.2 h)), fun h => (k.bar_arrive b).trans (if_pos h),
    fun _ h => ⟨k.bar_arrive_other h, sget_sset_other _ _ _ h⟩⟩

/-- BARA arrives at commit in a firing, and at once in a sequencer's block whose stores are performed (R193). -/
theorem does_bara (d : DFields) :
    Does (.bara d) (fun _ x => IsActor x) (fun x f => x.buffer (.arrive (d.imm.toNat % 32)) f) ∧
    Does (.bara d) (fun f x => IsSeq x ∧ f.unitsDone x.who 0 = true)
      (fun x f => (x.noResult (f.modCore x.who.core fun k => k.seqArrive (d.imm.toNat % 32))).modCore x.who.core fun k =>
        k.modExec x.who fun e => { e with acted := true }) := by
  refine ⟨does_of_issueStep (fun _ => rfl) fun x f h => ?_, does_of_issueStep (fun _ => rfl) fun x f h => ?_⟩
  · obtain ⟨c, a, hw⟩ := h
    simp only [hw]
  · obtain ⟨⟨c, hw⟩, hu⟩ := h
    simp only [hw] at hu ⊢
    simp only [hu, if_true]

/-- BARW completes where the phase has changed since the arrival, and else waits for it (R193). -/
theorem does_barw (d : DFields) :
    Does (.barw d) (fun f x => ((f.core x.who.core).bar (d.imm.toNat % 32)).phase ≠ (f.core x.who.core).recorded (d.imm.toNat % 32))
      Issue.noResult ∧
    Does (.barw d) (fun f x => ((f.core x.who.core).bar (d.imm.toNat % 32)).phase = (f.core x.who.core).recorded (d.imm.toNat % 32))
      (fun x f => x.wait (.bar (d.imm.toNat % 32) ((f.core x.who.core).recorded (d.imm.toNat % 32))) f) :=
  ⟨does_of_issueStep (fun _ => rfl) fun _ _ h => if_pos h, does_of_issueStep (fun _ => rfl) fun _ _ h => if_neg (not_not.2 h)⟩

/-- BARAW arrives and then does as BARW (R193). -/
theorem does_baraw (d : DFields) : Does (.baraw d) (fun f x => f.unitsDone x.who 0 = true) (fun x f =>
    let k := (f.core x.who.core).seqArrive (d.imm.toNat % 32)
    let f := f.modCore x.who.core fun k => (k.seqArrive (d.imm.toNat % 32)).modExec x.who fun e => { e with acted := true }
    if (k.bar (d.imm.toNat % 32)).phase ≠ k.recorded (d.imm.toNat % 32) then x.noResult f
    else x.wait (.bar (d.imm.toNat % 32) (k.recorded (d.imm.toNat % 32))) f) := by
  refine does_of_issueStep (fun _ => rfl) fun x f h => ?_
  simp only [h, Bool.not_true, Bool.false_eq_true, if_false, Fabric.core_modCore, Core.bar_modExec, Core.recorded_modExec]

/-- WAITC completes where the counts are within its limits, and else waits for them (R194). -/
theorem does_waitc (d : DFields) :
    Does (.waitc d) (fun f x => (f.core x.who.core).counts.within d.imm.toNat = true) Issue.noResult ∧
    Does (.waitc d) (fun f x => (f.core x.who.core).counts.within d.imm.toNat = false)
      (fun x f => x.wait (.count d.imm.toNat) f) :=
  ⟨does_of_issueStep (fun _ => rfl) fun _ _ h => if_pos h,
    does_of_issueStep (fun _ => rfl) fun _ _ h => if_neg (Bool.eq_false_iff.1 h)⟩

theorem barriersComplete : BarriersComplete :=
  ⟨fun d => (does_bara d).1, fun d => (does_bara d).2, fun d => (does_barw d).1, fun d => (does_barw d).2, does_baraw,
    fun d => (does_waitc d).1, fun d => (does_waitc d).2⟩

/-- Settles O17, one lemma an instruction. -/
theorem barrierInstructionsComplete : Obligations.BarrierInstructionsComplete :=
  ⟨barriersComplete, barrierArrival⟩

end Sys2Proof.Proofs

/-! ### Changes of one core -/

namespace Sys2Proof.Machine

/-- Two changes of a core that give it the same are the same. -/
theorem Fabric.modCore_congr {f : Fabric} {c : Nat} {g h : Core → Core} (hk : g (f.core c) = h (f.core c)) :
    f.modCore c g = f.modCore c h := by
  rw [Fabric.modCore, hk, Fabric.modCore]

/-- A change that gives a core back as it was does not show after another. -/
theorem Fabric.modCore_idle {f : Fabric} {c : Nat} {g : Core → Core} (hk : g (f.core c) = f.core c) (h : Core → Core) :
    (f.modCore c g).modCore c h = f.modCore c h := by
  rw [Fabric.modCore_modCore]
  exact Fabric.modCore_congr (congrArg h hk)

theorem Fabric.modRegion_modCore (f : Fabric) (c r : Nat) (g : Core → Core) (h : Region → Region) :
    (f.modCore c g).modRegion r h = (f.modRegion r h).modCore c g := rfl

/-- A change that gives a core back as it was does not show after a stop. -/
theorem Fabric.stopRegion_idle {f : Fabric} {c : Nat} {g : Core → Core} (hk : g (f.core c) = f.core c) (t : Trap) :
    (f.modCore c g).stopRegion c t = f.stopRegion c t := by
  unfold Fabric.stopRegion
  rw [Fabric.core_modCore, hk, Fabric.modRegion_modCore]
  exact Fabric.modCore_idle (f := f.modRegion _ _) hk _

/-! ### The trap registers -/

theorem Core.ctl_setCtl (k : Core) (n m : Nat) (v : Word) :
    sget 0 (k.setCtl n v).seq.ctl m = if m = n then v &&& ctlMask n else sget 0 k.seq.ctl m := by
  split
  · subst m; exact sget_sput_same _ _ _ _
  · exact sget_sput_other _ _ _ ‹_›

/-- A number below a power of two is kept by the mask of its bits. -/
theorem ofNat_and_mask {x n : Nat} (h : x < 2 ^ n) (hn : n ≤ 64) :
    (BitVec.ofNat 64 x &&& BitVec.ofNat 64 (2 ^ n - 1)) = BitVec.ofNat 64 x := by
  apply BitVec.eq_of_toNat_eq
  have h64 : 2 ^ n ≤ 2 ^ 64 := Nat.pow_le_pow_right (by decide) hn
  rw [BitVec.toNat_and, BitVec.toNat_ofNat, BitVec.toNat_ofNat, Nat.mod_eq_of_lt (h.trans_le h64), Nat.mod_eq_of_lt (by omega),
    Nat.and_two_pow_sub_one_of_lt_two_pow h]

/-- The value of a trap's cause register without a pinned firing or an arrival of its own time (R204). -/
theorem Trap.cause_plain {t : Trap} (ha : t.async = false) (hp : t.pinned = false) : t.cause = (t.code / 16 - 1) * 256 + t.code := by
  simp [Trap.cause, classOf, ha, hp]

/-- What a trap of a slot holds of its instruction and place. -/
theorem slotTrap_fields (who : Agent) (slot : Nat) (i : Instr) (code addr lane : Nat) :
    let t := slotTrap who slot i false code addr lane
    t.code = code ∧ t.async = false ∧ t.pinned = false ∧ t.op = (opcodeOf i).getD 0 ∧ t.addr = addr ∧ t.info = none := by
  cases who <;> exact ⟨rfl, rfl, rfl, rfl, rfl, rfl⟩

/-- A trap of a slot with an ordinary cause names its slot, address and PE; its registers are those of R204. -/
theorem slotTrap_regs (free : Nat → Row) (who : Agent) (slot : Nat) (i : Instr) {code : Nat} (addr lane : Nat)
    (h1 : 0x10 ≤ code) (h2 : code < 0x70) (h3 : code ≠ 0x11) :
    let t := slotTrap who slot i false code addr lane
    ∃ l, t.regs free = [(0x021, BitVec.ofNat 64 ((code / 16 - 1) * 256 + code)), (0x022, BitVec.ofNat 64 t.slot), (0x023, l),
      (0x024, BitVec.ofNat 64 ((opcodeOf i).getD 0)), (0x025, BitVec.ofNat 64 addr), (0x026, BitVec.ofNat 64 t.pe)] := by
  intro t
  obtain ⟨hcode, hasync, hpin, hop, haddr, hinfo⟩ : t.code = code ∧ t.async = false ∧ t.pinned = false ∧
    t.op = (opcodeOf i).getD 0 ∧ t.addr = addr ∧ t.info = none := slotTrap_fields who slot i code addr lane
  clear_value t
  have hz : t.code ≠ 0 := by omega
  have h0 : t.cause0 = code := by rw [Trap.cause0, if_neg (by omega)]; exact hcode
  have hs : t.namesSlot = true := by simp [Trap.namesSlot, h0]; omega
  have hp : t.namesPe = true := by simp [Trap.namesPe, h0]; omega
  have ha : t.namesAddr = true := by simp [Trap.namesAddr]; omega
  have hv : t.slotValue (free 0) = t.slot := by simp [Trap.slotValue, hasync]
  have hc : t.cause = (code / 16 - 1) * 256 + code := by rw [Trap.cause_plain hasync hpin, hcode]
  refine ⟨if t.namesLane then BitVec.ofNat 64 t.lane else (free 1).setWidth 64, ?_⟩
  simp [Trap.regs, hz, hs, hp, ha, hv, hc, hop, haddr, hinfo]

end Sys2Proof.Machine

namespace Sys2Proof.Proofs

open Sys2Proof.Machine Sys2Proof.Claims

theorem trapRegisters : TrapRegisters := by
  intro k free who slot i code addr lane hs h1 h2 h3 k'
  obtain ⟨l, hl⟩ := slotTrap_regs free who slot i addr lane h1 h2 h3
  have hk : k' = List.foldl _ _ _ := congrArg (List.foldl (fun (k : Core) p => k.setCtl p.1 p.2) k) hl
  simp only [hk, List.foldl_cons, List.foldl_nil, Core.ctl_setCtl]
  refine ⟨?_, fun c a hw => ?_, fun c hw => ?_, ?_, ?_, fun c a hw => ?_, fun c hw => ?_, fun n hn => ?_⟩
  · exact ofNat_and_mask (n := 14) (by omega) (by decide)
  · subst hw; exact ofNat_and_mask (n := 16) (show a % 4 * 256 + slot < 2 ^ 16 by omega) (by decide)
  · subst hw; exact ofNat_and_mask (n := 16) (show 0xFF00 + slot < 2 ^ 16 by omega) (by decide)
  · rfl
  · exact BitVec.and_allOnes
  · subst hw; exact BitVec.and_allOnes
  · subst hw; exact BitVec.and_allOnes
  · simp only [show n ≠ 0x021 by omega, show n ≠ 0x022 by omega, show n ≠ 0x023 by omega, show n ≠ 0x024 by omega,
      show n ≠ 0x025 by omega, show n ≠ 0x026 by omega, if_false]

/-- A trap entry pushed on a stack that is not full (R41). -/
theorem push_room {f : Fabric} {m : Memory} {c : Nat} (e : Entry) (h : (f.core c).seq.stack.length < 32) :
    f.push m c e = .ok (m, f.modCore c fun k => { k with seq := { k.seq with stack := e :: k.seq.stack } }) := by
  unfold Fabric.push
  dsimp only
  split
  · exact if_pos h
  · rename_i hn
    have he : (f.core c).seq.stack = [] := List.getLast?_eq_none_iff.1 hn
    exact congrArg (fun g => Except.ok (m, g)) (Fabric.modCore_congr (by rw [he]))

/-- A core with other traps pending. -/
def withPending (l : List Trap) (k : Core) : Core := { k with seq := { k.seq with pending := l } }

/-- A core with a trap back before the others. -/
def putBack (t : Trap) (k : Core) : Core := withPending (t :: k.seq.pending) k

/-- A core with an entry on its sequencer's stack. -/
def pushed (e : Entry) (k : Core) : Core := { k with seq := { k.seq with stack := e :: k.seq.stack } }

/-- A core whose sequencer serves a trap, loaded by no branch (R204). -/
def serving (t : Trap) (k : Core) : Core :=
  let k := k.loadedBy (0xFFFF, 0)
  { k with seq := { k.seq with serving := some t } }

theorem serving_eq (t : Trap) (k : Core) : serving t k = { k with seq := { k.seq with loader := (0xFFFF, 0), serving := some t } } := rfl

theorem takeTrap_unhandled {f : Fabric} {c : Nat} (h : (f.core c).handles = false) (m : Memory) (t : Trap) (ret : Option Nat)
    (free : Nat → Row) : f.takeTrap m c t ret free = (m, (f.modCore c (putBack t)).stopRegion c t) := by
  unfold Fabric.takeTrap
  simp only [h, Bool.not_false, if_true]
  rfl

theorem takeTrap_noBlock {f : Fabric} {c : Nat} (h : (f.core c).handles = true) (hn : (f.core c).handler = none) (m : Memory) (t : Trap)
    (ret : Option Nat) (free : Nat → Row) : f.takeTrap m c t ret free =
      (m, ((f.modCore c (putBack t)).modCore c fun k => k.setTrapRegs t.handlerFault free).stopRegion c t.handlerFault) := by
  unfold Fabric.takeTrap
  simp only [h, hn, Bool.not_true, Bool.false_eq_true, if_false]
  rfl

theorem takeTrap_enters {f : Fabric} {c b : Nat} {t : Trap} (h : (f.core c).handles = true) (hb : (f.core c).handler = some b)
    (hs : (f.core c).seq.stack.length < 32) (hd : t.dead = []) (m : Memory) (ret : Option Nat) (free : Nat → Row) :
    f.takeTrap m c t ret free =
      (m, ((f.modCore c (pushed ⟨true, ret⟩)).modCore c fun k => serving t (k.setTrapRegs t free)).enterBlock c b) := by
  unfold Fabric.takeTrap
  simp only [h, hb, push_room _ hs, hd, List.foldl_nil, Bool.not_true, Bool.false_eq_true, if_false]
  rfl

theorem deliverTrap_delivers {f : Fabric} {c : Nat} {t : Trap} {rest : List Trap} {ret : Option Nat} (h : Delivers f c t rest ret)
    (m : Memory) (free : Nat → Row) : f.deliverTrap m c free = (f.modCore c (withPending rest)).takeTrap m c t ret free := by
  obtain ⟨hp, hf, hq, hr⟩ := h
  unfold Fabric.deliverTrap
  simp only [hp, hf, hq, hr, Bool.false_eq_true, if_false]
  rfl

/-- A boundary with a trap to deliver takes it, the trap no longer pending (R205). -/
theorem exec_trapDelivery {s : State} {c : Nat} {t : Trap} {rest : List Trap} {ret : Option Nat} (h : Delivers s.fab c t rest ret)
    {g : Fabric} (hg : (s.fab.modCore c (withPending rest)).takeTrap s.mem c t ret (freeFrom s.run.free) = (s.mem, g)) :
    exec (.trapDelivery c) s = .next { s with fab := g, run := { s.run with free := s.run.free + 6 } } := by
  have he : exec (.trapDelivery c) s = execTrapDelivery c s := rfl
  rw [he, execTrapDelivery, deliverTrap_delivers h, hg]

/-- A trap put back before the others is pending as it was. -/
theorem putBack_withPending {f : Fabric} {c : Nat} {t : Trap} {rest : List Trap} {ret : Option Nat} (h : Delivers f c t rest ret) :
    putBack t (withPending rest (f.core c)) = f.core c := by
  show withPending (t :: rest) (f.core c) = f.core c
  rw [withPending, ← h.pending]

theorem trapsDeliverPart : TrapsDeliverPart := by
  refine ⟨fun s c t rest ret b h hh hb hs hd => ?_, fun s c t rest ret h hh => ?_, fun s c t rest ret h hh hn => ?_⟩
  all_goals have hc : (s.fab.modCore c (withPending rest)).core c = withPending rest (s.fab.core c) := s.fab.core_modCore c _
  · rw [exec_trapDelivery h (takeTrap_enters (by rw [hc]; exact hh) (by rw [hc]; exact hb) (by rw [hc]; exact hs) hd _ _ _),
      Fabric.modCore_modCore, Fabric.modCore_modCore]
    simp only [serving_eq]
    rfl
  · rw [exec_trapDelivery h (takeTrap_unhandled (by rw [hc]; exact hh) _ _ _ _), Fabric.modCore_modCore,
      Fabric.stopRegion_idle (g := fun k => putBack t (withPending rest k)) (putBack_withPending h)]
    rfl
  · rw [exec_trapDelivery h (takeTrap_noBlock (by rw [hc]; exact hh) (by rw [hc]; exact hn) _ _ _ _),
      Fabric.modCore_modCore _ _ (withPending rest) (putBack t),
      Fabric.modCore_idle (g := fun k => putBack t (withPending rest k)) (putBack_withPending h)]
    rfl

/-- Settles O34: the three outcomes of a boundary with a trap, and the registers of an instruction's trap. -/
theorem trapsDeliver : Obligations.TrapsDeliver :=
  ⟨trapsDeliverPart, trapRegisters⟩

end Sys2Proof.Proofs

/-! ### Firings start -/

namespace Sys2Proof.Machine

/-- A decision of a PE leaves the picks as they were. -/
@[simp] theorem Core.decided_picks (k : Core) (pe : Nat) (cands : List Nat) (p : Nat × Bool) :
    (k.decided pe cands p).picks = k.picks := by
  have older (l : List Nat) (k : Core) : (l.foldl (fun (k : Core) i =>
      if i ≠ p.1 && !k.urgent (pe * 4 + i) then k.modActor (pe * 4 + i) fun x => { x with age := min (x.age + 1) 16 } else k) k).picks =
        k.picks := by
    induction l generalizing k with
    | nil => rfl
    | cons i l ih => rw [List.foldl_cons, ih]; split <;> rfl
  unfold Core.decided
  dsimp only
  split
  · exact older cands k
  · rfl

theorem Core.modActor_of_self {k : Core} {a : Nat} (h : smod {} k.actors a (fun x => x) = k.actors) :
    k.modActor a (fun x => x) = k := by
  rw [Core.modActor, h]

/-- The actor decided for is listed: changing it to itself changes nothing. -/
theorem Core.decided_modActor_self (k : Core) (pe : Nat) (cands : List Nat) (p : Nat × Bool) :
    (k.decided pe cands p).modActor (pe * 4 + p.1) (fun x => x) = k.decided pe cands p := by
  have self (k : Core) (g : Actor → Actor) : smod {} (k.modActor (pe * 4 + p.1) g).actors (pe * 4 + p.1) (fun x => x) =
      (k.modActor (pe * 4 + p.1) g).actors := congrArg Core.actors (k.modActor_modActor (pe * 4 + p.1) g fun x => x)
  unfold Core.decided
  dsimp only
  split <;> exact Core.modActor_of_self (by dsimp only; exact self _ _)

end Sys2Proof.Machine

namespace Sys2Proof.Proofs

open Sys2Proof.Machine Sys2Proof.Claims

/-- A PE without a pick decides, and with every mate picked the set starts (R215, R316). -/
theorem firingStart_decides {f : Fabric} {c pe : Nat} {p : Nat × Bool} (hn : shas (f.core c).picks pe = false)
    (hp : f.pick c pe = some p) : f.firingStart c pe =
      let ms := ((picked f c pe p).core c).mates (pe * 4 + p.1)
      if ms.all fun m => sfind ((picked f c pe p).core c).picks (m / 4) = some m then
        ms.foldl (fun f m => f.startFiring c m)
          ((picked f c pe p).modCore c fun k => { k with picks := ms.foldl (fun q m => sdel q (m / 4)) k.picks })
      else picked f c pe p := by
  have hq : (f.modCore c fun k => (k.decided pe (f.candidates c pe) p).modActor (pe * 4 + p.1) fun x => x).modCore c
      (fun k => { k with picks := sset k.picks pe (pe * 4 + p.1) }) = picked f c pe p := by
    rw [Fabric.modCore_modCore]
    simp only [Core.decided_modActor_self, Core.decided_picks]
    rfl
  unfold Fabric.firingStart
  rw [hn, hp]
  simp only [Bool.false_eq_true, if_false, hq]

theorem firingStarts : FiringStarts := by
  refine ⟨fun c pe p => moves_of_fabricStep (fun _ => rfl) fun f ⟨hn, hp, hm⟩ => ?_,
    fun c pe p m => moves_of_fabricStep (fun _ => rfl) fun f ⟨hn, hp, hm, hne⟩ => ?_⟩
  · rw [firingStart_decides hn hp]
    exact if_pos (List.all_eq_true.2 fun m h => decide_eq_true (hm m h))
  · rw [firingStart_decides hn hp]
    exact if_neg fun h => hne (of_decide_eq_true (List.all_eq_true.1 h m hm))

theorem startFiring_eq {f : Fabric} {c a : Nat} {g : ActorCfg} (h : sfind (f.core c).plane.actors a = some g) :
    f.startFiring c a = (f.modUnits fun u => { u with nextId := u.nextId + 1 }).modCore c fun k => k.modActor a fun x =>
      { x with firing := some { exec := { id := f.units.nextId, block := g.block, snap := f.snapOf c a, stepOver := x.stepOver } },
               stepOver := none, fence := none } := by
  have hs : (f.modUnits fun u => { u with nextId := u.nextId + 1 }).snapOf c a = f.snapOf c a := rfl
  unfold Fabric.startFiring Fabric.fresh
  dsimp only
  rw [Fabric.core_modUnits, h, hs]

theorem firingBegins : FiringBegins := by
  intro f c a g h
  rw [startFiring_eq h]
  refine ⟨?_, rfl, fun b hb => ?_, fun d hd => Fabric.core_modCore_other _ _ hd⟩
  · rw [Fabric.core_modCore, Core.actor_modActor]; rfl
  · rw [Fabric.core_modCore, Core.actor_modActor_other _ _ hb]; rfl

/-- Settles O25: the decision of the PE, and what a firing has at its start. -/
theorem firingsStart : Obligations.FiringsStart :=
  ⟨firingStarts, firingBegins⟩

end Sys2Proof.Proofs

/-! ### Waits end and responses deliver -/

namespace Sys2Proof.Machine

/-- A change of an actor counts at the actor alone. -/
theorem Core.modActor_congr {k : Core} {a : Nat} {g h : Actor → Actor} (hx : g (k.actor a) = h (k.actor a)) :
    k.modActor a g = k.modActor a h := by
  rw [Core.modActor, smod, show g (sget {} k.actors a) = _ from hx]; rfl

/-- A change of a block in progress leaves the block that an agent runs. -/
@[simp] theorem Core.blockOf_modExec (k : Core) (who v : Agent) (g : Exec → Exec) (e : Exec) :
    (k.modExec who g).blockOf v e = k.blockOf v e := by
  cases who <;> rfl

end Sys2Proof.Machine

namespace Sys2Proof.Proofs

open Sys2Proof.Machine Sys2Proof.Claims

/-- R22: the row is there, the wait ends. -/
theorem resumeRow_row {f : Fabric} {who : Agent} {slot o n : Nat} {e : Exec} {w : WFields}
    (he : (f.core who.core).exec who = some e) (hw : e.waits.find? (fun w => w.1 = slot) = some (slot, .row o))
    (hi : ((f.core who.core).blockOf who e).bind (fun b => b.instrAt slot) = some (.wrdx w))
    (hn : (f.core who.core).winOf who w.port.toNat = some n) (ho : o < (f.core who.core).readable n)
    (hz : (f.core who.core).dbg.frozen = false) :
    f.resumeRow who slot = f.modCore who.core fun k => k.endWait who slot := by
  simp [Fabric.resumeRow, he, hw, hi, hn, ho, hz]

/-- R453: a pinned firing that a WREST trapped runs again. -/
theorem resumeRow_trapped {f : Fabric} {c a slot : Nat} {y : Firing} (hf : ((f.core c).actor a).firing = some y)
    (hp : y.phase = .trapped) (hr : y.release = .wrest) (hz : (f.core c).dbg.frozen = false) :
    f.resumeRow (.actor c a) slot = f.modCore c fun k => k.modActor a fun x =>
      { x with firing := some { y with phase := .running, exec := { y.exec with stepOver := none } } } := by
  have hx : (f.core c).exec (.actor c a) = none := by simp [Core.exec, hf, hp]
  have hk : (f.core c).resumePinned a .wrest none = (f.core c).modActor a fun x =>
      { x with firing := some { y with phase := .running, exec := { y.exec with stepOver := none } } } :=
    Core.modActor_congr (by simp [hf, hp, hr])
  simp only [Fabric.resumeRow, Agent.core, hx, hz]
  exact Fabric.modCore_congr (g := fun k => k.resumePinned a .wrest none) hk

/-- The core whose askers are those that still ask. -/
def asking (k : Core) : Core := { k with askers := k.askers.filter k.stillAsks }

/-- The core in which an asker's wait has ended, and it asks no more. -/
def endAsk (q : Asker) (k : Core) : Core := { k.endWait q.who q.slot with askers := k.askers.filter (· ≠ q) }

theorem exec_askers (k : Core) (l : List Asker) (w : Agent) : ({ k with askers := l } : Core).exec w = k.exec w := by
  cases w <;> rfl

theorem blockOf_askers (k : Core) (l : List Asker) (w : Agent) (e : Exec) :
    ({ k with askers := l } : Core).blockOf w e = k.blockOf w e := by
  cases w <;> rfl

theorem asking_exec (k : Core) (w : Agent) : (asking k).exec w = k.exec w := exec_askers ..

theorem asking_blockOf (k : Core) (w : Agent) (e : Exec) : (asking k).blockOf w e = k.blockOf w e := blockOf_askers ..

theorem asking_askers (k : Core) : (asking k).askers = k.askers.filter k.stillAsks := rfl

theorem asking_dbg (k : Core) : (asking k).dbg = k.dbg := rfl

theorem endAsk_exec (q : Asker) (k : Core) :
    (endAsk q k).exec q.who = (k.exec q.who).map fun e => { e with waits := e.waits.filter fun w => w.1 ≠ q.slot } := by
  rw [endAsk, exec_askers, Core.endWait, Core.exec_modExec]

theorem endAsk_blockOf (q : Asker) (k : Core) (e : Exec) : (endAsk q k).blockOf q.who e = k.blockOf q.who e := by
  rw [endAsk, blockOf_askers, Core.endWait, Core.blockOf_modExec]

theorem endAsk_asking (q : Asker) (k : Core) : endAsk q (asking k) =
    { k.endWait q.who q.slot with askers := (k.askers.filter k.stillAsks).filter (· ≠ q) } := by
  unfold endAsk
  cases q.who <;> rfl

/-- The askers are no part of what a channel's slots hang on. -/
theorem slotReady_asking (f : Fabric) (c chan : Nat) : (f.modCore c asking).slotReady c chan = f.slotReady c chan := by
  simp only [Fabric.slotReady, Fabric.freeSlots, Fabric.core_modCore]
  rfl

/-- R357, R358: the first asker of a channel takes the slot that was free and issues its load. -/
theorem grantSlot_issues {f : Fabric} {c chan : Nat} {q : Asker} {e : Exec} {i : Instr}
    (hq : ((f.core c).askers.filter (f.core c).stillAsks).find? (fun q => q.chan = chan) = some q)
    (hs : f.slotReady c chan = true) (hl : q.cycle < f.units.cycle) (hz : (f.core c).dbg.frozen = false)
    (he : (f.core c).exec q.who = some e) (hi : ((f.core c).blockOf q.who e).bind (fun b => b.instrAt q.slot) = some i) :
    f.grantSlot c chan =
      (f.modCore c fun k =>
        { k.endWait q.who q.slot with askers := (k.askers.filter k.stillAsks).filter (· ≠ q) }).loadIssue
        (gather q.who q.slot i { e with waits := e.waits.filter fun w => w.1 ≠ q.slot }) true := by
  let f' := f.modCore c asking
  have hk : f'.core c = asking (f.core c) := Fabric.core_modCore ..
  have hq' : (f'.core c).askers.find? (fun q => q.chan = chan) = some q := by rw [hk, asking_askers, hq]
  have hs' : f'.slotReady c chan = true := by rw [slotReady_asking, hs]
  have hl' : ¬ f'.units.cycle ≤ q.cycle := Nat.not_le.mpr hl
  have hz' : (f'.core c).dbg.frozen = false := by rw [hk, asking_dbg, hz]
  have hx' : ((f'.modCore c (endAsk q)).core c).exec q.who = some { e with waits := e.waits.filter fun w => w.1 ≠ q.slot } := by
    rw [Fabric.core_modCore, endAsk_exec, hk, asking_exec, he, Option.map_some]
  have hi' : (((f'.modCore c (endAsk q)).core c).blockOf q.who { e with waits := e.waits.filter fun w => w.1 ≠ q.slot }).bind
      (fun b => b.instrAt q.slot) = some i := by
    rw [Fabric.core_modCore, endAsk_blockOf, hk, asking_blockOf]; exact hi
  have hend : f'.modCore c (endAsk q) = f.modCore c fun k =>
      { k.endWait q.who q.slot with askers := (k.askers.filter k.stillAsks).filter (· ≠ q) } := by
    rw [Fabric.modCore_modCore]; exact Fabric.modCore_congr (endAsk_asking q _)
  rw [← hend]
  unfold Fabric.grantSlot
  extract_lets -merge +onlyGivenNames g
  rw [show g = f' from rfl]
  clear_value f'
  have hend' : (f'.modCore c fun k => { k.endWait q.who q.slot with askers := k.askers.filter (· ≠ q) }) =
    f'.modCore c (endAsk q) := rfl
  simp only [hq', hs', hl', hz', hend', hx', hi']
  rfl

theorem waitsEnd : WaitsEnd := by
  refine ⟨fun who slot e o w n => moves_of_fabricStep (fun _ => rfl) ?_, fun c a slot y => moves_of_fabricStep (fun _ => rfl) ?_,
    fun c chan q e i _ => moves_of_fabricStep (fun _ => rfl) ?_⟩
  · rintro f ⟨he, hw, hi, hn, ho, hz⟩
    exact resumeRow_row he hw hi hn ho hz
  · rintro f ⟨hf, hp, hr, hz⟩
    exact resumeRow_trapped hf hp hr hz
  · rintro f ⟨hq, hs, hl, hz, he, hi⟩
    exact grantSlot_issues hq hs hl hz he hi

/-! #### The sequencer's waits -/

theorem sequencerWaitsEnd : SequencerWaitsEnd := by
  refine ⟨fun c e slot m t i => moves_of_fabricStep (fun _ => rfl) ?_, fun c e slot w => moves_of_fabricStep (fun _ => rfl) ?_,
    fun c b g x => moves_of_fabricStep (fun _ => rfl) ?_, fun c b g x addr => moves_of_fabricStep (fun _ => rfl) ?_⟩
  · rintro f ⟨he, hw, hz, hi⟩
    simp only [Fabric.waitEnd, he, hw, hz, hi]
    rfl
  · rintro f ⟨he, hw, hne, hz⟩
    simp only [Fabric.waitEnd, he, hw, hz]
    cases w with
    | event m t => exact absurd rfl (hne m t)
    | _ => rfl
  · rintro f ⟨hp, hg, hz, hb, hv⟩
    simp only [Fabric.fetchBlock, hp, hg, hz, hb, Option.map_some, hv]
    rfl
  · rintro f ⟨hp, hg, hz, hb, hv⟩
    simp only [Fabric.fetchBlock, hp, hg, hz, hb, Option.map_some, hv]
    rfl

/-! #### Responses -/

/-- A response that has come back to a core that runs is delivered (R357). -/
theorem loadResponse_responds {f : Fabric} {id lane : Nat} {r : Req} (hr : f.req id = some r) (hl : r.kind.isLoad = true)
    (ha : f.answered r lane = true) (hz : (f.core r.who.core).dbg.frozen = false) : f.loadResponse id lane = f.respond r lane := by
  simp [Fabric.loadResponse, hr, hl, ha, hz]

/-- The answer of any request but an LD2 completes its slot (R357, R187). -/
theorem respond_completes {f : Fabric} {r : Req} {lane : Nat} {e : Exec} {i : Instr} (he : f.issuer r = some e)
    (hi : ((f.core r.who.core).blockOf r.who e).bind (fun b => b.instrAt r.slot) = some i) (hk : r.kind ≠ .load2) :
    f.respond r lane = (f.closeReq r).modCore r.who.core fun k =>
      k.finish r.who r.slot i (.tok (resultTok e r)) (.tok (resultTok e r)) fNone := by
  simp only [Fabric.respond, he, hi]

/-- A half of an LD2 goes to its target; the second completes the slot (R181). -/
theorem respond_half {f : Fabric} {r : Req} {lane : Nat} {e : Exec} {i : Instr} {l : ReqLane} (he : f.issuer r = some e)
    (hi : ((f.core r.who.core).blockOf r.who e).bind (fun b => b.instrAt r.slot) = some i) (hk : r.kind = .load2)
    (hl : r.lanes.find? (fun l => l.idx = lane) = some l) :
    f.respond r lane =
      let r' := { r with lanes := r.lanes.filter fun l => l.idx ≠ lane }
      let t := laneValue e r l
      let f := f.modCore r.who.core fun k => k.half r.who r.slot i lane ⟨t.bits, t.ember || r.val⟩
      if r'.lanes = [] then (f.closeReq r').modCore r.who.core fun k => k.modExec r.who fun e => e.mark r.slot fNone
      else (f.sink (.reply r.id lane)).putReq r' := by
  simp only [Fabric.respond, he, hi, hk, hl]

theorem responsesDeliver : ResponsesDeliver := by
  refine ⟨fun id lane r e i => moves_of_fabricStep (fun _ => rfl) ?_, fun id r e i => moves_of_fabricStep (fun _ => rfl) ?_,
    fun id lane r e i l => moves_of_fabricStep (fun _ => rfl) ?_, fun id lane r => moves_of_fabricStep (fun _ => rfl) ?_,
    fun id lane r => moves_of_fabricStep (fun _ => rfl) ?_, fun id lane r => moves_of_fabricStep (fun _ => rfl) ?_⟩
  · rintro f ⟨⟨hr, ha, hz, he, hi⟩, hl, hk⟩
    rw [loadResponse_responds hr hl ha hz, respond_completes he hi hk]
  · rintro f ⟨⟨hr, ha, hz, he, hi⟩, hk⟩
    have hrun : f.eagerReturn id = f.respond r 0 := by simp [Fabric.eagerReturn, hr, hk, ha, hz]
    rw [hrun, respond_completes he hi (by rw [hk]; exact ReqKind.noConfusion)]
  · rintro f ⟨⟨hr, ha, hz, he, hi⟩, hk, hl⟩
    rw [loadResponse_responds hr (by rw [hk]; rfl) ha hz, respond_half he hi hk hl]
    rfl
  · rintro f ⟨hr, hl, ha, hz, he, hk⟩
    rw [loadResponse_responds hr hl ha hz]
    simp only [Fabric.respond, he, Fabric.discard]
    refine if_neg fun h => ?_
    rw [Bool.and_eq_true, decide_eq_true_eq, decide_eq_true_eq] at h
    exact h.2 (hk h.1)
  · rintro f ⟨hr, hk, ha, hz, he, hl⟩
    rw [loadResponse_responds hr (by rw [hk]; rfl) ha hz]
    simp only [Fabric.respond, he, Fabric.discard]
    exact if_pos (by rw [Bool.and_eq_true, decide_eq_true_eq, decide_eq_true_eq]; exact ⟨hk, hl⟩)
  · rintro f ⟨hr, hl, ha, hz, hs, hn⟩
    simp [Fabric.loadResponse, hr, hl, ha, hz, hs, hn]

/-- Settles O26: each wait and each answer by its own event, the instruction found at its slot. -/
theorem waitsEndAndResponsesDeliver : Obligations.WaitsEndAndResponsesDeliver :=
  ⟨waitsEnd, sequencerWaitsEnd, responsesDeliver⟩

end Sys2Proof.Proofs

/-! ### Firings complete, units leave their port, HORIZON rises -/

namespace Sys2Proof.Proofs

open Sys2Proof.Machine Sys2Proof.Claims

/-- A block's outputs are done when the slot of each is among those done. -/
theorem outputsDone_of {b : Block} {e : Exec} (h : ∀ q ∈ b.instrs, isOutput q.2 = true → q.1 ∈ e.done) :
    outputsDone b e = true := by
  rw [outputsDone, List.all_eq_true]
  intro q hq
  cases ho : isOutput q.2 with
  | false => rfl
  | true => simpa using h q hq ho

theorem firingsComplete : FiringsComplete := by
  refine ⟨fun c a g b => moves_of_fabricStep (fun _ => rfl) ?_, fun c a => moves_of_fabricStep (fun _ => rfl) ?_,
    fun c a p slot code addr i => moves_of_fabricStep (fun _ => rfl) ?_⟩
  · rintro f ⟨hf, hb, hp, hw, ho, hz⟩
    simp [Fabric.firingComplete, hf, hb, hp, hw, outputsDone_of ho, hz]
  · rintro f ⟨hm, hn⟩
    simp [Fabric.commit, hm, hn]
  · rintro f ⟨hm, hn, hi⟩
    simp [Fabric.commit, hm, hn, hi]

theorem unitsLeave : UnitsLeave := by
  refine ⟨fun c id u => moves_of_fabricStep (fun _ => rfl) ?_, fun c id u => moves_of_fabricStep (fun _ => rfl) ?_,
    fun c => moves_of_fabricStep (fun _ => rfl) ?_, fun c u => moves_of_fabricStep (fun _ => rfl) ?_⟩
  · rintro f ⟨hu, hs, hz, hb, hl⟩
    have hid : u.id = id := by
      have h := List.find?_some hu
      simp only [Bool.and_eq_true, decide_eq_true_eq] at h
      exact h.1
    have hall : f.allLeft u = true := by simpa [Fabric.allLeft, hid] using hl
    simp [hu, hs, hz, hb, hall]
  · rintro f ⟨hu, hr, hz⟩
    simp only [Fabric.storeAck, hz, hu]
    exact Fabric.modCore_congr (g := fun k => if k.regionId ≠ u.region then k else _) (if_neg fun h => h hr)
  · rintro f ⟨hz, hc⟩
    simp [Fabric.storeAck, hz, hc]
  · intro f hz
    simp [Fabric.storeAck, hz]

theorem horizonRises : HorizonRises := by
  intro reg n
  refine moves_of_fabricStep (fun _ => rfl) ?_
  rintro f ⟨ht, hn⟩
  simp only [Fabric.horizonBroadcast, hn, Nat.not_lt.mpr ht, if_false]

/-- Settles O27: each event's conditions hold, so it makes its change. -/
theorem firingsCompleteAndUnitsLeave : Obligations.FiringsCompleteAndUnitsLeave :=
  ⟨firingsComplete, unitsLeave, horizonRises⟩

end Sys2Proof.Proofs

/-! ### Walks complete -/

namespace Sys2Proof.Proofs

open Sys2Proof.Machine Sys2Proof.Claims

/-- An event whose meaning changes memory and fabric answers the state with what its change is where its condition holds. -/
theorem memMoves_of_memStep {i : Instr} {g : Memory → Fabric → Memory × Fabric} {pre : Memory → Fabric → Prop}
    {post : Memory → Fabric → Memory × Fabric} (he : ∀ s, exec i s = memStep g s) (h : ∀ m f, pre m f → g m f = post m f) :
    MemMoves i pre post := by
  intro s hp
  rw [he, memStep_next, h s.mem s.fab hp]

/-- So is an event whose change leaves memory. -/
theorem moves_of_memStep {i : Instr} {g : Memory → Fabric → Memory × Fabric} {pre : Fabric → Prop} {post : Fabric → Fabric}
    (he : ∀ s, exec i s = memStep g s) (h : ∀ m f, pre f → g m f = (m, post f)) : Moves i pre post := by
  intro s hp
  rw [he, memStep_next, h s.mem s.fab hp]

/-- A walk that ends leaves the contexts, and with them the side tables. -/
theorem flushAll_endWalk (f : Fabric) (die : Nat) (w : Walk) (m : Memory) (l : List Trans) :
    (f.endWalk die w).flushAll m l = f.flushAll m l := rfl

theorem context_endWalk (f : Fabric) (die : Nat) (w : Walk) (x : Nat) : (f.endWalk die w).context x = f.context x := rfl

/-- A request whose walk is not yet started, and whose lane is not in the core's cache, stays as it was (R294). -/
theorem walkReq_waits {m : Memory} {f : Fabric} {id : Nat} {r : Req} {e : Exec} {i : Instr} {l : ReqLane} (hr : f.req id = some r)
    (he : f.issuer r = some e) (hi : ((f.core r.who.core).blockOf r.who e).bind (fun b => b.instrAt r.slot) = some i)
    (hl : r.lanes.find? (fun l => l.pa.isNone && !l.bad) = some l) (hn : l.early = none)
    (hc : (f.core r.who.core).cached (f.core r.who.core).contextId l.va = none)
    (hw : f.walkStarted (dieOf r.who.core) (.req id) = false) : f.walkReq m id = (m, f) := by
  simp [Fabric.walkReq, hr, he, hi, hl, hn, hc, hw]

/-- A walk of a generator that its walker has not in flight is asked for (R294). -/
theorem walkGen_asks {m : Memory} {f : Fabric} {c i : Nat} {q : GenCmd} {va : Nat} (hq : ((f.core c).gen i).cur = some q)
    (hl : (f.core c).nextLine { (f.core c).gen i with entry := none } q = some va)
    (hr : (f.core c).genRuns ((f.core c).gen i) = true)
    (hb : ((f.core c).gen i).entry.any (fun t => t.covers (f.core c).contextId va) = false)
    (hw : (f.askWalk (dieOf c) (.gen c i)).walkStarted (dieOf c) (.gen c i) = false) :
    f.walkGen m c i = (m, f.askWalk (dieOf c) (.gen c i)) := by
  simp only [hq] at hl
  simp [Fabric.walkGen, hq, hl, hr, hb, hw]

/-- Settles O39: a started walk translates, and the outcome decides; one not started changes nothing, or asks. -/
theorem walksComplete : Obligations.WalksComplete := by
  refine ⟨fun id r e i l t => memMoves_of_memStep (g := fun m f => f.walkReq m id) (fun _ => rfl) ?_,
    fun id r e i l code => memMoves_of_memStep (g := fun m f => f.walkReq m id) (fun _ => rfl) ?_,
    fun id r e i l => moves_of_memStep (g := fun m f => f.walkReq m id) (fun _ => rfl) ?_,
    fun c i q va t => memMoves_of_memStep (g := fun m f => f.walkGen m c i) (fun _ => rfl) ?_,
    fun c i q va => moves_of_memStep (g := fun m f => f.walkGen m c i) (fun _ => rfl) ?_,
    fun c i q va code => memMoves_of_memStep (g := fun m f => f.walkGen m c i) (fun _ => rfl) ?_⟩
  · rintro m f ⟨hr, he, hi, hl, hz, hs, hn, hc, hw, ht⟩
    simp [Fabric.walkReq, hr, he, hi, hl, hn, hc, hw, hz, hs, ht]
  · rintro m f ⟨hr, he, hi, hl, hz, hs, hn, hc, hw, ht⟩
    simp [Fabric.walkReq, hr, he, hi, hl, hn, hc, hw, hz, hs, ht]
  · rintro m f ⟨hr, he, hi, hl, hn, hc, hw⟩
    exact walkReq_waits hr he hi hl hn hc hw
  · rintro m f ⟨hq, hl, hr, hb, hw, ht⟩
    simp only [hq] at hl
    simp [Fabric.walkGen, hq, hl, hr, hb, hw, flushAll_endWalk, context_endWalk, ht]
  · rintro m f ⟨hq, hl, hr, hb, hw⟩
    exact walkGen_asks hq hl hr hb hw
  · rintro m f ⟨hq, hl, hr, hb, hw, ht⟩
    simp only [hq] at hl
    simp [Fabric.walkGen, hq, hl, hr, hb, hw, flushAll_endWalk, context_endWalk, ht]

end Sys2Proof.Proofs

/-! ### Preemption and cuts -/

namespace Sys2Proof.Proofs

open Sys2Proof.Machine Sys2Proof.Claims

/-- A notice to the host leaves every core. -/
theorem noteOverrun_core (f : Fabric) (c d : Nat) : (f.noteOverrun c).core d = f.core d := by
  unfold Fabric.noteOverrun
  dsimp only
  split <;> rfl

/-- R322: an overrun is told once, while a network command is outstanding past the limit. -/
theorem noteOverrun_tells {f : Fabric} {c : Nat} (hn : (f.core c).eng.net ≠ [])
    (ho : (f.region (f.core c).regionId).overran.contains c = false)
    (ht : (f.region (f.core c).regionId).drain + 60000 < ptpNanos f.units.ptp) :
    f.noteOverrun c = (f.modRegion (f.core c).regionId fun r => { r with overran := r.overran ++ [c] }).modContext
      (f.region (f.core c).regionId).context fun x =>
        { x with notices := x.notices ++ [.overrun (f.region (f.core c).regionId).tag c] } := by
  have hl : ¬ ptpNanos f.units.ptp ≤ (f.region (f.core c).regionId).drain + 60000 := Nat.not_le.mpr ht
  have hb : decide ((f.core c).eng.net ≠ []) = true := decide_eq_true hn
  simp only [Fabric.noteOverrun, ho, hb]
  exact if_neg (by simpa using hl)

/-- The sequencer's marker meets a core whose plane is not half filled: it is saved once all in flight is settled (R323). -/
theorem preempt_sequencer {m : Memory} {f : Fabric} {c : Nat} (hs : (f.core c).saving = true) (hz : (f.core c).dbg.frozen = false)
    (hi : ∀ h, (f.core c).incoming = some h → h.filled = true ∨ h.refused = true) :
    f.preempt m c 256 =
      if (f.noteOverrun c).settled c then (f.noteOverrun c).saveCore m c else (m, f.noteOverrun c) := by
  cases hk : (f.core c).incoming with
  | none => simp [Fabric.preempt, hs, hz, hk]
  | some g =>
    have hg : (!g.filled && !g.refused) = false := by rcases hi g hk with h | h <;> simp [h]
    simp [Fabric.preempt, hs, hz, hk, hg]

theorem preemptionSaves : PreemptionSaves := by
  refine ⟨fun c el he => moves_of_memStep (g := fun m f => f.preempt m c el) (fun _ => rfl) ?_,
    fun c el => moves_of_memStep (g := fun m f => f.preempt m c el) (fun _ => rfl) ?_,
    fun c g => memMoves_of_memStep (g := fun m f => f.preempt m c 256) (fun _ => rfl) ?_,
    fun c g => moves_of_memStep (g := fun m f => f.preempt m c 256) (fun _ => rfl) ?_,
    fun c => moves_of_memStep (g := fun m f => f.preempt m c 256) (fun _ => rfl) ?_⟩
  · rintro m f ⟨hs, hm, hz, hi⟩
    simp [Fabric.preempt, he, hs, hm, hz, hi]
  · rintro m f ⟨hs, hz, he⟩
    simp [Fabric.preempt, hs, hz, he, Nat.ne_of_lt he]
  · rintro m f ⟨hs, hz, hg, hset, hi⟩
    rw [preempt_sequencer hs hz hi, if_pos hset]
    simp only [Fabric.saveCore, noteOverrun_core, hg, Fabric.flushCore]
  · rintro m f ⟨hs, hz, hk, hf, hr⟩
    simp [Fabric.preempt, hs, hz, hk, hf, hr]
  · rintro m f ⟨hs, hz, hi, hset, hn, ho, ht⟩
    rw [preempt_sequencer hs hz hi, hset, noteOverrun_tells hn ho ht]
    rfl

theorem cutsComplete : CutsComplete := by
  refine ⟨fun c => moves_of_fabricStep (fun _ => rfl) ?_, fun reg => moves_of_fabricStep (fun _ => rfl) ?_,
    fun reg => moves_of_fabricStep (fun _ => rfl) ?_, fun reg => moves_of_fabricStep (fun _ => rfl) ?_,
    fun reg => moves_of_fabricStep (fun _ => rfl) ?_⟩
  · rintro f ⟨hg, hc, hd, hm, hp⟩
    have hn : (f.core c).group.isNone = false := by rw [Option.isNone_eq_false_iff, hg]
    simp [Fabric.snapshot, hn, hc, hd, hm, hp]
  · rintro f ⟨hs, ha, hr⟩
    simp [Fabric.snapTimer, hs, Nat.not_lt.mpr ha, hr]
  · rintro f ⟨hu, hh, hr⟩
    simp [Fabric.logHalf, hu, hh, hr]
  · rintro f ⟨hf, hl⟩
    simp only [Fabric.logFull]
    refine if_neg ?_
    rcases hl with h | h | h | h <;> simp [hf, h]
  · rintro f ⟨hc, hb, hu, hq⟩
    have hall : (f.cores.any fun q => (q.2.group.isSome && q.2.regionId = reg) && (!q.2.cutDone || f.markerOut q.1)) = false := by
      rw [List.any_eq_false]
      intro q hmem
      simp only [Bool.and_eq_true, decide_eq_true_eq, not_and]
      rintro ⟨hg, hr⟩
      obtain ⟨hd, ho⟩ := hq q hmem hg hr
      simp [hd, ho]
    have hmap : (fun q : Nat × Core => if (q.2.group.isSome && q.2.regionId = reg) then (q.1, { q.2 with cutDone := false }) else q) =
        fun q => (q.1, if q.2.group.isSome && q.2.regionId = reg then { q.2 with cutDone := false } else q.2) := by
      funext q
      split <;> rfl
    simp only [Fabric.cutComplete, hc, hb, hu, hall, hmap]
    rfl

/-- Settles O43: by the conditions of each marker, log and cut event. -/
theorem preemptionAndCuts : Obligations.PreemptionAndCuts :=
  ⟨preemptionSaves, cutsComplete⟩

end Sys2Proof.Proofs

/-! ### Engine commands run -/

namespace Sys2Proof.Proofs

open Sys2Proof.Machine Sys2Proof.Claims

/-! #### Entry and start -/

/-- R230: the waiting command of the lowest slot makes its checks again, its wait over. -/
theorem queueEntry_checks {m : Memory} {f : Fabric} {c slot : Nat} {e : Exec} {i : Instr}
    (he : (f.core c).exec (.seq c) = some e) (hz : (f.core c).dbg.frozen = false)
    (hl : leastOf (e.waits.filterMap fun w => if w.2 = .queue then some w.1 else none) = some slot)
    (hi : ((f.core c).blockOf (.seq c) e).bind (fun b => b.instrAt slot) = some i) :
    f.queueEntry m c = engineGo m i (gather (.seq c) slot i { e with waits := e.waits.filter fun w => w.1 ≠ slot })
      (f.modCore c fun k => k.endWait (.seq c) slot) := by
  have he' : ((f.modCore c fun k => k.endWait (.seq c) slot).core c).exec (.seq c) =
      some { e with waits := e.waits.filter fun w => w.1 ≠ slot } := by
    rw [Fabric.core_modCore, Core.endWait, Core.exec_modExec, he, Option.map_some]
  simp only [Fabric.queueEntry, he, hl, hi, hz, he']
  rfl

/-- A generator that runs nothing starts its next command, its rows all to come. -/
theorem startGen_starts {k : Core} {i : Nat} {q : GenCmd} {r : List GenCmd} (hc : (k.gen i).cur = none)
    (hq : (k.gen i).queue = q :: r) (hz : k.dbg.frozen = false) (hs : k.strwLets q.order = true) (ht : q.total ≠ some 0) :
    k.startGen i = k.modGen i fun y => { y with queue := r, cur := some q, row := 0, landed := [], wrote := [] } := by
  simp [Core.startGen, hc, hq, hz, hs, ht]

/-- The tier and network queue starts its next command; one that is no NGET sends nothing yet. -/
theorem startNet_starts {f : Fabric} {c : Nat} {m : NetCmd} (hm : (f.core c).eng.net.find? (fun m => !m.running) = some m)
    (hz : (f.core c).dbg.frozen = false) (hs : (f.core c).saving = false) (hc : (f.core c).cutDone = false) (ho : m.op ≠ 0x359) :
    f.startNet c = f.modCore c fun k => k.putNet { m with running := true } := by
  simp [Fabric.startNet, hm, hz, hs, hc, ho]

theorem engineCommandsStart : EngineCommandsStart := by
  refine ⟨fun s c e slot i he hz hl hi => ?_, fun c i q r => moves_of_fabricStep (fun _ => rfl) ?_,
    fun c m => moves_of_fabricStep (fun _ => rfl) ?_⟩
  · rw [show exec (.engineQueueEntry c) s = .next (s.onFabric fun f => f.queueEntry s.mem c) from rfl, State.onFabric,
      queueEntry_checks he hz hl hi]
    rfl
  · rintro f ⟨hc, hq, hz, hs, ht⟩
    exact Fabric.modCore_congr (g := fun k => k.startGen i) (startGen_starts hc hq hz hs ht)
  · rintro f ⟨hm, hz, hs, hc, ho⟩
    exact congrArg (·.sendReady c) (startNet_starts hm hz hs hc ho)

/-! #### Completion -/

/-- A window image that has all its rows, or whose header does not fit, is past its transfer. -/
theorem completeImage_fails {f : Fabric} {c id : Nat} {m : Image} (hm : (f.core c).eng.images.find? (fun x => x.id = id) = some m)
    (hz : (f.core c).dbg.frozen = false) (hs : m.strike = none)
    (hb : m.failed = true ∨ m.total ≤ m.pos ∧ m.save = false ∧
      crc32c (m.rows.tail.flatMap fun t => toBytes 64 t.bits) ≠ rowBits (m.rows.getD 0 {}).bits 223 192) :
    f.completeImage c id =
      (f.modCore c fun k => k.endImage m.id).postTrap c (engineTrap 0x22 m.op 0xFF 0xFFFE m.va) := by
  cases hf : m.failed with
  | true => simp [Fabric.completeImage, hm, hz, hs, hf, Fabric.failImage]
  | false =>
    obtain ⟨hp, hv, hr⟩ := hb.resolve_left (by simp [hf])
    simp only [Fabric.completeImage, Fabric.failImage, hm, hz, hs, hf, hv, decide_eq_false (Nat.not_lt.mpr hp), Option.isSome_none,
      Bool.false_and, Bool.or_false, Bool.false_eq_true, if_false]
    exact if_pos hr

theorem engineCommandsComplete : EngineCommandsComplete := by
  refine ⟨fun c i q => moves_of_memStep (g := fun m f => (m, f.modCore c fun k => k.completeGen i)) (fun _ => rfl) ?_,
    fun c m => moves_of_memStep (g := fun m f => f.completeNet m c) (fun _ => rfl) ?_,
    fun s c m hm hz ho => ?_,
    fun c id m => moves_of_memStep (g := fun m f => (m, f.completeImage c id)) (fun _ => rfl) ?_,
    fun c id m => moves_of_memStep (g := fun m f => (m, f.completeImage c id)) (fun _ => rfl) ?_,
    fun c id m => moves_of_memStep (g := fun m f => (m, f.completeImage c id)) (fun _ => rfl) ?_,
    fun c m => moves_of_memStep (g := fun m f => (m, f.modCore c Core.completeLoad)) (fun _ => rfl) ?_⟩
  · rintro m f ⟨⟨hq, hz⟩, hd⟩
    have hk : (f.core c).completeGen i = (((f.core c).endGen i ((f.core c).gen i).stopped).pruneStrws).settleMx := by
      simp only [Core.completeGen, hq, hd, hz]
      rfl
    exact congrArg (m, ·) (Fabric.modCore_congr (g := fun k => k.completeGen i) hk)
  · rintro m' f ⟨hm, hz, ho⟩
    simp [Fabric.completeNet, hm, hz, ho]
  · rw [show exec (.engineCommandComplete c .net) s = memStep (fun m f => f.completeNet m c) s from rfl, memStep_next]
    simp only [Fabric.completeNet, hm, hz, ho]
    rfl
  · rintro m' f ⟨hm, hz, hp, hs, hf, hv⟩
    simp [Fabric.completeImage, hm, hz, hs, hf, hv, Nat.not_lt.mpr hp]
  · rintro m' f ⟨hm, hz, hp, hs, hf, hv, hr⟩
    simp [Fabric.completeImage, hm, hz, hs, hf, hv, Nat.not_lt.mpr hp, hr]
  · rintro m' f ⟨hm, hz, hs, hb⟩
    exact congrArg (m', ·) (completeImage_fails hm hz hs hb)
  · rintro m' f ⟨hm, hw, hs, hz⟩
    have hk : (f.core c).completeLoad = (f.core c).endMx m.id := by simp [Core.completeLoad, hm, hw, hs, hz]
    exact congrArg (m', ·) (Fabric.modCore_congr hk)

/-- Settles O35: each command's start and completion where its conditions hold. -/
theorem engineCommandsRun : Obligations.EngineCommandsRun :=
  ⟨engineCommandsStart, engineCommandsComplete⟩

end Sys2Proof.Proofs

/-! ### Engine commands enter or stop -/

namespace Sys2Proof.Machine

/-- No check fails: no ENGINE_ARG. -/
theorem argOf_none {l : List (Bool × Nat × Nat)} (h : ∀ c ∈ l, c.1 = false) : argOf l = none := by
  have hany : (l.any fun p => p.1 && p.2.1 = 0x43) = false := by
    rw [List.any_eq_false]
    intro p hp
    simp [h p hp]
  have hmap : l.filterMap (fun p => if p.1 then some (p.2.1 * 256 + p.2.2) else none) = [] := by
    rw [List.filterMap_eq_nil_iff]
    intro p hp
    simp [h p hp]
  simp [argOf, hany, hmap, leastOf]

/-- The failing checks are those that the filter keeps. -/
theorem filterMap_failing (l : List (Bool × Nat × Nat)) (g : Bool × Nat × Nat → Nat) :
    l.filterMap (fun p => if p.1 then some (g p) else none) = (l.filter (·.1)).map g := by
  induction l with
  | nil => rfl
  | cons p l ih => cases hp : p.1 <;> simp [hp, ih]

/-- One check fails: ENGINE_ARG with its code and element (R231). -/
theorem argOf_single {l : List (Bool × Nat × Nat)} {code el : Nat} (h : l.filter (·.1) = [(true, code, el)]) (he : el < 256)
    (hc : code = 0x43 → el = 0xFF) : argOf l = some (el * 256 + code) := by
  have hany : (l.any fun p => p.1 && p.2.1 = 0x43) = decide (code = 0x43) := by
    rw [← List.any_filter, h]
    simp
  have hdiv : (code * 256 + el) / 256 = code := by omega
  have hmod : (code * 256 + el) % 256 = el := by omega
  rw [argOf, hany, filterMap_failing l fun p => p.2.1 * 256 + p.2.2, h]
  by_cases h43 : code = 0x43
  · simp [h43, hc h43]
  · simp [h43, leastOf, hdiv, hmod]
    omega

@[simp] theorem Core.counts_modExec (k : Core) (who : Agent) (g : Exec → Exec) : (k.modExec who g).counts = k.counts := by
  cases who <;> rfl

end Sys2Proof.Machine

namespace Sys2Proof.Proofs

open Sys2Proof.Machine Sys2Proof.Claims

/-- A command whose checks pass goes on. -/
theorem checked_passes {x : Issue} {desc : Option Nat} {l : List (Bool × Nat × Nat)} {go : Fabric → Fabric} {f : Fabric}
    (hw : Written (f.core x.who.core) desc) (hl : ∀ c ∈ l, c.1 = false) : x.checked desc l go f = go f := by
  cases desc with
  | none => simp [Issue.checked, argOf_none hl]
  | some n => simp [Issue.checked, argOf_none hl, Option.isSome_iff_ne_none.mp (hw n rfl)]

/-- A command that names a descriptor never written is DESC_EMPTY (R230). -/
theorem checked_empty {x : Issue} {n : Nat} {l : List (Bool × Nat × Nat)} {go : Fabric → Fabric} {f : Fabric}
    (hn : sfind (f.core x.who.core).plane.descs n = none) : x.checked (some n) l go f = x.fault 0x33 n 0 f := by
  simp [Issue.checked, hn]

/-- A command that fails one check is ENGINE_ARG with its code and element (R231). -/
theorem checked_fails {x : Issue} {desc : Option Nat} {l : List (Bool × Nat × Nat)} {go : Fabric → Fabric} {f : Fabric} {code el : Nat}
    (hw : Written (f.core x.who.core) desc) (hl : l.filter (·.1) = [(true, code, el)]) (he : el < 256) (hc : code = 0x43 → el = 0xFF) :
    x.checked desc l go f = x.fault 0x10 (el * 256 + code) 0 f := by
  cases desc with
  | none => simp [Issue.checked, argOf_single hl he hc]
  | some n => simp [Issue.checked, argOf_single hl he hc, Option.isSome_iff_ne_none.mp (hw n rfl)]

/-- The entry of a command: its put on the core, under the number it gets. -/
def enterCommand (x : Issue) (q : Command) : Fabric → Fabric :=
  x.enter q.room q.cp q.mx fun id f => f.modCore x.who.core (q.put id)

/-- With room a command enters under the next number (R52, R230). -/
theorem enterCommand_enters {x : Issue} {q : Command} {f : Fabric} (h : HasRoom (f.core x.who.core) q.room q.cp q.mx) :
    enterCommand x q f = entered x q.cp q.mx (q.put f.units.nextId) f := by
  obtain ⟨hr, hcp, hmx⟩ := h
  refine (if_pos (by simp [hr, hcp, hmx])).trans ?_
  simp only [Issue.noResult, Fabric.modCore_modCore, Core.modExec_modExec, Core.counts_modExec]
  rfl

/-- Without room a command waits (R230). -/
theorem enterCommand_waits {x : Issue} {q : Command} {f : Fabric} (h : ¬ HasRoom (f.core x.who.core) q.room q.cp q.mx) :
    enterCommand x q f = x.wait .queue f := by
  refine if_neg fun hc => h ?_
  simp only [Bool.and_eq_true, decide_eq_true_eq] at hc
  exact ⟨hc.1.1, hc.1.2, hc.2⟩

/-- The step of an engine command is an issue of what it does at execution, which is its checks and then the entry of its queue. -/
theorem exec_command {i : Instr} {f : Fabric} {x : Issue} {q : Command} (hq : commandOf i f x = some q) (s : State) :
    exec i s = issueStep i (engineGo s.mem i) s ∧ ∀ m, engineGo m i x f = x.checked q.desc q.checks (enterCommand x q) f := by
  revert hq
  cases i
  case mxldw | mxsel | mxrun | mxthr | cpy | cpyChained | cpyw | cpyr | cpyi | cpypMax | cpypAvg | cpyf | strmRead | strmWrite | strw
      | strxStop | strxResume | nsend | nget | nredAdd | nredMax | nredMin | xinv | wpsetDescriptor | wpsetRange =>
    exact fun hq => ⟨rfl, fun _ => by rw [← Option.some.inj hq]; rfl⟩
  all_goals exact of_none_eq_some

/-- An engine command that issues makes its checks, then enters its queue. -/
theorem exec_checks {i : Instr} {x : Issue} {s : State} {e : Exec} {b : Block} {q : Command} (hq : commandOf i s.fab x = some q)
    (hi : Issues s x.who x.slot i e b) (hx : x = gather x.who x.slot i e) :
    exec i s = .next (s.onFabric (x.checked q.desc q.checks (enterCommand x q))) := by
  obtain ⟨hs, hg⟩ := exec_command hq s
  rw [hs, issueStep_offered hi.acting hi.running hi.issuing hi.offered hi.live hi.block hi.free hi.ordered, ← hx,
    hg]
  rfl

/-- Settles O22: the checks decide between a fault and the entry, and room between the entry and a wait. -/
theorem engineCommandsEnterOrStop : Obligations.EngineCommandsEnterOrStop := by
  refine ⟨fun i x s e b q hq hi hx hw hl hr => ?_, fun i x s e b q hq hi hx => ⟨fun hw hl hr => ?_, fun n hn he => ?_,
    fun hw code el hl he hc => ?_⟩⟩
  · rw [exec_checks hq hi hx, State.onFabric, checked_passes hw hl, enterCommand_enters hr]
    rfl
  · rw [exec_checks hq hi hx, State.onFabric, checked_passes hw hl, enterCommand_waits hr]
    rfl
  · rw [exec_checks hq hi hx, State.onFabric, hn, checked_empty he, Issue.fault, show x.i = i by rw [hx]; rfl]
    rfl
  · rw [exec_checks hq hi hx, State.onFabric, checked_fails hw hl he hc, Issue.fault, show x.i = i by rw [hx]; rfl]
    rfl

end Sys2Proof.Proofs

/-! ### Accumulator instructions -/

namespace Sys2Proof.Proofs

open Sys2Proof.Machine Sys2Proof.Claims

/-- Rows of an accumulator write that are not held: none is found held. -/
theorem accFree_find {k : Core} {o : AccOp} {row : Nat} (h : AccFree k o row) : (o.rows row).find? k.accHeld = none := by
  rw [List.find?_eq_none]
  intro r hr
  simp [h r hr]

/-- A write that names a row past the array is ACC_RANGE (R174). -/
theorem accWrite_range {x : Issue} {row last : Nat} {o : AccOp} {f : Fabric} (h : 1024 ≤ last) :
    accWrite x row last o f = x.fault 0x07 last 0 f := if_pos h

/-- A write of an actor to a row that a matrix operation holds is ACC_BUSY (R45). -/
theorem accWrite_busy {x : Issue} {row last r c a : Nat} {o : AccOp} {f : Fabric} (h : last < 1024) (hx : x.who = .actor c a)
    (hr : (o.rows row).find? (f.core c).accHeld = some r) : accWrite x row last o f = x.fault 0x08 r 0 f := by
  have hl : ¬ 1023 < last := by omega
  simp only [accWrite, hx, Agent.core, hr, if_neg hl]

/-- A write of an actor is buffered to commit (R176). -/
theorem accWrite_buffers {x : Issue} {row last c a : Nat} {o : AccOp} {f : Fabric} (h : last < 1024) (hx : x.who = .actor c a)
    (hr : (o.rows row).find? (f.core c).accHeld = none) : accWrite x row last o f = x.buffer (.acc row o ⟨x.b, x.ember⟩) f := by
  have hl : ¬ 1023 < last := by omega
  simp only [accWrite, hx, Agent.core, hr, if_neg hl]

/-- A write of a sequencer's block is applied as it executes; a patch needs two free rows of its log, which no WREST fills (R170,
R176, R178). -/
theorem accWrite_applies {x : Issue} {row last c : Nat} {o : AccOp} {f : Fabric} (h : last < 1024) (hx : x.who = .seq c)
    (hr : (o.rows row).find? (f.core c).accHeld = none)
    (hp : ∀ k n m w, o = .patch k n m → (f.core c).plane.patchLog = some w → 2 ≤ (f.core c).freeRows w ∧ (f.core c).restoring w = false) :
    accWrite x row last o f = f.modCore c fun k =>
      (k.accApply (.seq c) row o ⟨x.b, x.ember⟩ (f.heldUnit (.seq c))).1.modExec (.seq c) fun e =>
        { e.mark x.slot (k.accApply (.seq c) row o ⟨x.b, x.ember⟩ (f.heldUnit (.seq c))).2 with acted := true } := by
  have hl : ¬ 1023 < last := by omega
  cases o with
  | patch kind mode mask =>
    cases hw : (f.core c).plane.patchLog with
    | none => simp only [accWrite, hx, Agent.core, hr, if_neg hl, Core.logRestoring, hw]; rfl
    | some w =>
      obtain ⟨h2, hn⟩ := hp kind mode mask w rfl hw
      have hfull : ¬ (f.core c).freeRows w < 2 := by omega
      simp only [accWrite, hx, Agent.core, hr, if_neg hl, Core.logRestoring, hw, hn, decide_eq_false hfull]
      rfl
  | write | add | clear => simp only [accWrite, hx, Agent.core, hr, if_neg hl]; rfl

/-- An accumulator write that issues writes the rows it names. -/
theorem exec_accWrite {i : Instr} {x : Issue} {o : AccOp} {row last : Nat} {s : State} {e : Exec} {b : Block}
    (ho : accWriteOf i x = some (o, row, last)) (hi : Issues s x.who x.slot i e b) (hx : x = gather x.who x.slot i e) :
    exec i s = .next (s.onFabric (accWrite x row last o)) := by
  have issue {go : Issue → Fabric → Fabric} (he : exec i s = issueStep i go s) : exec i s = .next (s.onFabric (go x)) := by
    rw [he, issueStep_offered hi.acting hi.running hi.issuing hi.offered hi.live hi.block hi.free hi.ordered, ← hx]
    rfl
  clear hi hx
  revert ho issue
  cases i
  case awr | aacc | apatchSet | apatchAdd | apatchScale | aclr => intro ho issue; cases ho; exact issue rfl
  all_goals exact of_none_eq_some

theorem accumulatorWritesComplete : AccumulatorWritesComplete := by
  intro i x o row last ho hl s e b hi hx hfree
  refine ⟨fun c a hc => ?_, fun c hc hp => ?_⟩
  · rw [exec_accWrite ho hi hx, State.onFabric, accWrite_buffers hl hc (by have h := accFree_find hfree; rwa [hc] at h)]
  · rw [exec_accWrite ho hi hx, State.onFabric, accWrite_applies hl hc (by have h := accFree_find hfree; rwa [hc] at h) hp]
    rfl

theorem accumulatorFaults : AccumulatorFaults := by
  refine ⟨fun i x o row last ho hl s e b hi hx => ?_, fun i x o row last ho hl s e b c a r hi hx hc hr => ?_, fun d => ?_⟩
  · rw [exec_accWrite ho hi hx, State.onFabric, accWrite_range hl, Issue.fault, show x.i = i by rw [hx]; rfl]
  · rw [exec_accWrite ho hi hx, State.onFabric, accWrite_busy hl hc hr, Issue.fault, show x.i = i by rw [hx]; rfl]
  · exact does_of_issueStep (fun _ => rfl) fun x f hr => if_pos hr

theorem ardReadsRow : ArdReadsRow := by
  refine ⟨fun d => does_of_issueStep (fun _ => rfl) ?_, fun d => does_of_issueStep (fun _ => rfl) ?_⟩
  · rintro x f ⟨⟨c, a, hx⟩, hr, hh⟩
    have hl : ¬ 1023 < accRow d x.a := by rw [accRow]; omega
    rw [hx] at hh
    simp only [hx, Agent.core, if_neg hl]
    rw [show (f.core c).accHeld (accRow d x.a) = false from hh]
    rfl
  · rintro x f ⟨⟨c, hx⟩, hr, hh⟩
    have hl : ¬ 1023 < accRow d x.a := by rw [accRow]; omega
    rw [hx] at hh
    simp only [hx, Agent.core, if_neg hl]
    rw [show (f.core c).accHeld (accRow d x.a) = false from hh]
    rfl

/-- Settles O11: one write of each instruction, by agent, and the row's place and hold. -/
theorem accumulatorInstructionsComplete : Obligations.AccumulatorInstructionsComplete :=
  ⟨accumulatorWritesComplete, ardReadsRow, accumulatorFaults⟩

end Sys2Proof.Proofs

/-! ### Requests opened -/

namespace Sys2Proof.Machine

/-! #### What a core keeps -/

/-- A block in progress hangs on the actors, the sequencer and the BIND plane's block alone. -/
theorem Core.exec_of_parts {k l : Core} (ha : l.actors = k.actors) (hs : l.seq = k.seq) (hb : l.bindExec = k.bindExec) (who : Agent) :
    l.exec who = k.exec who := by
  cases who with
  | actor c a => simp only [Core.exec, Core.actor, ha]
  | seq c => simp only [Core.exec, hs]
  | bind c => exact hb

/-- An entry used changes the translation cache alone. -/
theorem Core.useEntry_tlb (k : Core) (ctx va : Nat) (w : Bool) : ∃ l, k.useEntry ctx va w = { k with tlb := l } := by
  unfold Core.useEntry
  split
  · exact ⟨k.tlb, rfl⟩
  · exact ⟨_, rfl⟩

/-- Lanes counted change the translation cache alone. -/
theorem Core.countLanes_tlb (k : Core) (w : Bool) (was now : List ReqLane) :
    ∃ l, k.countLanes w was now = { k with tlb := l } := by
  unfold Core.countLanes
  induction was.zip now generalizing k with
  | nil => exact ⟨k.tlb, rfl⟩
  | cons p ps ih =>
    rw [List.foldl_cons]
    by_cases hp : (p.1.pa.isNone && p.2.pa.isSome) = true
    · rw [if_pos hp]
      obtain ⟨l, hl⟩ := k.useEntry_tlb k.contextId p.2.va w
      obtain ⟨l', hl'⟩ := ih (k.useEntry k.contextId p.2.va w)
      exact ⟨l', by rw [hl', hl]⟩
    · rw [if_neg hp]; exact ih k

/-- A request counted changes the outstanding counts alone. -/
theorem Core.countReq_counts (k : Core) (who : Agent) (kind : ReqKind) (up : Bool) :
    ∃ n, k.countReq who kind up = { k with counts := n } := by
  unfold Core.countReq
  dsimp only
  split
  · split
    · exact ⟨_, rfl⟩
    · split
      · exact ⟨_, rfl⟩
      · exact ⟨k.counts, rfl⟩
  · exact ⟨k.counts, rfl⟩

/-- A request that crosses its channel changes the crossings alone. -/
theorem Core.crossedReq_prof (k : Core) (r : Req) : ∃ p, k.crossedReq r = { k with dbg := { k.dbg with prof := p } } := by
  unfold Core.crossedReq
  split
  · exact ⟨_, rfl⟩
  · exact ⟨k.dbg.prof, rfl⟩

@[simp] theorem Core.exec_countLanes (k : Core) (w : Bool) (was now : List ReqLane) (who : Agent) :
    (k.countLanes w was now).exec who = k.exec who := by
  obtain ⟨l, hl⟩ := k.countLanes_tlb w was now
  rw [hl]
  exact Core.exec_of_parts (by rfl) (by rfl) (by rfl) who

@[simp] theorem Core.counts_countLanes (k : Core) (w : Bool) (was now : List ReqLane) :
    (k.countLanes w was now).counts = k.counts := by
  obtain ⟨l, hl⟩ := k.countLanes_tlb w was now
  rw [hl]

@[simp] theorem Core.exec_countReq (k : Core) (v : Agent) (kind : ReqKind) (up : Bool) (who : Agent) :
    (k.countReq v kind up).exec who = k.exec who := by
  obtain ⟨n, hn⟩ := k.countReq_counts v kind up
  rw [hn]
  exact Core.exec_of_parts (by rfl) (by rfl) (by rfl) who

@[simp] theorem Core.exec_crossedReq (k : Core) (r : Req) (who : Agent) : (k.crossedReq r).exec who = k.exec who := by
  obtain ⟨p, hp⟩ := k.crossedReq_prof r
  rw [hp]
  exact Core.exec_of_parts (by rfl) (by rfl) (by rfl) who

@[simp] theorem Core.counts_crossedReq (k : Core) (r : Req) : (k.crossedReq r).counts = k.counts := by
  obtain ⟨p, hp⟩ := k.crossedReq_prof r
  rw [hp]

@[simp] theorem Fabric.core_askFor (f : Fabric) (r : Req) (c : Nat) : (f.askFor r).core c = f.core c := by
  unfold Fabric.askFor
  split <;> rfl

/-! #### Lanes checked -/

/-- A lane checked is what it was, but for its translation. -/
theorem Fabric.checkLanes_keys {β : Type} (key : ReqLane → β) (hk : ∀ l pa page, key { l with pa := pa, page := page } = key l)
    (f : Fabric) (who : Agent) (e : Exec) (i : Instr) (ls : List ReqLane) :
    (f.checkLanes who e i ls).1.map key = ls.map key := by
  induction ls with
  | nil => rfl
  | cons l ls ih =>
    unfold Fabric.checkLanes
    split
    · simp only [List.map_cons, ih]
    · split
      · simp only [List.map_cons, ih, hk]
      · rfl

/-- Where no lane is refused, the check ends with none refused. -/
theorem Fabric.checkLanes_clear {f : Fabric} {who : Agent} {e : Exec} {i : Instr} {ls : List ReqLane}
    (h : ∀ l ∈ ls, ∀ code a hits, f.checkLane who e i l ≠ .fault code a hits) (l : ReqLane) (code a : Nat) (hits : List (Nat × Nat)) :
    (f.checkLanes who e i ls).2 ≠ some (l, .fault code a hits) := by
  induction ls with
  | nil => exact nofun
  | cons m ls ih =>
    have ih := ih fun l hl => h l (List.mem_cons_of_mem m hl)
    unfold Fabric.checkLanes
    split
    · exact ih
    · split
      · exact ih
      · intro hc
        obtain ⟨rfl, hf⟩ := Prod.mk.inj (Option.some.inj hc)
        exact h m List.mem_cons_self code a hits hf

end Sys2Proof.Machine

namespace Sys2Proof.Proofs

open Sys2Proof.Machine Sys2Proof.Claims

/-- A lane's misalignment or strike is no part of what it asks for. -/
theorem laneKey_early (k : Core) (e : Exec) (i : Instr) (l : ReqLane) : laneKey (k.early e i l) = laneKey l := by
  unfold Core.early
  split
  · rfl
  · split <;> rfl

theorem laneKey_shareStrikes (ls : List ReqLane) : (shareStrikes ls).map laneKey = ls.map laneKey := by
  unfold shareStrikes
  dsimp only
  rw [List.map_map]
  refine List.map_congr_left fun l _ => ?_
  dsimp only [Function.comp]
  split <;> rfl

/-- The lanes of an instruction at its issue are those that its operands ask for (R180). -/
theorem lanesNow_keys (x : Issue) (f : Fabric) : (x.lanesNow f).map laneKey = asked x := by
  rw [Issue.lanesNow, laneKey_shareStrikes, List.map_map, asked]
  exact List.map_congr_left fun l _ => laneKey_early ..

/-- The fabric in which an instruction has opened a request, its core changed by `g` before. -/
def opening (f : Fabric) (g : Core → Core) (r : Req) : Fabric := ((f.modCore r.who.core g).fresh.2.askFor r).openReq r

theorem opening_units (f : Fabric) (g : Core → Core) (r : Req) : (opening f g r).units =
    { f.units with
      nextId := f.units.nextId + 1, reqs := f.units.reqs ++ [r]
      walks := if r.lanes.any fun l => l.pa.isNone && !l.bad then
          smod [] f.units.walks (dieOf r.who.core) fun l => if l.contains (.req r.id) then l else l ++ [.req r.id]
        else f.units.walks } := by
  unfold opening Fabric.askFor
  split <;> rfl

theorem opening_core (f : Fabric) (g : Core → Core) (r : Req) : (opening f g r).core r.who.core =
    (((g (f.core r.who.core)).modExec r.who fun e =>
      { e with inflight := r.slot :: e.inflight, acted := e.acted || (Agent.isBlock r.who && r.kind.isLoad) }).countReq r.who r.kind
        true).crossedReq r := by
  simp only [opening, Fabric.openReq, Fabric.core_modCore, Fabric.core_modUnits, Fabric.core_askFor, Fabric.fresh]

theorem opening_core_other (f : Fabric) (g : Core → Core) (r : Req) {d : Nat} (h : d ≠ r.who.core) :
    (opening f g r).core d = f.core d := by
  simp only [opening, Fabric.openReq, Fabric.core_modCore_other _ _ h, Fabric.core_modUnits, Fabric.core_askFor, Fabric.fresh]

/-- A request for an instruction's lanes, however far they are translated, is opened. -/
theorem opened_of_opening (s : State) (g : Core → Core) {x : Issue} {ls : List ReqLane} (hl : (ls.map laneKey).Perm (asked x)) :
    Opened s { s with fab := opening s.fab g (x.request s.fab.units.nextId ls) } x (x.request s.fab.units.nextId ls) :=
  ⟨opening_units .., rfl, rfl, rfl, rfl, rfl, rfl, hl, rfl, fun _ hd => opening_core_other _ _ _ hd⟩

/-! ### Loads -/

/-- A load whose lanes are clear asks for a slot of its channel, or takes one. -/
theorem loadIssue_clear {f : Fabric} {x : Issue} (h : LanesClear f x) (granted : Bool) :
    f.loadIssue x granted =
      if !granted && f.lowerAsks x ((reqChan x.i).getD 0) then f
      else if granted || f.slotFree x.who.core ((reqChan x.i).getD 0) then
        opening f (fun k => k.countLanes false (x.lanesNow f) (f.checkLanes x.who x.exec x.i (x.lanesNow f)).1)
          (x.request f.units.nextId (f.checkLanes x.who x.exec x.i (x.lanesNow f)).1)
      else f.askSlot x ((reqChan x.i).getD 0) := by
  have hc := Fabric.checkLanes_clear h
  unfold Fabric.loadIssue
  dsimp only
  split
  · rename_i l code addr hits hq
    exact absurd hq (hc l code addr hits)
  · rfl

/-- What holds of the four loads holds of every load. -/
theorem isLoad_elim {P : Instr → Prop} {i : Instr} (h : isLoad i = true)
    (hp : ∀ m, P (.ld m) ∧ P (.ld2 m) ∧ P (.lds m) ∧ P (.gath m)) : P i := by
  revert h
  cases i
  case ld m => exact fun _ => (hp m).1
  case ld2 m => exact fun _ => (hp m).2.1
  case lds m => exact fun _ => (hp m).2.2.1
  case gath m => exact fun _ => (hp m).2.2.2
  all_goals exact of_false_eq_true

/-- A load that issues is a load issued to its channel. -/
theorem exec_load {i : Instr} {x : Issue} {s : State} {e : Exec} {b : Block} (hl : isLoad i = true)
    (hi : Issues s x.who x.slot i e b) (hx : x = gather x.who x.slot i e) :
    exec i s = .next (s.onFabric fun f => f.loadIssue x false) := by
  have he : exec i s = issueStep i (fun x f => f.loadIssue x false) s :=
    isLoad_elim (P := fun i => exec i s = issueStep i (fun x f => f.loadIssue x false) s) hl fun _ => ⟨rfl, rfl, rfl, rfl⟩
  rw [he, issueStep_offered hi.acting hi.running hi.issuing hi.offered hi.live hi.block hi.free hi.ordered, ← hx]
  rfl

/-- The kind of a load's request counts in LD. -/
theorem reqKind_isLoad {i : Instr} (h : isLoad i = true) : (reqKind i).isLoad = true :=
  isLoad_elim (P := fun i => (reqKind i).isLoad = true) h fun _ => ⟨rfl, rfl, rfl, rfl⟩

/-- A load counted raises LD of a sequencer, of no other agent (R52). -/
theorem countReq_load (k : Core) (who : Agent) {kind : ReqKind} (h : kind.isLoad = true) :
    (k.countReq who kind true).counts.ld = k.counts.ld + (match who with | .seq _ => 1 | _ => 0) := by
  cases who with
  | seq c => simp [Core.countReq, h]
  | actor | bind => rfl

/-- Settles O12: with its lanes clear a load waits its turn, takes a slot, or asks for one. -/
theorem loadsComplete : Obligations.LoadsComplete := by
  intro i x hl s e b hi hx hclear
  have hxi : x.i = i := by rw [hx]; rfl
  have hxe : x.exec = e := by rw [hx]; rfl
  have hkind : (reqKind x.i).isLoad = true := reqKind_isLoad (by rw [hxi, hl])
  rw [exec_load hl hi hx, State.onFabric, loadIssue_clear hclear, hxi]
  refine ⟨fun hw => ?_, fun hw hf => ?_, fun hw hf => ?_⟩
  · rw [hw]; rfl
  · rw [hw, hf]
    have hr : (x.request s.fab.units.nextId (s.fab.checkLanes x.who x.exec i (x.lanesNow s.fab)).1).kind.isLoad = true := hkind
    refine ⟨_, _, rfl, opened_of_opening s _ (ls := (s.fab.checkLanes x.who x.exec i (x.lanesNow s.fab)).1) ?_, ?_, ?_⟩
    · rw [Fabric.checkLanes_keys laneKey fun _ _ _ => rfl, lanesNow_keys]
    · refine (congrArg (·.exec x.who) (opening_core ..)).trans ?_
      simp only [Core.exec_crossedReq, Core.exec_countReq, hr, Bool.and_true]
      simp only [Issue.request, Core.exec_modExec, Core.exec_countLanes, hi.running, Option.map_some]
    · refine (congrArg (·.counts.ld) (opening_core ..)).trans ?_
      simp only [Core.counts_crossedReq]
      refine (countReq_load _ _ hr).trans ?_
      rw [Core.counts_modExec, Core.counts_countLanes]
      rfl
  · rw [hw, hf, ← hxe]
    rfl

end Sys2Proof.Proofs

/-! ### Eager atomics -/

namespace Sys2Proof.Machine

/-! #### Pins -/

/-- A key that a map finds is among its keys. -/
theorem mem_skeys_of_sfind {α : Type} {m : Sparse α} {i : Nat} {v : α} (h : sfind m i = some v) : i ∈ skeys m := by
  induction m with
  | nil => cases h
  | cons p m ih =>
    by_cases hi : i = p.1
    · simp [skeys, hi]
    · rw [sfind, if_neg hi] at h
      exact List.mem_cons_of_mem _ (ih h)

/-- An actor is a member of its link set (R215). -/
theorem Core.mem_mates (k : Core) (a : Nat) : a ∈ k.mates a := by
  unfold Core.mates
  split
  · exact List.mem_singleton_self a
  · rename_i n hn
    cases hf : sfind k.plane.actors a with
    | none => rw [hf] at hn; cases hn
    | some g =>
      rw [hf] at hn
      rw [List.mem_filter]
      exact ⟨mem_skeys_of_sfind hf, by rw [hf]; simpa using hn⟩

/-- An actor whose block is in progress has a firing. -/
theorem Core.firing_of_exec {k : Core} {c a : Nat} {e : Exec} (h : k.exec (.actor c a) = some e) : (k.actor a).firing.isSome = true := by
  rw [Core.exec] at h
  cases hf : (k.actor a).firing with
  | none => rw [hf] at h; cases h
  | some y => rfl

/-- One member pinned (R27). -/
def Core.pinOne (k : Core) (m : Nat) : Core :=
  k.modActor m fun x => { x with firing := x.firing.map fun y => { y with pinned := true } }

theorem Core.pin_actor (k : Core) (c a : Nat) : k.pin (.actor c a) = (k.mates a).foldl Core.pinOne k := rfl

/-- A member pinned has its block in progress as it was. -/
theorem Core.exec_pinOne (k : Core) (m : Nat) (who : Agent) : (k.pinOne m).exec who = k.exec who := by
  cases who with
  | actor c a =>
    by_cases h : a = m
    · subst h
      simp only [Core.pinOne, Core.exec, Core.actor_modActor]
      cases (k.actor a).firing <;> rfl
    · simp only [Core.pinOne, Core.exec, Core.actor_modActor_other _ _ h]
  | seq | bind => rfl

theorem Core.isPinned_pinOne_same {k : Core} {a : Nat} {y : Firing} (h : (k.actor a).firing = some y) :
    (k.pinOne a).isPinned a = true := by
  simp [Core.pinOne, Core.isPinned, h]

/-- A member pinned stays pinned as others are. -/
theorem Core.isPinned_pinOne {k : Core} {a : Nat} (m : Nat) (h : k.isPinned a = true) : (k.pinOne m).isPinned a = true := by
  by_cases hm : a = m
  · subst hm
    cases hf : (k.actor a).firing with
    | none => rw [Core.isPinned, hf] at h; cases h
    | some y => exact Core.isPinned_pinOne_same hf
  · rw [Core.isPinned, Core.pinOne, Core.actor_modActor_other _ _ hm]
    exact h

theorem Core.firing_pinOne {k : Core} {a : Nat} (m : Nat) (h : (k.actor a).firing.isSome = true) :
    ((k.pinOne m).actor a).firing.isSome = true := by
  by_cases hm : a = m
  · subst hm; simpa [Core.pinOne] using h
  · rw [Core.pinOne, Core.actor_modActor_other _ _ hm, h]

/-- Members pinned leave every block in progress. -/
theorem Core.exec_pinned (k : Core) (ms : List Nat) (who : Agent) : (ms.foldl Core.pinOne k).exec who = k.exec who := by
  induction ms generalizing k with
  | nil => rfl
  | cons m ms ih => rw [List.foldl_cons, ih, Core.exec_pinOne]

/-- An actor with a firing that is among the members pinned is pinned. -/
theorem Core.isPinned_pinned {k : Core} {ms : List Nat} {a : Nat} (hf : (k.actor a).firing.isSome = true) (ha : a ∈ ms) :
    (ms.foldl Core.pinOne k).isPinned a = true := by
  have stays (ms : List Nat) (k : Core) (h : k.isPinned a = true) : (ms.foldl Core.pinOne k).isPinned a = true := by
    induction ms generalizing k with
    | nil => exact h
    | cons m ms ih => exact ih _ (Core.isPinned_pinOne m h)
  induction ms generalizing k with
  | nil => cases ha
  | cons m ms ih =>
    rw [List.foldl_cons]
    rcases List.mem_cons.mp ha with rfl | hm
    · obtain ⟨y, hy⟩ := Option.isSome_iff_exists.mp hf
      exact stays ms _ (Core.isPinned_pinOne_same hy)
    · exact ih (Core.firing_pinOne m hf) hm

/-! #### Lanes of an eager atomic -/

/-- The order of R188 keeps the lanes. -/
theorem insertLane_perm (l : ReqLane) (ls : List ReqLane) : (insertLane l ls).Perm (l :: ls) := by
  induction ls with
  | nil => exact .refl _
  | cons m ls ih =>
    rw [insertLane]
    split
    · exact (ih.cons m).trans (.swap l m ls)
    · exact .refl _

theorem sortLanes_perm (ls : List ReqLane) : (sortLanes ls).Perm ls := by
  have fold (ls m : List ReqLane) : (ls.foldl (fun m l => insertLane l m) m).Perm (ls ++ m) := by
    induction ls generalizing m with
    | nil => exact .refl _
    | cons l ls ih =>
      refine (ih (insertLane l m)).trans ?_
      exact ((insertLane_perm l m).append_left ls).trans List.perm_middle
  simpa [sortLanes] using fold ls []

/-- The lanes of a form have no translation yet. -/
theorem formLanes_fresh (m : MFields) (a b c : Row) : ∀ l ∈ formLanes m a b c, l.pa = none := by
  intro l hl
  unfold formLanes at hl
  dsimp only at hl
  split at hl
  · obtain ⟨k, -, rfl⟩ := List.mem_map.mp hl; rfl
  · rw [List.mem_singleton.mp hl]

/-- Where the lanes of an instruction have no translation yet, they have none at its issue. -/
theorem lanesNow_fresh {x : Issue} (h : ∀ a b c, ∀ l ∈ memLanes x.i a b c, l.pa = none) (f : Fabric) :
    ∀ l ∈ x.lanesNow f, l.pa = none := by
  have early (k : Core) (l : ReqLane) : (k.early x.exec x.i l).pa = l.pa := by
    unfold Core.early
    split
    · rfl
    · split <;> rfl
  intro l hl
  unfold Issue.lanesNow shareStrikes at hl
  obtain ⟨m, hm, rfl⟩ := List.mem_map.mp hl
  obtain ⟨n, hn, rfl⟩ := List.mem_map.mp hm
  have hp : ((f.core x.who.core).early x.exec x.i n).pa = none := by rw [early, h _ _ _ n hn]
  split
  · exact hp
  · exact hp

/-- The check of a lane hangs on the core's translation cache and context, and on the pages in transit. -/
theorem Fabric.checkLane_congr {f g : Fabric} {who : Agent} (ht : (g.core who.core).tlb = (f.core who.core).tlb)
    (hc : (g.core who.core).contextId = (f.core who.core).contextId) (hu : g.units.transits = f.units.transits) (e : Exec) (i : Instr)
    (l : ReqLane) : g.checkLane who e i l = f.checkLane who e i l := by
  unfold Fabric.checkLane Core.cached Fabric.accessFault Fabric.inTransit
  dsimp only
  rw [ht, hc, hu]

/-- An eager atomic none of whose lanes is refused is not refused. -/
theorem Fabric.eagerRefused_none {f : Fabric} {who : Agent} {e : Exec} {i : Instr} {ls : List ReqLane}
    (h : ∀ l ∈ ls, ∃ pa cls page, f.checkLane who e i l = .ok pa cls page) : f.eagerRefused who e i ls = none := by
  unfold Fabric.eagerRefused
  rw [List.findSome?_eq_none_iff]
  intro l hl
  obtain ⟨n, -, hn⟩ := List.mem_filterMap.mp hl
  obtain ⟨pa, cls, page, hok⟩ := h l (List.mem_of_find?_eq_some hn)
  rw [show f.checkLane who e i { l with pa := none } = f.checkLane who e i l from rfl, hok]

/-- A lane that its page's entry admits is translated, and its page is not faulting. -/
theorem Fabric.eagerLane_ok {f : Fabric} {who : Agent} {e : Exec} {i : Instr} {l : ReqLane} (hp : l.pa = none)
    (h : ∃ pa cls page, f.checkLane who e i l = .ok pa cls page) :
    (f.eagerLane who e i l).pa.isSome = true ∧ (f.eagerLane who e i l).bad = false := by
  obtain ⟨pa, cls, page, hok⟩ := h
  simp [Fabric.eagerLane, hp, hok]

/-- A lane's translation is no part of what it asks for. -/
theorem Fabric.laneKey_eagerLane (f : Fabric) (who : Agent) (e : Exec) (i : Instr) (l : ReqLane) :
    Claims.laneKey (f.eagerLane who e i l) = Claims.laneKey l := by
  unfold Fabric.eagerLane
  split
  · rfl
  · split <;> rfl

/-- With every lane's page known to admit it an eager atomic issues, its request's lanes in order, and pins its firing (R188). -/
theorem Fabric.eagerAdvance_issues {f : Fabric} {r : Req} {i : Instr} {e : Exec} (hp : ∀ l ∈ r.lanes, l.pa = none)
    (h : ∀ l ∈ r.lanes, ∃ pa cls page, f.checkLane r.who e i l = .ok pa cls page) :
    f.eagerAdvance r i e =
      ((f.modCore r.who.core fun k => k.countLanes true r.lanes (r.lanes.map (f.eagerLane r.who e i))).putReq
        { r with lanes := sortLanes (r.lanes.map (f.eagerLane r.who e i)) }).modCore r.who.core fun k => k.pin r.who := by
  have hno : (if r.someDone then none else f.eagerRefused r.who e i r.lanes) = none := by
    rw [Fabric.eagerRefused_none h, ite_self]
  have hall : ∀ l ∈ sortLanes (r.lanes.map (f.eagerLane r.who e i)), l.pa.isSome = true ∧ l.bad = false := by
    intro l hl
    obtain ⟨m, hm, rfl⟩ := List.mem_map.mp ((sortLanes_perm _).mem_iff.mp hl)
    exact Fabric.eagerLane_ok (hp m hm) (h m hm)
  have hany : ((sortLanes (r.lanes.map (f.eagerLane r.who e i))).any fun l => l.pa.isNone && !l.bad) = false := by
    rw [List.any_eq_false]
    intro l hl
    simp [Option.isSome_iff_ne_none.mp (hall l hl).1]
  have hfault : Req.faultingLane { r with lanes := sortLanes (r.lanes.map (f.eagerLane r.who e i)) } = none := by
    unfold Req.faultingLane
    split
    · rename_i l hl
      rw [(hall l (List.mem_of_find?_eq_some hl)).2]; rfl
    · rfl
  unfold Fabric.eagerAdvance
  rw [hno]
  simp only [hany, hfault]
  rfl

end Sys2Proof.Machine

namespace Sys2Proof.Proofs

open Sys2Proof.Machine Sys2Proof.Claims

/-- The fabric in which an eager atomic has opened its request and pinned its agent: `r` is the request as it opens, `r'` with its
lanes translated, which are counted by `g`. -/
def pinning (f : Fabric) (g : Core → Core) (r r' : Req) : Fabric :=
  (((f.fresh.2.openReq r).modCore r.who.core g).putReq r').modCore r.who.core fun k => k.pin r.who

theorem pinning_core (f : Fabric) (g : Core → Core) (r r' : Req) : (pinning f g r r').core r.who.core =
    (g ((((f.core r.who.core).modExec r.who fun e =>
      { e with inflight := r.slot :: e.inflight, acted := e.acted || (Agent.isBlock r.who && r.kind.isLoad) }).countReq r.who r.kind
        true).crossedReq r)).pin r.who := by
  simp only [pinning, Fabric.openReq, Fabric.putReq, Fabric.core_modCore, Fabric.core_modUnits, Fabric.fresh]

theorem pinning_core_other (f : Fabric) (g : Core → Core) (r r' : Req) {d : Nat} (h : d ≠ r.who.core) :
    (pinning f g r r').core d = f.core d := by
  simp only [pinning, Fabric.openReq, Fabric.putReq, Fabric.core_modCore_other _ _ h, Fabric.core_modUnits, Fabric.fresh]

/-- The new request stands last among the requests, under a number of its own. -/
theorem pinning_units {f : Fabric} (g : Core → Core) {r r' : Req} (hn : ∀ q ∈ f.units.reqs, q.id ≠ r'.id) (hr : r.id = r'.id) :
    (pinning f g r r').units = { f.units with nextId := f.units.nextId + 1, reqs := f.units.reqs ++ [r'] } := by
  have hreqs : (f.units.reqs ++ [r]).map (fun x => if x.id = r'.id then r' else x) = f.units.reqs ++ [r'] := by
    rw [List.map_append, List.map_singleton, if_pos hr]
    congr 1
    refine (List.map_congr_left fun q hq => ?_).trans (List.map_id _)
    exact if_neg (hn q hq)
  rw [← hreqs]
  rfl

/-- What holds of the ten atomics holds of every atomic. -/
theorem isAtomicOp_elim {P : Instr → Prop} {i : Instr} (h : isAtomicOp i = true)
    (hp : ∀ m, P (.atadd m) ∧ P (.atfadd m) ∧ P (.atmin m) ∧ P (.atmax m) ∧ P (.atfmax m) ∧ P (.atand m) ∧ P (.ator m) ∧
      P (.atxor m) ∧ P (.atxch m) ∧ P (.atcas m)) : P i := by
  revert h
  cases i
  case atadd m | atfadd m | atmin m | atmax m | atfmax m | atand m | ator m | atxor m | atxch m | atcas m =>
    obtain ⟨h1, h2, h3, h4, h5, h6, h7, h8, h9, h10⟩ := hp m
    exact fun _ => by assumption
  all_goals exact of_false_eq_true

theorem isAtomic_of_isAtomicOp {i : Instr} (h : isAtomicOp i = true) : isAtomic i = true :=
  isAtomicOp_elim (P := fun i => isAtomic i = true) h fun _ => ⟨rfl, rfl, rfl, rfl, rfl, rfl, rfl, rfl, rfl, rfl⟩

/-- An atomic with a target is an eager atomic. -/
theorem isEager_of_isEagerOp {i : Instr} (h : isEagerOp i = true) : isAtomic i = true ∧ isEager i = true := by
  obtain ⟨ha, ht⟩ := Bool.and_eq_true_iff.mp h
  exact ⟨isAtomic_of_isAtomicOp ha, Bool.and_eq_true_iff.mpr ⟨isAtomic_of_isAtomicOp ha, ht⟩⟩

/-- The lanes of an atomic have no translation yet when it issues. -/
theorem lanesNow_atomic {x : Issue} (h : isEagerOp x.i = true) (f : Fabric) : ∀ l ∈ x.lanesNow f, l.pa = none :=
  lanesNow_fresh (isAtomicOp_elim (P := fun i => ∀ a b c, ∀ l ∈ memLanes i a b c, l.pa = none) (Bool.and_eq_true_iff.mp h).1 fun m =>
    ⟨formLanes_fresh m, formLanes_fresh m, formLanes_fresh m, formLanes_fresh m, formLanes_fresh m, formLanes_fresh m,
      formLanes_fresh m, formLanes_fresh m, formLanes_fresh m, formLanes_fresh m⟩) f

/-- The kind of an atomic's request (R187, R188). -/
theorem reqKind_of_isAtomicOp {i : Instr} (h : isAtomicOp i = true) : reqKind i = if isEager i then .eager else .deferred := by
  have hk : reqKind i = if isAtomic i then (if isEager i then .eager else .deferred) else .store :=
    isAtomicOp_elim (P := fun i => reqKind i = if isAtomic i then (if isEager i then .eager else .deferred) else .store)
      h fun _ => ⟨rfl, rfl, rfl, rfl, rfl, rfl, rfl, rfl, rfl, rfl⟩
  rw [hk, if_pos (isAtomic_of_isAtomicOp h)]

theorem reqKind_eager {i : Instr} (h : isEagerOp i = true) : reqKind i = .eager := by
  rw [reqKind_of_isAtomicOp (Bool.and_eq_true_iff.mp h).1, if_pos (isEager_of_isEagerOp h).2]

/-- An eager atomic that issues is issued as one. -/
theorem exec_eager {i : Instr} {x : Issue} {s : State} {e : Exec} {b : Block} (he : isEagerOp i = true)
    (hi : Issues s x.who x.slot i e b) (hx : x = gather x.who x.slot i e) :
    exec i s = .next (s.onFabric fun f => f.eagerIssue x) := by
  have h : exec i s = atomicStep i s :=
    isAtomicOp_elim (P := fun i => exec i s = atomicStep i s) (Bool.and_eq_true_iff.mp he).1 fun _ =>
      ⟨rfl, rfl, rfl, rfl, rfl, rfl, rfl, rfl, rfl, rfl⟩
  rw [h, atomicStep, issueStep_offered hi.acting hi.running hi.issuing hi.offered hi.live hi.block hi.free hi.ordered, ← hx,
    if_pos (isEager_of_isEagerOp he).2]
  rfl

theorem Core.tlb_modExec (k : Core) (who : Agent) (g : Exec → Exec) : (k.modExec who g).tlb = k.tlb := by
  cases who <;> rfl

theorem Core.group_modExec (k : Core) (who : Agent) (g : Exec → Exec) : (k.modExec who g).group = k.group := by
  cases who <;> rfl

/-- A request opened leaves the translation cache and the group lit. -/
theorem openReq_tlb_group (f : Fabric) (r : Req) : ((f.openReq r).core r.who.core).tlb = (f.core r.who.core).tlb ∧
    ((f.openReq r).core r.who.core).group = (f.core r.who.core).group := by
  simp only [Fabric.openReq, Fabric.core_modCore, Fabric.core_modUnits]
  generalize hk : (f.core r.who.core).modExec r.who _ = k
  obtain ⟨n, hn⟩ := k.countReq_counts r.who r.kind true
  obtain ⟨p, hp⟩ := Core.crossedReq_prof { k with counts := n } r
  rw [hn, hp, ← hk]
  exact ⟨Core.tlb_modExec .., Core.group_modExec ..⟩

/-- The cache, the context and the pages in transit are as they were when a request has opened. -/
theorem checkLane_openReq (f : Fabric) (x : Issue) (id : Nat) (ls : List ReqLane) (e : Exec) (i : Instr) (l : ReqLane) :
    (f.fresh.2.openReq (x.request id ls)).checkLane x.who e i l = f.checkLane x.who e i l := by
  obtain ⟨ht, hg⟩ := openReq_tlb_group f.fresh.2 (x.request id ls)
  have hg' : ((f.fresh.2.openReq (x.request id ls)).core x.who.core).group = (f.core x.who.core).group := hg
  refine Fabric.checkLane_congr (f := f) (g := f.fresh.2.openReq (x.request id ls)) (who := x.who) ht ?_ rfl e i l
  unfold Core.contextId
  rw [hg']

/-- The request of an eager atomic with its lanes translated, in the order in which they are taken (R188). -/
def eagerRequest (f : Fabric) (x : Issue) : Req :=
  { x.request f.units.nextId (x.lanesNow f) with
    lanes := sortLanes ((x.lanesNow f).map
      ((f.fresh.2.openReq (x.request f.units.nextId (x.lanesNow f))).eagerLane x.who x.exec x.i)) }

/-- An eager atomic that issues for the first time with its pages known opens its request and pins (R188). -/
theorem eagerIssue_pins {f : Fabric} {x : Issue} (he : isEagerOp x.i = true) (hn : f.reqOf x.exec.id x.slot = none)
    (h : LanesHeld f x) :
    ∃ now, f.eagerIssue x = pinning f (fun k => k.countLanes true (x.lanesNow f) now) (x.request f.units.nextId (x.lanesNow f))
      (eagerRequest f x) := by
  unfold Fabric.eagerIssue
  rw [hn]
  dsimp only
  rw [Fabric.eagerRefused_none h]
  dsimp only
  refine ⟨_, Fabric.eagerAdvance_issues (r := x.request f.units.nextId (x.lanesNow f)) (lanesNow_atomic he f) fun l hl => ?_⟩
  obtain ⟨pa, cls, page, hok⟩ := h l hl
  exact ⟨pa, cls, page, (checkLane_openReq ..).trans hok⟩

theorem eagerRequest_keys (f : Fabric) (x : Issue) : ((eagerRequest f x).lanes.map laneKey).Perm (asked x) := by
  refine ((sortLanes_perm _).map laneKey).trans (.of_eq ?_)
  rw [List.map_map, ← lanesNow_keys x f]
  exact List.map_congr_left fun l _ => Fabric.laneKey_eagerLane ..

/-- No lane of it waits for a walk. -/
theorem eagerRequest_translated {f : Fabric} {x : Issue} (he : isEagerOp x.i = true) (h : LanesHeld f x) :
    ((eagerRequest f x).lanes.any fun l => l.pa.isNone && !l.bad) = false := by
  rw [List.any_eq_false]
  intro l hl
  obtain ⟨m, hm, rfl⟩ := List.mem_map.mp ((sortLanes_perm _).mem_iff.mp hl)
  obtain ⟨pa, cls, page, hok⟩ := h m hm
  have ht := Fabric.eagerLane_ok (lanesNow_atomic he f m hm) ⟨pa, cls, page, (checkLane_openReq (id := f.units.nextId)
    (ls := x.lanesNow f) ..).trans hok⟩
  simp [Option.isSome_iff_ne_none.mp ht.1]

/-- An eager atomic counted raises ST of a sequencer (R52). -/
theorem countReq_eager (k : Core) (c : Nat) : (k.countReq (.seq c) .eager true).counts.st = k.counts.st + 1 := rfl

/-- Settles O14: no lane is refused when it opens, nor when it is taken on, so it issues and pins. -/
theorem eagerAtomicsComplete : Obligations.EagerAtomicsComplete := by
  intro i x he s e b hi hx hheld hnone hids
  have hxi : x.i = i := by rw [hx]; rfl
  have hxe : x.exec = e := by rw [hx]; rfl
  have hkind : reqKind x.i = .eager := by rw [hxi, reqKind_eager he]
  obtain ⟨now, hnow⟩ := eagerIssue_pins (hxi ▸ he) (by rw [hxe, hnone]) hheld
  rw [exec_eager he hi hx, State.onFabric, hnow]
  have hcore : (pinning s.fab (fun k => k.countLanes true (x.lanesNow s.fab) now) (x.request s.fab.units.nextId (x.lanesNow s.fab))
        (eagerRequest s.fab x)).core x.who.core =
      (((((s.fab.core x.who.core).modExec x.who fun e => { e with
          inflight := x.slot :: e.inflight, acted := e.acted || (Agent.isBlock x.who && (reqKind x.i).isLoad) }).countReq x.who
        (reqKind x.i) true).crossedReq (x.request s.fab.units.nextId (x.lanesNow s.fab))).countLanes true (x.lanesNow s.fab) now).pin
        x.who := pinning_core ..
  have hrun := hi.running
  refine ⟨_, eagerRequest s.fab x, rfl, ⟨?_, rfl, rfl, rfl, rfl, rfl, rfl, eagerRequest_keys .., rfl,
    fun d hd => pinning_core_other _ _ _ _ hd⟩, fun c a hc => ?_, fun c hc => ?_⟩
  · rw [walksWith, eagerRequest_translated (hxi ▸ he) hheld]
    exact pinning_units _ hids rfl
  · rw [hc] at hcore hrun ⊢
    dsimp only [Agent.core] at hcore hrun
    rw [hcore, Core.pin_actor]
    have hexec : ((((((s.fab.core c).modExec (.actor c a) fun e => { e with
          inflight := x.slot :: e.inflight, acted := e.acted || (Agent.isBlock (.actor c a) && (reqKind x.i).isLoad) }).countReq
        (.actor c a) (reqKind x.i) true).crossedReq (x.request s.fab.units.nextId (x.lanesNow s.fab))).countLanes true
          (x.lanesNow s.fab) now)).exec (.actor c a) = some { e with inflight := x.slot :: e.inflight } := by
      simp [hrun, Agent.isBlock]
    exact ⟨Core.isPinned_pinned (Core.firing_of_exec hexec) (Core.mem_mates _ a), (Core.exec_pinned ..).trans hexec⟩
  · rw [hc] at hcore hrun ⊢
    dsimp only [Agent.core] at hcore hrun
    rw [hcore, hkind]
    simp [Core.pin, hrun, countReq_eager]

end Sys2Proof.Proofs

/-! ### Scalar results -/

namespace Sys2Proof.Proofs

open Sys2Proof.Machine Sys2Proof.Claims

/-- A result zero past the elements that its instruction forms. -/
def ZeroBeyond (f : DFields) (r : Row × Fpx) : Prop := ∀ e, laneCount f.ty f.mod ≤ e → elem (tyBits f.ty) r.1 e = 0

theorem zeroBeyond_of_lanesI {m f : DFields} {g : Nat → Nat} {r : Row × Fpx} (hr : some (lanesI m.ty m.mod g) = some r)
    (hf : some (Fields.d m) = some (Fields.d f)) : ZeroBeyond f r := by
  cases hr; cases hf
  exact fun _ h => lanesI_beyond g h

theorem zeroBeyond_of_lanes {m f : DFields} {g : Nat → Nat × Fpx} {r : Row × Fpx} (hr : some (lanes m.ty m.mod g) = some r)
    (hf : some (Fields.d m) = some (Fields.d f)) : ZeroBeyond f r := by
  cases hr; cases hf
  exact fun _ h => lanes_beyond g h

/-- The instructions of lane structure take no width bit (R158, R159). -/
theorem shapeIn_laneStructure {i : Instr} {op : Nat} (ho : opcodeOf i = some op) (hl : 0x140 ≤ op) (hh : op ≤ 0x148) :
    (shapeIn i).mods / 8 % 2 ≠ 1 := by
  rw [shapeIn, ho]
  dsimp only
  interval_cases op <;> decide

/-- The instructions of the compute chapter that take the width bit form their results element by element (R13). -/
theorem resultOf_zeroBeyond {i : Instr} {x : Issue} {r : Row × Fpx} {f : DFields} (hr : resultOf i x = some r)
    (hf : fieldsOf i = some (.d f)) (hm : (shapeIn i).mods / 8 % 2 = 1) : ZeroBeyond f r := by
  revert hr hf hm
  cases i
  case add | sub | mul | mulh | mad | quo | rem | neg | abs | min | max | clamp | adds | subs | dot4 | and | or | xor | andn | not
      | shl | shr | sra | rotl | clz | popc | bfx | bfi | cmpeq | cmpne | cmplt | cmple | sel | mov | movi | movh =>
    exact fun hr hf _ => zeroBeyond_of_lanesI hr hf
  case fadd | fsub | fmul | fma | fnma | fmin | fmax | fabs | fneg | fcmpeq | fcmplt | fcmple | fcmpun | fclass | fscale | fdiv
      | frcp | frsq | fsqrt | fexp2 | flog2 | fsig | ftanh | cvt | cvts | pack | unpk =>
    exact fun hr hf _ => zeroBeyond_of_lanes hr hf
  case bcast | shuf | rotx | lane | insl | redadd | redmax | redmin | scan =>
    exact fun _ _ hm => absurd hm (shapeIn_laneStructure rfl (by decide) (by decide))
  case lit => exact fun _ hf => nomatch hf
  all_goals exact of_none_eq_some

/-- Settles O7: under V an instruction forms element 0 alone. -/
theorem scalarWritesZero : Obligations.ScalarWritesZero := by
  intro i x r f hr hf hm hv e he
  refine resultOf_zeroBeyond hr hf hm e ?_
  rw [laneCount, vOf, hv]
  exact he

end Sys2Proof.Proofs

/-! ### Integer elements -/

namespace Sys2Proof.Proofs

open Sys2Proof.Machine Sys2Proof.Claims

/-- Table 2-1's ranges are those of two's complement and of unsigned numbers. -/
theorem rangeOf_eq {ty : BitVec 4} (h : ty.toNat < 8) :
    rangeOf ty = (intMin (tySigned ty) (tyBits ty), intMax (tySigned ty) (tyBits ty)) := by
  revert ty
  decide

/-- An element's value is its integer reading (R53). -/
theorem valueOf_eq {ty : BitVec 4} (h : ty.toNat < 8) (t : Row) (e : Nat) : valueOf ty t e = intOf ty (elem (tyBits ty) t e) := by
  have hlt : ((elem (tyBits ty) t e : Nat) : Int) < 2 ^ tyBits ty := by exact_mod_cast elem_lt (tyBits ty) t e
  have hmod : elem (tyBits ty) t e % 2 ^ tyBits ty = elem (tyBits ty) t e := Nat.mod_eq_of_lt (elem_lt ..)
  have hcast : ((2 ^ (tyBits ty - 1) : Nat) : Int) = 2 ^ (tyBits ty - 1) := by push_cast; rfl
  rw [valueOf, rangeOf_eq h, intOf]
  cases tySigned ty with
  | false =>
    rw [if_neg Bool.false_ne_true]
    exact if_neg (not_lt.mpr (Int.le_sub_one_of_lt hlt))
  | true =>
    have hiff : (2 ^ (tyBits ty - 1) - 1 : Int) < (elem (tyBits ty) t e : Nat) ↔ 2 ^ (tyBits ty - 1) ≤ elem (tyBits ty) t e := by
      omega
    simp only [signedOf, hmod, intMax, if_true, hiff]

/-- A limit is a saturation to the type's range (R54). -/
theorem within_range {ty : BitVec 4} (h : ty.toNat < 8) (x : Int) :
    within (rangeOf ty).1 (rangeOf ty).2 x = clampInt (tySigned ty) (tyBits ty) x := by
  have hle : (rangeOf ty).1 ≤ (rangeOf ty).2 := by revert ty; decide
  rw [rangeOf_eq h] at hle ⊢
  dsimp only at hle ⊢
  unfold within clampInt
  split
  · rw [max_eq_right (by omega), min_eq_left hle]
  · split
    · rw [max_eq_left (by omega), min_eq_right (by omega)]
    · rw [max_eq_left (by omega), min_eq_left (by omega)]

/-- What an integer instruction writes of an exact result (R54, R132). -/
theorem intOut_eq {ty : BitVec 4} (h : ty.toNat < 8) (sat : Bool) (x : Int) :
    intOut ty sat x = lowBits (tyBits ty) (if sat then within (rangeOf ty).1 (rangeOf ty).2 x else x) := by
  rw [within_range h]; rfl

/-- All ones is the low bits of −1 in either reading (R54). -/
theorem lowBits_ones {ty : BitVec 4} (h : ty.toNat < 8) :
    lowBits (tyBits ty) (intOf ty (ones (tyBits ty))) = lowBits (tyBits ty) (-1) := by
  revert ty
  decide

/-- An element-wise result has the elements it is formed from. -/
theorem elements_lanesI {f : DFields} {g h : Nat → Nat} (hg : ∀ e, g e = h e) : Elements f (lanesI f.ty f.mod g) h :=
  ⟨rfl, fun e he => by rw [lanesI_elem g he, hg], fun _ he => lanesI_beyond g he⟩

/-- An integer instruction has the elements of its exact results, limited and reduced. -/
theorem elements_intOut {f : DFields} (hty : f.ty.toNat < 8) {sat : Bool} {y z : Nat → Int} (h : ∀ e, y e = z e) :
    Elements f (lanesI f.ty f.mod fun e => intOut f.ty sat (y e)) fun e =>
      lowBits (tyBits f.ty) (if sat then within (rangeOf f.ty).1 (rangeOf f.ty).2 (z e) else z e) :=
  elements_lanesI fun e => by rw [intOut_eq hty, h]

theorem natAbs_eq_ite (a : Int) : (a.natAbs : Int) = if a < 0 then -a else a := by split <;> omega

theorem remInt_eq (a b : Int) : remInt a b = if b = 0 then a else a - b * Int.tdiv a b := by
  rw [remInt, Int.tmod_def]

/-- A quotient by zero is all ones (R54). -/
theorem lowBits_quoInt {ty : BitVec 4} (h : ty.toNat < 8) (a b : Int) :
    intOut ty false (quoInt ty a b) = lowBits (tyBits ty) (if b = 0 then -1 else Int.tdiv a b) := by
  rw [intOut_eq h, if_neg Bool.false_ne_true, quoInt]
  split
  · exact lowBits_ones h
  · rfl

theorem integerElements : IntegerElements := by
  intro i x r f hr hf hty
  have hv (t : Row) (e : Nat) := (valueOf_eq hty t e).symm
  revert hr; revert hf
  cases i
  case add g | sub g | mul g | mulh g | mad g | neg g | clamp g | adds g | subs g =>
    intro hf hr
    obtain rfl : g = f := Option.some.inj hf
    cases hr
    exact elements_intOut hty fun e => by simp only [hv]
  case min g | max g =>
    intro hf hr
    obtain rfl : g = f := Option.some.inj hf
    cases hr
    exact elements_intOut hty fun e => by simp only [hv]; rfl
  case abs g =>
    intro hf hr
    obtain rfl : g = f := Option.some.inj hf
    cases hr
    exact elements_intOut hty fun e => by simp only [hv, natAbs_eq_ite]
  case rem g =>
    intro hf hr
    obtain rfl : g = f := Option.some.inj hf
    cases hr
    exact elements_intOut hty fun e => by simp only [hv, remInt_eq]
  case quo g =>
    intro hf hr
    obtain rfl : g = f := Option.some.inj hf
    cases hr
    exact elements_lanesI fun e => by simp only [hv, lowBits_quoInt hty]; rfl
  all_goals exact of_none_eq_some

/-! ### Compares -/

/-- An integer compare has all ones where its relation holds of the values (R139). -/
theorem elements_intCmp {rel : Int → Int → Bool} {f : DFields} (hty : f.ty.toNat < 8) (a b : Row) :
    Elements f (intCmp rel f a b) fun e => if rel (valueOf f.ty a e) (valueOf f.ty b e) then 2 ^ tyBits f.ty - 1 else 0 :=
  elements_lanesI fun e => by rw [valueOf_eq hty, valueOf_eq hty]; rfl

theorem comparesWriteOnes : ComparesWriteOnes := by
  intro f a b hty
  refine ⟨?_, ?_, ?_, ?_⟩
  · simpa [aluCmpeq] using elements_intCmp (rel := fun a b => a = b) hty a b
  · simpa [aluCmpne] using elements_intCmp (rel := fun a b => a ≠ b) hty a b
  · simpa [aluCmplt] using elements_intCmp (rel := fun a b => a < b) hty a b
  · simpa [aluCmple] using elements_intCmp (rel := fun a b => a ≤ b) hty a b

/-- Settles O2: values are integer readings, limits are saturations, and reductions are wraps. -/
theorem integerAndCompareElements : Obligations.IntegerAndCompareElements := ⟨integerElements, comparesWriteOnes⟩

end Sys2Proof.Proofs

/-! ### Configuration items -/

namespace Sys2Proof.Machine

/-- A list of conditions gives no code when none holds. -/
theorem failing_eq_nil {l : List (Bool × Nat)} : failing l = [] ↔ ∀ p ∈ l, p.1 = false := by
  rw [failing, List.filterMap_eq_nil_iff]
  refine forall₂_congr fun p _ => ?_
  cases p.1 <;> simp

end Sys2Proof.Machine

namespace Sys2Proof.Proofs

open Sys2Proof.Machine Sys2Proof.Claims

/-- A configuration instruction whose item meets no check enters it in the plane to which it applies (R209, R210). -/
theorem configure_enters {x : Issue} {m : CFields} {t : Item} {f : Fabric} {p : Plane} {g : Plane → Plane} (hp : Configures f x p)
    (hs : t.static = []) (hi : t.inPlane p = []) (hg : t.enter p = g p) : configure x m t f = itemEntered x f g := by
  obtain ⟨hplane, hapart⟩ := hp
  have htarget : (f.core x.who.core).target x.who = p := hplane.symm
  have hset : f.modCore x.who.core (fun k => k.setTarget x.who (t.enter p)) = f.modCore x.who.core fun k =>
      match x.who, (f.core x.who.core).kindling with
      | .seq _, .empty => { k with kindling := .program, kplane := g (f.core x.who.core).plane }
      | _, _ => { k with kplane := g (f.core x.who.core).kplane } := by
    refine Fabric.modCore_congr ?_
    rw [hg, hplane]
    unfold Core.setTarget
    generalize (f.core x.who.core).kindling = q
    cases x.who <;> cases q <;> rfl
  unfold configure
  extract_lets -merge k busy q codes
  have hbusy : busy = false := by
    dsimp only [busy]
    split
    · rename_i c hc
      have hk := hapart c hc
      simp [k, hc, Agent.core, hk]
    · rfl
  have hq : q = p := htarget
  have hcodes : codes = [] := by simp [codes, hbusy, hs, hq, hi]
  rw [hcodes, hq, hset]
  rfl

theorem windowItemsEnter : WindowItemsEnter := by
  refine ⟨fun m => does_of_issueStep (fun _ => rfl) ?_, fun m c base => does_of_issueStep (fun _ => rfl) ?_⟩
  · rintro x f ⟨p, hp, harg, hb, hc1, hc2, hi1, hi2, ⟨hbey, hxb⟩, ho, hk1, hk2, hn⟩
    simp only [argA] at *
    refine configure_enters hp ?_ ?_ rfl
    · simp [failing_eq_nil, harg, hi1, hi2, hbey, hxb]
      omega
    · simp [failing_eq_nil, ho, hk1, hk2]
      exact fun a b hab => hn (a, b) hab
  · rintro x f ⟨p, hp, harg, hw, hc1, hc2, hbase, ⟨hbey, hxb⟩, ho⟩
    simp only [argA] at *
    have hb : (if elem 32 x.a 1 = 0xFFFFFFFF then (match sfind p.wins m.obj.toNat with | some c => c.base | none => 0)
        else elem 32 x.a 1) = base := by
      rcases hbase with ⟨h, rfl⟩ | ⟨h, rfl⟩
      · rw [if_pos h, hw]
      · exact if_neg (by omega)
    refine configure_enters hp ?_ ?_ ?_
    · simp [failing_eq_nil, harg, hbey, hxb]
      omega
    · simp only [hw] at hb ⊢
      simp [failing_eq_nil, hb, ho, hc1]
    · simp only [hw] at hb ⊢
      simp only [hb]

theorem portItemsEnter : PortItemsEnter := by
  refine ⟨fun m c => does_of_issueStep (fun _ => rfl) ?_, fun m => does_of_issueStep (fun _ => rfl) ?_⟩
  · rintro x f ⟨p, hp, hcirc, hpe, hrows, hbase, ⟨hbey, hxb⟩, hw, hneed, hheld, hbind⟩
    simp only [argA, portOfItem, portActor] at *
    refine configure_enters hp ?_ ?_ ?_
    · simp [failing_eq_nil, hcirc, hrows, hbase, hbey, hxb]
      omega
    · simp [failing_eq_nil, hcirc, hw, hneed, hheld, hpe, hbind]
    · simp [hcirc]
  · rintro x f ⟨p, hp, hcirc, hpe, hr1, hr16, hbase, hneed, ⟨hbey, hxb⟩, ho, hheld, hown, hlog, hbind⟩
    simp only [argA, portOfItem, portActor] at *
    refine configure_enters hp ?_ ?_ ?_
    · simp [failing_eq_nil, hcirc, hbey, hxb]
      omega
    · simp [failing_eq_nil, hcirc, ho, hheld, hpe, hbind]
      exact ⟨fun a b hab hne hw => hne (hown (a, b) hab hw), fun h => hlog.resolve_left (by simp [h])⟩
    · simp [hcirc]

theorem actorItemsEnter : ActorItemsEnter := by
  refine ⟨fun m b => does_of_issueStep (fun _ => rfl) ?_, fun m => does_of_issueStep (fun _ => rfl) ?_⟩
  · rintro x f ⟨p, hp, hb, hv, harg, hpos, hlink, ⟨hbey, hxb⟩, hq, hbind⟩
    simp only [argA, namedActor, actorItem] at *
    simp only [hb, hv]
    refine configure_enters hp ?_ ?_ rfl
    · simp [failing_eq_nil, harg, hbey, hxb]
      omega
    · simp [failing_eq_nil]
      refine ⟨⟨fun hne a b hab hna hpe => ?_, fun a b hab hna hpe => (hq (a, b) hab hna hpe).2⟩, hbind⟩
      exact (hq (a, b) hab hna hpe).1.resolve_left (by simp [hne])
  · rintro x f ⟨p, hp, harg⟩
    exact configure_enters hp (by simp [failing_eq_nil, harg]) rfl rfl

theorem routeItemsEnter : RouteItemsEnter := by
  refine ⟨fun m c => does_of_issueStep (fun _ => rfl) ?_, fun m => does_of_issueStep (fun _ => rfl) ?_⟩
  · rintro x f ⟨p, hp, harg, hres, ⟨hbey, hxb⟩, hdepth, hkind, hinp, hw, hland, hport, hlog, hkey, hfree⟩
    simp only [argA, endKey, endItem] at *
    refine configure_enters hp ?_ ?_ rfl
    · simp [failing_eq_nil, harg, hres, hbey, hxb, hkind, hinp]
      split at hdepth
      · simp [*]
      · simp [*]; omega
    · simp [failing_eq_nil, hkind, hw, hland, hport]
      refine ⟨hlog, ?_, fun a b hab hne hk ho hi => ?_⟩
      · split
        · rename_i o hs
          obtain ⟨h1, h2, h3⟩ := hkey o hs
          simp [h1, h2, h3, hkind, hinp]
        · rfl
      · exact hfree (a, b) hab hne ⟨hk.trans hkind.symm, ho, hi⟩
  · rintro x f ⟨p, hp, harg, hres, ⟨hbey, hxb⟩, hdepth, hkind, hobj, hinp, hoper, hkey, hfree⟩
    simp only [argA, endKey, endItem] at *
    refine configure_enters hp ?_ ?_ rfl
    · cases hb : bitOf m.arg.toNat 0
      · simp only [hb] at hdepth
        simp [failing_eq_nil, harg, hres, hbey, hxb, hkind, hb]
        simpa [Nat.one_le_iff_ne_zero] using hdepth
      · simp only [hb] at hdepth
        simpa [failing_eq_nil, harg, hres, hbey, hxb, hkind, hobj, hinp, hb] using hdepth
    · have hne : field (elem 32 x.a 0) 31 30 ≠ 0 := by rw [hkind]; split <;> simp
      have hinbound : decide (field (elem 32 x.a 0) 31 30 = 1) = bitOf m.arg.toNat 0 := by
        rw [hkind]; cases bitOf m.arg.toNat 0 <;> rfl
      simp [failing_eq_nil, hne, hobj, hinp, hinbound]
      refine ⟨?_, ?_, fun a b hab hne hk ho hi => hfree (a, b) hab hne ⟨hk, ho, hi⟩⟩
      · split
        · rename_i o hs
          have hroom := hoper o hs
          cases hb : bitOf m.arg.toNat 0 <;> simp [hb] at hinbound hroom <;> simp [hinbound, hroom]
        · rfl
      · split
        · rename_i o hs
          simp [hkey o hs]
        · rfl

theorem operatorItemsEnter : OperatorItemsEnter := by
  refine ⟨fun m => does_of_issueStep (fun _ => rfl) ?_, fun m => does_of_issueStep (fun _ => rfl) ?_,
    fun m => does_of_issueStep (fun _ => rfl) ?_, fun m => does_of_issueStep (fun _ => rfl) ?_,
    fun m => does_of_issueStep (fun _ => rfl) ?_, fun m => does_of_issueStep (fun _ => rfl) ?_,
    fun m => does_of_issueStep (fun _ => rfl) ?_⟩
  · rintro x f ⟨p, hp, hobj, harg, ha, hb⟩
    exact configure_enters hp (by simp [operItem, failing_eq_nil, hobj, harg, ha, hb]) rfl rfl
  · rintro x f ⟨p, hp, hobj, harg, hs, hbey, hb⟩
    simp only [argA] at *
    exact configure_enters hp (by simp [operItem, failing_eq_nil, hobj, harg, hs, hbey, hb]) rfl rfl
  · rintro x f ⟨p, hp, hobj, harg, ha, hb⟩
    exact configure_enters hp (by simp [operItem, failing_eq_nil, hobj, harg, ha, hb]) rfl rfl
  · rintro x f ⟨p, hp, hobj, harg, ha, hb⟩
    exact configure_enters hp (by simp [operItem, failing_eq_nil, hobj, harg, ha, hb]) rfl rfl
  · rintro x f ⟨p, hp, hobj, harg, hl1, hl4, hi1, hi255, hbey, hbeyb, hstep, hfed⟩
    simp only [argA] at *
    refine configure_enters hp ?_ ?_ rfl
    · simp [operItem, failing_eq_nil, hobj, harg, hbey, hbeyb]
      exact ⟨by omega, hstep⟩
    · simp [failing_eq_nil]
      intro hf
      have hd := hfed hf
      omega
  · rintro x f ⟨p, hp, hobj, harg, hlvl, hi1, hi255, hbey, hb⟩
    simp only [argA] at *
    refine configure_enters hp ?_ rfl rfl
    simp [operItem, failing_eq_nil, hobj, harg, hbey, hb]
    omega
  · rintro x f ⟨p, hp, hobj, harg, ha, hb⟩
    exact configure_enters hp (by simp [operItem, failing_eq_nil, hobj, harg, ha, hb]) rfl rfl

theorem modeItemsEnter : ModeItemsEnter := by
  refine ⟨fun m => does_of_issueStep (fun _ => rfl) ?_, fun m => does_of_issueStep (fun _ => rfl) ?_,
    fun m => does_of_issueStep (fun _ => rfl) ?_, fun m => does_of_issueStep (fun _ => rfl) ?_,
    fun m => does_of_issueStep (fun _ => rfl) ?_, fun m => does_of_issueStep (fun _ => rfl) ?_⟩
  · rintro x f ⟨p, hp, harg, hobj, ⟨hbey, hb⟩, hside⟩
    simp only [argA] at *
    refine configure_enters hp ?_ ?_ ?_
    · simp [failing_eq_nil, harg, hobj, hside, hbey, hb]
    · simp [failing_eq_nil, hside, inRect]
    · simp [hside]
  · rintro x f ⟨p, hp, harg, hobj, ⟨hbey, hb⟩, h2, h3, hw, hh, hrect⟩
    simp only [argA] at *
    refine configure_enters hp ?_ ?_ ?_
    · simp [failing_eq_nil, harg, hobj, h2, h3, hw, hh, hbey, hb]
    · simp [failing_eq_nil, h2, h3]
      exact fun _ a b hab => hrect (a, b) hab
    · simp [h2, h3]
  · rintro x f ⟨p, hp, hobj, hw, hbey, hb⟩
    simp only [argA] at *
    refine configure_enters hp ?_ ?_ ?_
    · simp [failing_eq_nil, hobj, hw, hbey, hb]
    · simp [hw]
    · simp [hw]
  · rintro x f ⟨p, hp, hobj, hw, ⟨hbey, hb⟩, hwin, hheld⟩
    simp only [argA] at *
    have hne : elem 32 x.a 0 ≠ 0xFFFFFFFF := by omega
    refine configure_enters hp ?_ ?_ ?_
    · simp [failing_eq_nil, hobj, hw, hbey, hb]
    · simp [failing_eq_nil, hne, hwin]
      exact hheld
    · simp [hne]
  · rintro x f ⟨p, hp, hobj, h1, h1024, hbey, hb⟩
    simp only [argA] at *
    refine configure_enters hp ?_ rfl rfl
    simp [failing_eq_nil, hobj, hbey, hb]
    omega
  · rintro x f ⟨p, hp, hobj, harg, hres, hbad⟩
    exact configure_enters hp (by simp [failing_eq_nil, hobj, harg, hres, hbad]) rfl rfl

/-- Settles O60: the checks of each item hold, so it enters. -/
theorem eachConfigurationItemEnters : Obligations.EachConfigurationItemEnters :=
  ⟨windowItemsEnter, portItemsEnter, actorItemsEnter, routeItemsEnter, operatorItemsEnter, modeItemsEnter⟩

end Sys2Proof.Proofs

/-! ### What an instruction of a block leaves -/

namespace Sys2Proof.Machine

/-- A tier miss noted changes the misses and the tier's event alone (R299). -/
theorem Core.tierMiss_eq (k : Core) (page : Nat) (d : Bool) (src : MissSrc) :
    ∃ ms ws ev, k.tierMiss page d src = { k with misses := ms, missWait := ws, eng := { k.eng with tierEv := ev } } := by
  unfold Core.tierMiss
  dsimp only
  split
  · exact ⟨_, k.missWait, _, rfl⟩
  · split
    · exact ⟨_, k.missWait, _, rfl⟩
    · exact ⟨k.misses, _, k.eng.tierEv, rfl⟩

end Sys2Proof.Machine

namespace Sys2Proof.Proofs

open Sys2Proof.Machine Sys2Proof.Claims

/-- What an instruction of an agent's block leaves of the agent's core before the firing commits or the block ends (R21, R39). -/
def KeptBy (who : Agent) (k l : Core) : Prop :=
  match who with
  | .actor _ _ => keptCore l = keptCore k ∧ ∀ b, keptActor (l.actor b) = keptActor (k.actor b)
  | .seq _ => keptSequencer l = keptSequencer k
  | .bind _ => True

/-- What it leaves of the fabric: every other core, what it leaves of its own, the units and the regions. -/
structure Frame (who : Agent) (f g : Fabric) : Prop where
  others : ∀ d, d ≠ who.core → g.core d = f.core d
  own : KeptBy who (f.core who.core) (g.core who.core)
  units : keptUnits g.units = keptUnits f.units
  regions : ∀ r, keptRegion (g.region r) = keptRegion (f.region r)

/-! #### Of the core -/

theorem KeptBy.refl (who : Agent) (k : Core) : KeptBy who k k := by
  cases who with
  | actor => exact ⟨rfl, fun _ => rfl⟩
  | seq => exact rfl
  | bind => trivial

theorem KeptBy.trans {who : Agent} {k l m : Core} (h : KeptBy who k l) (h' : KeptBy who l m) : KeptBy who k m := by
  cases who with
  | actor => exact ⟨h'.1.trans h.1, fun b => (h'.2 b).trans (h.2 b)⟩
  | seq => exact Eq.trans h' h
  | bind => trivial

/-- A change of the core that is no actor's and that both blocks may make. -/
theorem KeptBy.of_parts {who : Agent} {k l : Core} (ha : l.actors = k.actors) (hc : keptCore l = keptCore k)
    (hs : keptSequencer l = keptSequencer k) : KeptBy who k l := by
  cases who with
  | actor => exact ⟨hc, fun b => by rw [Core.actor, Core.actor, ha]⟩
  | seq => exact hs
  | bind => trivial

/-- A change of an actor's firing and of what holds it back. -/
theorem keptBy_modActor {c a : Nat} {k : Core} (m : Nat) {g : Actor → Actor} (hg : ∀ x, keptActor (g x) = keptActor x) :
    KeptBy (.actor c a) k (k.modActor m g) := by
  refine ⟨rfl, fun b => ?_⟩
  by_cases h : b = m
  · rw [h, Core.actor_modActor, hg]
  · rw [Core.actor_modActor_other _ _ h]

theorem keptBy_modExec (who : Agent) (k : Core) (g : Exec → Exec) : KeptBy who k (k.modExec who g) := by
  cases who with
  | actor c a => exact keptBy_modActor a fun _ => by rfl
  | seq => exact rfl
  | bind => trivial

theorem keptBy_sendTarget (who : Agent) (k : Core) (slot n t : Nat) (v : Arrival) : KeptBy who k (k.sendTarget who slot n t v) := by
  unfold Core.sendTarget
  split
  · exact .refl who k
  · split
    · split
      · exact keptBy_modActor _ fun _ => by rfl
      · exact .refl ..
    · exact .refl ..
  · exact keptBy_modExec ..
  · exact keptBy_modExec ..
  · exact .refl ..
  · exact .refl ..
  · exact keptBy_modExec ..

theorem keptBy_finish (who : Agent) (k : Core) (slot : Nat) (i : Instr) (v w : Arrival) (fl : Fpx) :
    KeptBy who k (k.finish who slot i v w fl) :=
  ((keptBy_modExec ..).trans (keptBy_sendTarget ..)).trans (keptBy_sendTarget ..)

theorem keptBy_squash (who : Agent) (k : Core) (slot : Nat) (i : Instr) : KeptBy who k (k.squash who slot i) := by
  unfold Core.squash
  dsimp only
  split
  · exact (keptBy_finish ..).trans (keptBy_modExec ..)
  · exact keptBy_finish ..

theorem keptBy_abort (c a : Nat) (k : Core) : KeptBy (.actor c a) k (k.abort a) := by
  unfold Core.abort
  generalize k.mates a = ms
  induction ms generalizing k with
  | nil => exact .refl ..
  | cons m ms ih => exact (keptBy_modActor m fun _ => by rfl).trans (ih _)

theorem keptBy_trapPinned (c a : Nat) (k : Core) (how : Release) : KeptBy (.actor c a) k (k.trapPinned a how) :=
  keptBy_modActor a fun _ => by rfl

theorem keptBy_tierMiss (who : Agent) (k : Core) (page : Nat) (d : Bool) (src : MissSrc) :
    KeptBy who k (k.tierMiss page d src) := by
  obtain ⟨ms, ws, ev, h⟩ := k.tierMiss_eq page d src
  rw [h]
  exact .of_parts (by rfl) (by rfl) (by rfl)

theorem keptBy_dropBlock (c : Nat) (k : Core) : KeptBy (.seq c) k k.dropBlock := by
  unfold Core.dropBlock
  split <;> rfl

theorem keptBy_countLanes (who : Agent) (k : Core) (w : Bool) (was now : List ReqLane) :
    KeptBy who k (k.countLanes w was now) := by
  obtain ⟨l, h⟩ := k.countLanes_tlb w was now
  rw [h]
  exact .of_parts (by rfl) (by rfl) (by rfl)

/-! #### Of the fabric -/

theorem Frame.refl (who : Agent) (f : Fabric) : Frame who f f := ⟨fun _ _ => rfl, .refl .., rfl, fun _ => rfl⟩

theorem Frame.trans {who : Agent} {f g h : Fabric} (a : Frame who f g) (b : Frame who g h) : Frame who f h :=
  ⟨fun d hd => (b.others d hd).trans (a.others d hd), a.own.trans b.own, b.units.trans a.units,
    fun r => (b.regions r).trans (a.regions r)⟩

theorem Frame.modCore {who : Agent} {f : Fabric} {g : Core → Core} (h : KeptBy who (f.core who.core) (g (f.core who.core))) :
    Frame who f (f.modCore who.core g) :=
  ⟨fun _ hd => Fabric.core_modCore_other _ _ hd, by rw [Fabric.core_modCore]; exact h, rfl, fun _ => rfl⟩

theorem Frame.modUnits {who : Agent} {f : Fabric} {g : Units → Units} (h : keptUnits (g f.units) = keptUnits f.units)
    (hr : (g f.units).regions = f.units.regions) : Frame who f (f.modUnits g) :=
  ⟨fun _ _ => rfl, .refl .., h, fun r => by rw [Fabric.region, Fabric.region, Fabric.modUnits_units, hr]⟩

theorem Frame.modRegion {who : Agent} {f : Fabric} (r : Nat) {g : Region → Region} (h : ∀ x, keptRegion (g x) = keptRegion x) :
    Frame who f (f.modRegion r g) := by
  refine ⟨fun _ _ => rfl, .refl .., rfl, fun q => ?_⟩
  by_cases hq : q = r
  · rw [hq, Fabric.region_modRegion, h]
  · rw [Fabric.region_modRegion_other _ _ hq]

/-! #### Of faults -/

theorem frame_pend (who : Agent) (f : Fabric) (t : Trap) : Frame who f (f.pend who.core t) :=
  .modCore (.of_parts (by rfl) (by rfl) (by rfl))

theorem frame_stopRegion (who : Agent) (f : Fabric) (t : Trap) : Frame who f (f.stopRegion who.core t) :=
  (Frame.modRegion _ fun _ => by rfl).trans (.modCore (.of_parts (by rfl) (by rfl) (by rfl)))

theorem frame_postTrap (who : Agent) (f : Fabric) (t : Trap) : Frame who f (f.postTrap who.core t) := by
  unfold Fabric.postTrap
  dsimp only
  split
  · exact (frame_pend ..).trans (frame_stopRegion ..)
  · split
    · exact frame_stopRegion ..
    · exact frame_stopRegion ..
    · exact frame_pend ..

theorem frame_firingFault (c a : Nat) (f : Fabric) (t : Trap) : Frame (.actor c a) f (f.firingFault c a t) := by
  have trapped : Frame (.actor c a) f
      (f.modCore c fun k => (k.trapPinned a .rft).modActor a fun x => { x with trapHeld := true }) :=
    .modCore (who := .actor c a) ((keptBy_trapPinned ..).trans (keptBy_modActor a fun _ => by rfl))
  have held (f : Fabric) : Frame (.actor c a) f (f.modCore c fun k => k.modActor a fun x => { x with trapHeld := true }) :=
    .modCore (who := .actor c a) (keptBy_modActor a fun _ => by rfl)
  have aborted : Frame (.actor c a) f (f.modCore c fun k => k.abort a) := .modCore (who := .actor c a) (keptBy_abort ..)
  have kiln (f : Fabric) (l : KilnFault) :
      Frame (.actor c a) f (f.modCore c fun k => { k with faults := k.faults ++ [l] }) :=
    .modCore (who := .actor c a) (.of_parts (by rfl) (by rfl) (by rfl))
  unfold Fabric.firingFault
  dsimp only
  split
  · refine trapped.trans ?_
    split
    · exact kiln ..
    · exact frame_postTrap (.actor c a) ..
  · refine aborted.trans ?_
    split
    · exact .modCore (who := .actor c a) ((keptBy_tierMiss ..).trans (keptBy_modActor a fun _ => by rfl))
    · split
      · exact .modCore (who := .actor c a) (keptBy_modActor a fun _ => by rfl)
      · refine (held _).trans ?_
        split
        · exact kiln ..
        · exact frame_postTrap (.actor c a) ..

theorem frame_blockFault (c : Nat) (f : Fabric) (t : Trap) : Frame (.seq c) f (f.blockFault c t) := by
  unfold Fabric.blockFault
  dsimp only
  refine .trans (.modCore (who := .seq c) (keptBy_dropBlock ..)) ?_
  split
  · exact .modCore (who := .seq c) rfl
  · split
    · refine .modCore (who := .seq c) ?_
      obtain ⟨ms, ws, ev, h⟩ := Core.tierMiss_eq ((f.modCore c Core.dropBlock).core c)
        (((f.modCore c Core.dropBlock).core c).pageBase t.addr) false .seq
      show keptSequencer _ = _
      dsimp only [Agent.core]
      rw [h]
      rfl
    · exact frame_postTrap (.seq c) ..

theorem frame_faultAt (who : Agent) (f : Fabric) (slot : Nat) (i : Instr) (code addr lane : Nat) (info : Option Word) :
    Frame who f (f.faultAt who slot i code addr lane info) := by
  unfold Fabric.faultAt
  dsimp only
  split
  · exact .refl ..
  · split
    · exact .refl ..
    · split
      · exact .refl ..
      · cases who with
        | actor c a => exact frame_firingFault ..
        | seq c => exact frame_blockFault ..
        | bind c => exact .modCore (who := .bind c) trivial

theorem frame_laneFault (who : Agent) (f : Fabric) (slot : Nat) (i : Instr) (l : ReqLane) (code addr : Nat)
    (hits : List (Nat × Nat)) : Frame who f (f.laneFault who slot i l code addr hits) := by
  unfold Fabric.laneFault
  split
  · exact .refl ..
  · exact .trans (.modCore (.of_parts (by rfl) (by rfl) (by rfl))) (frame_faultAt ..)

/-! #### Of errors found -/

theorem frame_record (who : Agent) (f : Fabric) (c : Nat) (x : Finding) : Frame who f (f.record c x) := by
  obtain ⟨h, hr, hb⟩ := f.record_banks c x
  obtain ⟨b, hb⟩ := hb f.units
  rw [hr]
  exact .modUnits (by rw [hb]; rfl) (by rw [hb])

theorem frame_askRollback (who : Agent) (f : Fabric) : Frame who f (f.askRollback who.core) := by
  unfold Fabric.askRollback
  dsimp only
  split
  · exact .modRegion _ fun _ => by rfl
  · exact frame_stopRegion ..

/-- A plane filled again is no part of an actor's or a sequencer's block. -/
theorem frame_refill (c : Nat) (f : Fabric) : Frame (.bind c) f (f.refill c) := by
  unfold Fabric.refill
  split
  · split
    · exact .refl ..
    · exact ⟨fun _ hd => Fabric.core_modCore_other _ _ hd, trivial, rfl, fun _ => rfl⟩
  · exact .refl ..

/-- An error found in a block that is no configuration block (R129, R403). -/
theorem frame_blockError {who : Agent} {mark : Fabric → Fabric} (hm : ∀ f, Frame who f (mark f)) (f : Fabric) (x : Finding) :
    Frame who f (f.blockError who false x mark) := by
  unfold Fabric.blockError
  extract_lets -merge c k clean
  clear_value clean
  split
  · refine Frame.trans (g := f.record who.core { x with sev := 0 }) (frame_record ..) ?_
    cases who with
    | actor c a => exact .modCore (who := .actor c a) (keptBy_abort ..)
    | seq c => exact .modCore (who := .seq c) (keptBy_dropBlock ..)
    | bind c => exact frame_refill ..
  · exact ((frame_record ..).trans (hm _)).trans (frame_askRollback ..)

/-! #### Of the instructions -/

theorem frame_modExec (who : Agent) (f : Fabric) (g : Exec → Exec) : Frame who f (f.modCore who.core fun k => k.modExec who g) :=
  .modCore (keptBy_modExec ..)

theorem frame_result (x : Issue) (v : Row) (fl : Fpx) (f : Fabric) : Frame x.who f (x.result v fl f) := .modCore (keptBy_finish ..)

theorem frame_token (x : Issue) (t : Tok) (f : Fabric) : Frame x.who f (x.token t f) := .modCore (keptBy_finish ..)

theorem frame_noResult (x : Issue) (f : Fabric) : Frame x.who f (x.noResult f) := frame_modExec ..

theorem frame_buffer (x : Issue) (y : Effect) (f : Fabric) : Frame x.who f (x.buffer y f) := frame_modExec ..

theorem frame_wait (x : Issue) (w : Wait) (f : Fabric) : Frame x.who f (x.wait w f) := frame_modExec ..

theorem frame_hold (x : Issue) (f : Fabric) : Frame x.who f (x.hold f) := frame_modExec ..

theorem frame_fault (x : Issue) (code addr lane : Nat) (f : Fabric) : Frame x.who f (x.fault code addr lane f) := frame_faultAt ..

theorem frame_choose (x : Issue) (y : Choice) (f : Fabric) : Frame x.who f (x.choose y f) :=
  (frame_noResult ..).trans (frame_modExec ..)

theorem frame_fenced (x : Issue) (scope : Nat) (next : Bool) (f : Fabric) : Frame x.who f (x.fenced scope next f) := by
  refine (frame_noResult x f).trans ?_
  unfold Issue.fenced
  dsimp only
  cases hw : x.who with
  | actor c a =>
    dsimp only
    split
    · exact .modCore (who := .actor c a) (keptBy_modActor a fun _ => by rfl)
    · exact .refl ..
  | seq c => exact .refl ..
  | bind c => exact .refl ..

theorem frame_mismatch (x : Issue) (j : Inject) (good : Row) (fl : Fpx) (f : Fabric) :
    Frame x.who f (x.mismatch j good fl f) := by
  have disarmed : Frame x.who f
      (f.modCore x.who.core fun k => { k with dbg := { k.dbg with finj := k.dbg.finj.filter (· ≠ j) } }) :=
    .modCore (.of_parts (by rfl) (by rfl) (by rfl))
  unfold Issue.mismatch
  exact disarmed.trans (frame_blockError (fun g => frame_result { x with ember := true } _ fl g) _ _)

/-- A request counted and crossing its channel: a sequencer's block leaves the channels' marks alone where there is none. -/
theorem keptBy_counted {r : Req} (hc : ∀ c, r.who = .seq c → r.chan = none) (k : Core) :
    KeptBy r.who k ((k.countReq r.who r.kind true).crossedReq r) := by
  have counted : KeptBy r.who k (k.countReq r.who r.kind true) := by
    cases hw : r.who with
    | actor c a => exact .refl ..
    | seq c =>
      obtain ⟨n, hn⟩ := k.countReq_counts (.seq c) r.kind true
      rw [hn]
      rfl
    | bind c => trivial
  refine counted.trans ?_
  unfold Core.crossedReq
  split
  · rename_i n hn
    cases hw : r.who with
    | actor c a =>
      refine ⟨?_, fun _ => rfl⟩
      have hmoved : ∀ p : Prof, { (if p.chan = 512 + n then { p with moved := true } else p) with moved := false } =
          ({ p with moved := false } : Prof) := fun p => by split <;> rfl
      simp only [Core.crossed, keptCore, List.map_map, Function.comp_def, hmoved]
    | seq c => exact absurd (hc c hw) (by rw [hn]; exact nofun)
    | bind c => trivial
  · exact .refl ..

/-- A request opened by what an actor's or a sequencer's block asks for: of a sequencer's, one that crosses no channel. -/
theorem frame_opening {who : Agent} {r : Req} (hw : r.who = who) (hc : ∀ c, who = .seq c → r.chan = none) (f : Fabric)
    {g : Core → Core} (hg : ∀ k, KeptBy who k (g k)) : Frame who f (opening f g r) := by
  subst hw
  refine ⟨fun _ hd => opening_core_other _ _ _ hd, ?_, ?_, fun q => ?_⟩
  · rw [opening_core]
    exact (hg _).trans ((keptBy_modExec ..).trans (keptBy_counted hc _))
  · rw [opening_units]; rfl
  · rw [Fabric.region, opening_units]; rfl

theorem frame_bufferStore (who : Agent) (f : Fabric) (slot : Nat) (i : Instr) (ls : List ReqLane) (ember : Bool) :
    Frame who f (f.bufferStore who slot i ls ember) := frame_modExec ..

theorem frame_storeIssue {x : Issue} (hc : reqChan x.i = none) (f : Fabric) : Frame x.who f (f.storeIssue x) := by
  unfold Fabric.storeIssue
  dsimp only
  split
  · exact .trans (.modCore (keptBy_countLanes ..)) (frame_bufferStore ..)
  · exact frame_laneFault ..
  · exact frame_opening (r := x.request f.units.nextId (f.checkLanes x.who x.exec x.i (x.lanesNow f)).1) rfl
      (fun _ _ => hc) f fun k => keptBy_countLanes x.who k true (x.lanesNow f) _

theorem frame_askSlot {x : Issue} {c a : Nat} (hw : x.who = .actor c a) (f : Fabric) (chan : Nat) :
    Frame x.who f (f.askSlot x chan) := by
  have asked (l : Core → List Asker) (g : Fabric) : Frame x.who g (g.modCore x.who.core fun k => { k with askers := l k }) :=
    .modCore (by rw [hw]; exact ⟨rfl, fun _ => rfl⟩)
  unfold Fabric.askSlot
  exact ((asked ..).trans (frame_wait ..)).trans (asked ..)

theorem frame_loadIssue {x : Issue} {c a : Nat} (hw : x.who = .actor c a) (f : Fabric) (granted : Bool) :
    Frame x.who f (f.loadIssue x granted) := by
  unfold Fabric.loadIssue
  dsimp only
  split
  · exact frame_laneFault ..
  · split
    · exact .refl ..
    · split
      · exact frame_opening (r := x.request f.units.nextId (f.checkLanes x.who x.exec x.i (x.lanesNow f)).1) rfl
          (fun c' hs => absurd (hw.symm.trans hs) nofun) f fun k => keptBy_countLanes x.who k false (x.lanesNow f) _
      · exact frame_askSlot hw ..

/-- Memory stays and the rest is framed wherever the instruction's own change is. -/
theorem frame_of_issueStep {i : Instr} {go : Issue → Fabric → Fabric} {s t : State} {who : Agent} {slot : Nat}
    (h : issueStep i go s = .next t) (ha : s.run.acting = some (who, slot))
    (hgo : ∀ x f, x.who = who → x.i = i → Frame x.who f (go x f)) : t.mem = s.mem ∧ Frame who s.fab t.fab := by
  obtain ⟨hm, -, hf | ⟨v, n, e, hv, -, -, -, ⟨-, hf⟩ | ⟨b, -, -, -, -, hf⟩⟩⟩ := issueStep_cases h
  · exact ⟨hm, hf ▸ .refl ..⟩
  · obtain ⟨rfl, rfl⟩ := Prod.mk.inj (Option.some.inj (ha.symm.trans hv))
    exact ⟨hm, hf ▸ .modCore (keptBy_squash ..)⟩
  · obtain ⟨rfl, rfl⟩ := Prod.mk.inj (Option.some.inj (ha.symm.trans hv))
    exact ⟨hm, hf ▸ hgo (gather who slot i e) s.fab rfl rfl⟩

/-! #### The compute chapter -/

/-- The instructions of the compute chapter, by opcode. -/
def computes (i : Instr) : Bool := (opcodeOf i).any fun op => Nat.blt op 0x180

/-- NOP, or a result formed from the operands (R123). -/
theorem exec_computes {i : Instr} (h : computes i = true) :
    (∃ g, ∀ s, exec i s = computeStep i g s) ∨ ∀ s, exec i s = issueStep i Issue.noResult s := by
  revert h
  cases i
  case nop f => exact fun _ => .inr fun _ => rfl
  case add f | sub f | mul f | mulh f | mad f | quo f | rem f | neg f | abs f | min f | max f | clamp f | adds f | subs f | dot4 f | and f
  | or f | xor f | andn f | not f | shl f | shr f | sra f | rotl f | clz f | popc f | bfx f | bfi f | cmpeq f | cmpne f | cmplt f
  | cmple f | sel f | mov f | movi f | movh f | lit f | fadd f | fsub f | fmul f | fma f | fnma f | fmin f | fmax f | fabs f | fneg f
  | fcmpeq f | fcmplt f | fcmple f | fcmpun f | fclass f | fscale f | fdiv f | frcp f | frsq f | fsqrt f | fexp2 f | flog2 f | fsig f
  | ftanh f | cvt f | cvts f | pack f | unpk f | bcast f | shuf f | rotx f | lane f | insl f | redadd f | redmax f | redmin f | scan f =>
    exact fun _ => .inl ⟨_, fun _ => rfl⟩
  all_goals exact of_false_eq_true

theorem frame_of_computes {i : Instr} {s t : State} {who : Agent} {slot : Nat} (hi : computes i = true)
    (h : exec i s = .next t) (ha : s.run.acting = some (who, slot)) : t.mem = s.mem ∧ Frame who s.fab t.fab := by
  obtain ⟨g, he⟩ | he := exec_computes hi
  · rw [he] at h
    refine frame_of_issueStep h ha fun x f _ _ => ?_
    dsimp only
    split
    · exact frame_result ..
    · exact frame_mismatch ..
  · rw [he] at h
    exact frame_of_issueStep h ha fun x f _ _ => frame_noResult x f

/-! #### Instructions of both kinds of block -/

/-- TRAP faults in a firing, and is kept for the end in a sequencer's block (R203). -/
theorem frame_trap {d : DFields} {s t : State} {who : Agent} {slot : Nat} (h : exec (.trap d) s = .next t)
    (ha : s.run.acting = some (who, slot)) : t.mem = s.mem ∧ Frame who s.fab t.fab := by
  refine frame_of_issueStep h ha fun x f _ _ => ?_
  dsimp only
  split
  · split
    · exact (frame_noResult ..).trans (frame_fault ..)
    · exact frame_fault ..
  · exact (frame_noResult ..).trans (frame_modExec ..)

/-- A fence completes, or stays in its slot (R191). -/
theorem frame_fencedOrHeld (x : Issue) (ok : Bool) (scope : Nat) (next : Bool) (f : Fabric) :
    Frame x.who f (if ok then x.fenced scope next f else x.hold f) := by
  split
  · exact frame_fenced ..
  · exact frame_hold ..

theorem frame_fence {d : DFields} {s t : State} {who : Agent} {slot : Nat} (h : exec (.fence d) s = .next t)
    (ha : s.run.acting = some (who, slot)) : t.mem = s.mem ∧ Frame who s.fab t.fab := by
  refine frame_of_issueStep h ha fun x f _ _ => ?_
  dsimp only
  split
  · exact .refl ..
  · exact frame_fencedOrHeld ..

theorem frame_xfence {d : DFields} {s t : State} {who : Agent} {slot : Nat} (h : exec (.xfence d) s = .next t)
    (ha : s.run.acting = some (who, slot)) : t.mem = s.mem ∧ Frame who s.fab t.fab := by
  refine frame_of_issueStep h ha fun x f _ _ => ?_
  dsimp only
  split
  · exact .refl ..
  · exact frame_fencedOrHeld ..

theorem frame_pref {m : MFields} {s t : State} {who : Agent} {slot : Nat} (h : exec (.pref m) s = .next t)
    (ha : s.run.acting = some (who, slot)) : t.mem = s.mem ∧ Frame who s.fab t.fab := by
  refine frame_of_issueStep h ha fun x f _ _ => ?_
  dsimp only
  split
  · exact frame_fault ..
  · exact frame_noResult ..

/-- A store, and an atomic that takes the stores' way, opens no request on a channel (R182, R188). -/
theorem frame_of_storeIssue {i : Instr} {s t : State} {who : Agent} {slot : Nat}
    (h : issueStep i (fun x f => f.storeIssue x) s = .next t) (ha : s.run.acting = some (who, slot)) (hc : reqChan i = none) :
    t.mem = s.mem ∧ Frame who s.fab t.fab :=
  frame_of_issueStep h ha fun _ f _ hi => frame_storeIssue (hi ▸ hc) f

/-! ### Firings act at commit -/

/-- An atomic's request holds no slot of a channel. -/
theorem reqChan_of_isAtomicOp {i : Instr} (h : isAtomicOp i = true) : reqChan i = none := by
  rw [reqChan, reqKind_of_isAtomicOp h]
  split <;> rfl

/-- An atomic without a target takes the stores' way (R188). -/
theorem frame_of_atomicStep {i : Instr} {s t : State} {c a slot : Nat} (h : atomicStep i s = .next t)
    (ha : s.run.acting = some (.actor c a, slot)) (hi : isAtomicOp i = true) (he : isEager i = false) :
    t.mem = s.mem ∧ Frame (.actor c a) s.fab t.fab := by
  refine frame_of_issueStep h ha fun x f _ hx => ?_
  rw [if_neg (by rw [he]; exact Bool.false_ne_true)]
  exact frame_storeIssue (hx ▸ reqChan_of_isAtomicOp hi) f

theorem frame_accWrite {x : Issue} {c a : Nat} (hw : x.who = .actor c a) (row last : Nat) (o : AccOp) (f : Fabric) :
    Frame x.who f (accWrite x row last o f) := by
  by_cases hl : last < 1024
  · cases hr : (o.rows row).find? (f.core c).accHeld with
    | some r => rw [accWrite_busy hl hw hr]; exact frame_fault ..
    | none => rw [accWrite_buffers hl hw hr]; exact frame_buffer ..
  · rw [accWrite_range (by omega)]
    exact frame_fault ..

/-- An accumulator row read, of a row within the array or past it, held or not (R45, R175). -/
theorem frame_ard {d : DFields} {s t : State} {c a slot : Nat} (h : exec (.ard d) s = .next t)
    (ha : s.run.acting = some (.actor c a, slot)) : t.mem = s.mem ∧ Frame (.actor c a) s.fab t.fab := by
  refine frame_of_issueStep h ha fun x f hw _ => ?_
  dsimp only
  split
  · exact frame_fault ..
  · split
    · exact frame_fault ..
    · exact frame_token ..
    · exact .refl ..
    · exact frame_token ..

/-- The window instructions of an actor's block (R164 to R166). -/
theorem frame_wrd {w : WFields} {s t : State} {who : Agent} {slot : Nat} (h : exec (.wrd w) s = .next t)
    (ha : s.run.acting = some (who, slot)) : t.mem = s.mem ∧ Frame who s.fab t.fab := by
  refine frame_of_issueStep h ha fun x f _ _ => ?_
  dsimp only
  split
  · exact .refl ..
  · split
    · exact frame_fault ..
    · exact frame_token ..

theorem frame_wrdx {w : WFields} {s t : State} {who : Agent} {slot : Nat} (h : exec (.wrdx w) s = .next t)
    (ha : s.run.acting = some (who, slot)) : t.mem = s.mem ∧ Frame who s.fab t.fab := by
  refine frame_of_issueStep h ha fun x f _ _ => ?_
  dsimp only
  split
  · exact .refl ..
  · split
    · exact frame_fault ..
    · split
      · exact frame_token ..
      · exact frame_wait ..

theorem frame_wupd {w : WFields} {s t : State} {who : Agent} {slot : Nat} (h : exec (.wupd w) s = .next t)
    (ha : s.run.acting = some (who, slot)) : t.mem = s.mem ∧ Frame who s.fab t.fab := by
  refine frame_of_issueStep h ha fun x f _ _ => ?_
  dsimp only
  split
  · exact .refl ..
  · split
    · exact frame_fault ..
    · exact frame_buffer ..

theorem frame_wshr {w : WFields} {s t : State} {who : Agent} {slot : Nat} (h : exec (.wshr w) s = .next t)
    (ha : s.run.acting = some (who, slot)) : t.mem = s.mem ∧ Frame who s.fab t.fab := by
  refine frame_of_issueStep h ha fun x f _ _ => ?_
  split
  · exact frame_noResult ..
  · exact frame_buffer ..

theorem frame_wcnt {w : WFields} {s t : State} {who : Agent} {slot : Nat} (h : exec (.wcnt w) s = .next t)
    (ha : s.run.acting = some (who, slot)) : t.mem = s.mem ∧ Frame who s.fab t.fab := by
  refine frame_of_issueStep h ha fun x f _ _ => ?_
  dsimp only
  split
  · exact .refl ..
  · exact frame_result ..

/-- A timestamp set, or refused (R192, R379). -/
theorem frame_tset {d : DFields} {s t : State} {who : Agent} {slot : Nat} (h : exec (.tset d) s = .next t)
    (ha : s.run.acting = some (who, slot)) : t.mem = s.mem ∧ Frame who s.fab t.fab := by
  refine frame_of_issueStep h ha fun x f _ _ => ?_
  dsimp only
  split
  · exact frame_fault ..
  · split
    · exact frame_fault ..
    · exact (frame_noResult ..).trans (frame_modExec ..)

/-- An actor's arrival at a barrier is buffered (R193). -/
theorem frame_bara {d : DFields} {s t : State} {c a slot : Nat} (h : exec (.bara d) s = .next t)
    (ha : s.run.acting = some (.actor c a, slot)) : t.mem = s.mem ∧ Frame (.actor c a) s.fab t.fab := by
  refine frame_of_issueStep h ha fun x f hw _ => ?_
  dsimp only
  split
  · exact frame_buffer ..
  · rename_i hn; exact absurd hw (hn c a)

/-- The opcodes that no actor's block takes (Table 4-11). -/
def noActorOps : List Nat :=
  [0x186, 0x187, 0x245, 0x246, 0x247, 0x280, 0x281, 0x282, 0x283, 0x284, 0x287, 0x289, 0x28A, 0x28B, 0x2C0, 0x2C1, 0x2C2, 0x2C3, 0x2C4,
    0x2C5, 0x2C6, 0x2C7, 0x2C8, 0x2C9, 0x2CA, 0x2CB, 0x2CC, 0x2CD, 0x2CE, 0x2CF, 0x300, 0x301, 0x302, 0x303, 0x304, 0x305, 0x340, 0x341,
    0x342, 0x343, 0x344, 0x345, 0x348, 0x349, 0x34A, 0x350, 0x351, 0x352, 0x358, 0x359, 0x35A, 0x360, 0x380, 0x381, 0x382, 0x383, 0x384,
    0x385, 0x386, 0x387]

theorem actK_of_noActorOps : ∀ op ∈ noActorOps, (shapeOf op).actK = false := by decide +kernel

/-- An opcode past the compute chapter that an actor's block takes. -/
def actorOp (op : Nat) : Bool := !Nat.blt op 0x180 && !noActorOps.any (Nat.beq op)

/-- An instruction past the compute chapter that an actor's block takes. -/
def actorTakes (i : Instr) : Bool := match opcodeOf i with | some op => actorOp op | none => (fieldsOf i).isSome

theorem actorTakes_of_actsAtCommit {i : Instr} (h : actsAtCommit i = true) (hc : computes i = false) : actorTakes i = true := by
  obtain ⟨h, -⟩ := Bool.and_eq_true_iff.mp h
  obtain ⟨hf, hk⟩ := Bool.and_eq_true_iff.mp h
  cases ho : opcodeOf i with
  | none => rw [actorTakes, ho]; exact hf
  | some op =>
    rw [shapeIn, ho] at hk
    rw [computes, ho] at hc
    have hn : noActorOps.any (Nat.beq op) = false := by
      by_contra hn
      obtain ⟨n, hm, he⟩ := List.any_eq_true.mp (Bool.eq_true_of_not_eq_false hn)
      obtain rfl := Nat.eq_of_beq_eq_true he
      exact Bool.false_ne_true ((actK_of_noActorOps op hm).symm.trans hk)
    rw [actorTakes, ho]
    show actorOp op = true
    rw [actorOp, hn, show Nat.blt op 0x180 = false from hc]
    rfl

theorem isEager_of_actsAtCommit {i : Instr} (h : actsAtCommit i = true) : isEager i = false := by
  obtain ⟨-, he⟩ := Bool.and_eq_true_iff.mp h
  simpa using he

/-- The instructions of an actor's block by what they buffer, answer or wait for. -/
theorem frame_of_actsAtCommit {i : Instr} {s t : State} {c a slot : Nat} (hi : actorTakes i = true)
    (he : isEager i = false) (h : exec i s = .next t) (ha : s.run.acting = some (.actor c a, slot)) :
    t.mem = s.mem ∧ Frame (.actor c a) s.fab t.fab := by
  revert hi he h
  cases i
  case wrd w => exact fun _ _ h => frame_wrd h ha
  case wrdx w => exact fun _ _ h => frame_wrdx h ha
  case wupd w => exact fun _ _ h => frame_wupd h ha
  case wfil w => exact fun _ _ h => frame_of_issueStep h ha fun x f _ _ => frame_buffer ..
  case wshr w => exact fun _ _ h => frame_wshr h ha
  case wcnt w => exact fun _ _ h => frame_wcnt h ha
  case hget d | grd d | mfk d | tget d => exact fun _ _ h => frame_of_issueStep h ha fun x f _ _ => frame_result ..
  case ard d => exact fun _ _ h => frame_ard h ha
  case awr d | aacc d | apatchSet d | apatchAdd d | apatchScale d | aclr d =>
    exact fun _ _ h => frame_of_issueStep h ha fun x f hw _ => frame_accWrite hw ..
  case ld m | ld2 m | lds m | gath m => exact fun _ _ h => frame_of_issueStep h ha fun x f hw _ => frame_loadIssue hw ..
  case st m | sts m | scat m => exact fun _ _ h => frame_of_storeIssue h ha rfl
  case atadd m | atfadd m | atmin m | atmax m | atfmax m | atand m | ator m | atxor m | atxch m | atcas m =>
    exact fun _ he h => frame_of_atomicStep h ha rfl he
  case pref m => exact fun _ _ h => frame_pref h ha
  case fence d => exact fun _ _ h => frame_fence h ha
  case xfence d => exact fun _ _ h => frame_xfence h ha
  case tset d => exact fun _ _ h => frame_tset h ha
  case bara d => exact fun _ _ h => frame_bara h ha
  case trap d => exact fun _ _ h => frame_trap h ha
  all_goals exact of_false_eq_true

/-- Settles O58: what each instruction does is its firing's, until the firing commits. -/
theorem firingsActAtCommit : Obligations.FiringsActAtCommit := by
  intro i s t c a slot hi ha h
  have hf : t.mem = s.mem ∧ Frame (.actor c a) s.fab t.fab := by
    cases hc : computes i with
    | true => exact frame_of_computes hc h ha
    | false => exact frame_of_actsAtCommit (actorTakes_of_actsAtCommit hi hc) (isEager_of_actsAtCommit hi) h ha
  obtain ⟨hm, ho, hk, hu, hr⟩ := hf
  exact ⟨hm, ho, hk.1, hk.2, hu, hr⟩

/-! ### Blocks act at their end -/

/-- BARW and WAITC complete, or begin to wait (R193, R194). -/
theorem frame_barw {d : DFields} {s t : State} {who : Agent} {slot : Nat} (h : exec (.barw d) s = .next t)
    (ha : s.run.acting = some (who, slot)) : t.mem = s.mem ∧ Frame who s.fab t.fab := by
  refine frame_of_issueStep h ha fun x f _ _ => ?_
  dsimp only
  split
  · exact frame_noResult ..
  · exact frame_wait ..

theorem frame_waitc {d : DFields} {s t : State} {who : Agent} {slot : Nat} (h : exec (.waitc d) s = .next t)
    (ha : s.run.acting = some (who, slot)) : t.mem = s.mem ∧ Frame who s.fab t.fab := by
  refine frame_of_issueStep h ha fun x f _ _ => ?_
  split
  · exact frame_noResult ..
  · exact frame_wait ..

/-- The instructions of a sequencer's block that act at its end, by what they keep for it. -/
theorem frame_of_actsAtBlockEnd {i : Instr} {s t : State} {c slot : Nat} (hi : (!computes i && actsAtBlockEnd i) = true)
    (h : exec i s = .next t) (ha : s.run.acting = some (.seq c, slot)) : t.mem = s.mem ∧ Frame (.seq c) s.fab t.fab := by
  revert hi h
  cases i
  case br d | brc d | brx d | call d | ret d | rft d | halt d => exact fun _ h => frame_of_issueStep h ha fun x f _ _ => frame_choose ..
  case trap d => exact fun _ h => frame_trap h ha
  case grd d | mfk d => exact fun _ h => frame_of_issueStep h ha fun x f _ _ => frame_result ..
  case mtk d | fpxClear d | wpHitClear d => exact fun _ h => frame_of_issueStep h ha fun x f _ _ => frame_buffer ..
  case barw d => exact fun _ h => frame_barw h ha
  case waitc d => exact fun _ h => frame_waitc h ha
  case fence d => exact fun _ h => frame_fence h ha
  case xfence d => exact fun _ h => frame_xfence h ha
  case st m | sts m | scat m => exact fun _ h => frame_of_storeIssue h ha rfl
  case pref m => exact fun _ h => frame_pref h ha
  all_goals exact of_false_eq_true

/-- Settles O59: what each instruction does is its block's, until the block ends. -/
theorem blocksActAtTheirEnd : Obligations.BlocksActAtTheirEnd := by
  intro i s t c slot hi ha h
  have hf : t.mem = s.mem ∧ Frame (.seq c) s.fab t.fab := by
    cases hc : computes i with
    | true => exact frame_of_computes hc h ha
    | false => exact frame_of_actsAtBlockEnd (by rw [hi, hc]; rfl) h ha
  obtain ⟨hm, ho, hk, hu, hr⟩ := hf
  exact ⟨hm, ho, hk, hu, hr⟩

end Sys2Proof.Proofs

end

/-! Words read and written back, and steps that go on: elaborated one after another, as above. -/

section

set_option Elab.async false

/-! ### Words read and written back -/

namespace Sys2Proof.Proofs

open Sys2Proof.Machine Sys2Proof.Claims Sys2Proof.Laws

/-! #### Encoding -/

/-- The words of an instruction after its first: the literal of format L (R111). -/
def laterWords : Fields → List Word
  | .l g => [g.lit]
  | _ => []

theorem encode_parts {i : Instr} {op : Nat} {f : Fields} (ho : opcodeOf i = some op) (hf : fieldsOf i = some f) :
    encode i = encodeFields (BitVec.ofNat 10 op) f :: laterWords f := by
  cases f <;> simp only [encode, ho, hf, laterWords]

/-- The decoder, given zero where no second word follows, reads an instruction's own second word. -/
theorem secondWord_laterWords (f : Fields) : secondWord f ((laterWords f).headD 0) = (laterWords f).headD 0 := by
  cases f <;> rfl

/-- The bits that a format holds at zero are zero in every word made of fields of that format (check 0x05). -/
theorem reservedZero_encodeFields (op : BitVec 10) (f : Fields) : reservedZero (formatFor f) (encodeFields op f) = true := by
  cases f with
  | d f => exact beq_of_eq (bits_packed (encodeFields_d_toNat op f) 7 rfl rfl)
  | w f => exact beq_of_eq (bits_packed (encodeFields_w_toNat op f) 7 rfl rfl)
  | m f => rfl
  | c f => exact beq_of_eq (bits_packed (encodeFields_c_toNat op f) 7 rfl rfl)
  | e f => rfl
  | l f =>
    have h := encodeFields_l_toNat op f
    exact Bool.and_eq_true_iff.2 ⟨beq_of_eq (bits_packed h 2 rfl rfl), beq_of_eq (bits_packed h 5 rfl rfl)⟩

/-- The decoder accepts a word if its opcode is assigned, its fields name an instruction, and its reserved bits are zero. -/
theorem decodeWord_ok_iff {w lit : Word} {i : Instr} :
    decodeWord w lit = .ok i ↔
      ∃ fmt, formatOf (opBits w).toNat = some fmt ∧ readWord w lit = some i ∧ reservedZero fmt w = true := by
  unfold decodeWord
  rcases formatOf (opBits w).toNat with _ | fmt
  · simp
  · rcases readWord w lit with _ | j
    · simp
    · cases hz : reservedZero fmt w <;> simp [hz]

/-- A word made of an instruction's opcode and fields decodes to the instruction. -/
theorem decodeWord_encodeFields {i : Instr} {op : Nat} {f : Fields} (hs : selectorOk i = true) (ho : opcodeOf i = some op)
    (hf : fieldsOf i = some f) (lit : Word) :
    decodeWord (encodeFields (BitVec.ofNat 10 op) f) (secondWord f lit) = .ok i := by
  obtain ⟨hlt, hfmt, -⟩ := rebuild i hs op f ho hf
  refine decodeWord_ok_iff.2 ⟨formatFor f, ?_, readWord_encodeFields hs ho hf lit, reservedZero_encodeFields ..⟩
  rw [opBits_encodeFields, BitVec.toNat_ofNat, Nat.mod_eq_of_lt hlt, hfmt]

/-- Settles O50: the word of the opcode and the fields is read back field by field, and its reserved bits are zero. -/
theorem decodeOfEncode : Obligations.DecodeOfEncode := by
  intro i h
  obtain ⟨hs, op, f, ho, hf⟩ := wellFormed_parts h
  refine ⟨_, _, encode_parts ho hf, ?_⟩
  rw [← secondWord_laterWords]
  exact decodeWord_encodeFields hs ho hf _

/-! #### Decoding -/

/-- The word holds a list of fields, the last at its lowest bit. -/
def Holds (w : Word) : List WordField → Prop
  | [] => True
  | p :: l => bits w (widthOf l) p.1 = p.2 ∧ Holds w l

theorem bits_toNat (w : Word) (lo n : Nat) : (bits w lo n).toNat = w.toNat / 2 ^ lo % 2 ^ n := by
  rw [bits, BitVec.extractLsb'_toNat, Nat.shiftRight_eq_div_pow]

/-- Fields that a word holds stand below what the word holds above them. -/
theorem packed_of_holds {w : Word} {l : List WordField} (h : Holds w l) : packed (w.toNat / 2 ^ widthOf l) l = w.toNat := by
  induction l with
  | nil => exact Nat.div_one _
  | cons p l ih =>
    obtain ⟨hp, hl⟩ := h
    have hv : w.toNat / 2 ^ widthOf (p :: l) * 2 ^ p.1 + p.2.toNat = w.toNat / 2 ^ widthOf l := by
      rw [← hp, bits_toNat, widthOf, List.map_cons, List.sum_cons, Nat.add_comm p.1, Nat.pow_add, ← Nat.div_div_eq_div_mul]
      exact Nat.div_add_mod' ..
    exact (congrArg (packed · l) hv).trans (ih hl)

/-- A word made of a word's opcode and of the 54 bits of fields that it holds is that word. -/
theorem eq_of_holds {v w : Word} {l : List WordField} (hv : v.toNat = packed (opBits w).toNat l) (hl : widthOf l = 54)
    (h : Holds w l) : v = w := by
  have hop : (opBits w).toNat = w.toNat / 2 ^ widthOf l := by
    rw [opBits, bits_toNat, hl]
    exact Nat.mod_eq_of_lt (Nat.div_lt_of_lt_mul w.isLt)
  exact BitVec.eq_of_toNat_eq (by rw [hv, hop, packed_of_holds h])

/-- The fields of a word by its format (Tables 4-4 to 4-9). -/
def fieldsIn (w lit : Word) : Format → Fields
  | .d => .d (dFields w)
  | .w => .w (wFields w)
  | .m => .m (mFields w)
  | .c => .c (cFields w)
  | .e => .e (eFields w)
  | .l => .l (lFields w lit)

/-- With its reserved bits at zero a word is its opcode and fields: no other bit is left (R103, R106 to R111). -/
theorem encodeFields_fieldsIn {w : Word} (lit : Word) {fmt : Format} (h : reservedZero fmt w = true) :
    encodeFields (opBits w) (fieldsIn w lit fmt) = w := by
  cases fmt with
  | d => exact eq_of_holds (encodeFields_d_toNat ..) rfl ⟨rfl, rfl, rfl, rfl, rfl, rfl, rfl, eq_of_beq h, rfl, trivial⟩
  | w => exact eq_of_holds (encodeFields_w_toNat ..) rfl ⟨rfl, rfl, rfl, rfl, rfl, rfl, rfl, eq_of_beq h, rfl, rfl, trivial⟩
  | m => exact eq_of_holds (encodeFields_m_toNat ..) rfl ⟨rfl, rfl, rfl, rfl, rfl, rfl, rfl, rfl, rfl, trivial⟩
  | c => exact eq_of_holds (encodeFields_c_toNat ..) rfl ⟨rfl, rfl, rfl, rfl, rfl, rfl, rfl, eq_of_beq h, rfl, rfl, trivial⟩
  | e => exact eq_of_holds (encodeFields_e_toNat ..) rfl ⟨rfl, rfl, rfl, rfl, rfl, rfl, rfl, rfl, rfl, rfl, trivial⟩
  | l =>
    obtain ⟨hm, hl⟩ := Bool.and_eq_true_iff.1 h
    exact eq_of_holds (encodeFields_l_toNat ..) rfl ⟨rfl, rfl, eq_of_beq hm, rfl, rfl, eq_of_beq hl, trivial⟩

/-- What the decoder's table builds keeps its opcode and fields. -/
def KeepsParts (op : Nat) (f : Fields) (o : Option Instr) : Prop :=
  ∀ i, o = some i → opcodeOf i = some op ∧ fieldsOf i = some f

theorem keepsParts_none {op : Nat} {f : Fields} : KeepsParts op f none := fun _ => of_none_eq_some

theorem keepsParts_some {op : Nat} {f : Fields} {i : Instr} (ho : opcodeOf i = some op) (hf : fieldsOf i = some f) :
    KeepsParts op f (some i) := by
  rintro _ ⟨⟩
  exact ⟨ho, hf⟩

/-- One arm of the decoder's table, as its match unfolds. -/
theorem keepsParts_arm {op n : Nat} {f : Fields} {a : Option Instr} {e : ¬op = n → Option Instr} (ha : KeepsParts n f a)
    (he : ∀ h, KeepsParts op f (e h)) :
    KeepsParts op f (dite (op = n) (Eq.ndrec_symm (motive := fun _ => Option Instr) a) e) := by
  by_cases h : op = n
  · subst h; simpa using ha
  · simpa [h] using he h

section

set_option linter.auxLemma false

theorem keepsParts_buildW (op : Nat) (f : WFields) : KeepsParts op (.w f) (buildW op f) := by
  delta buildW buildW.match_1
  repeat' refine keepsParts_arm (keepsParts_some rfl rfl) fun _ => ?_
  exact keepsParts_none

theorem keepsParts_buildM (op : Nat) (f : MFields) : KeepsParts op (.m f) (buildM op f) := by
  delta buildM buildM.match_1
  repeat' refine keepsParts_arm (keepsParts_some rfl rfl) fun _ => ?_
  exact keepsParts_none

theorem keepsParts_buildD (op : Nat) (f : DFields) : KeepsParts op (.d f) (buildD op f) := by
  delta buildD buildD.match_5
  repeat' refine keepsParts_arm ?_ fun _ => ?_
  any_goals exact keepsParts_none
  all_goals exact keepsParts_some (by (repeat' split) <;> rfl) (by (repeat' split) <;> rfl)

theorem keepsParts_buildC (op : Nat) (f : CFields) : KeepsParts op (.c f) (buildC op f) := by
  delta buildC buildC.match_1
  repeat' refine keepsParts_arm ?_ fun _ => ?_
  any_goals exact keepsParts_none
  all_goals exact keepsParts_some (by (repeat' split) <;> rfl) (by (repeat' split) <;> rfl)

theorem keepsParts_buildE (op : Nat) (f : EFields) : KeepsParts op (.e f) (buildE op f) := by
  delta buildE buildE.match_1
  repeat' refine keepsParts_arm ?_ fun _ => ?_
  any_goals exact keepsParts_none
  all_goals exact keepsParts_some (by (repeat' split) <;> rfl) (by (repeat' split) <;> rfl)

end

/-- An instruction read from a word has the word's opcode and fields. -/
theorem readWord_parts {w lit : Word} {i : Instr} {fmt : Format} (hfmt : formatOf (opBits w).toNat = some fmt)
    (h : readWord w lit = some i) : opcodeOf i = some (opBits w).toNat ∧ fieldsOf i = some (fieldsIn w lit fmt) := by
  unfold readWord at h
  dsimp only at h
  rw [hfmt] at h
  cases fmt with
  | d => exact keepsParts_buildD _ _ _ h
  | w => exact keepsParts_buildW _ _ _ h
  | m => exact keepsParts_buildM _ _ _ h
  | c => exact keepsParts_buildC _ _ _ h
  | e => exact keepsParts_buildE _ _ _ h
  | l =>
    cases h
    exact ⟨congrArg some (formatOf_l.1 hfmt).symm, rfl⟩

/-- What the decoder accepts encodes to the word itself, and after it the second word of format L. -/
theorem encode_of_decodeWord {w lit : Word} {i : Instr} (h : decodeWord w lit = .ok i) :
    ∃ fmt, fieldsOf i = some (fieldsIn w lit fmt) ∧ encode i = w :: laterWords (fieldsIn w lit fmt) := by
  obtain ⟨fmt, hfmt, hr, hz⟩ := decodeWord_ok_iff.1 h
  obtain ⟨ho, hf⟩ := readWord_parts hfmt hr
  refine ⟨fmt, hf, ?_⟩
  rw [encode_parts ho hf, BitVec.ofNat_toNat, BitVec.setWidth_eq, encodeFields_fieldsIn lit hz]

/-- LIT is the one instruction of format L. -/
theorem eq_lit_of_fieldsOf {i : Instr} {g : LFields} (h : fieldsOf i = some (.l g)) : i = .lit g := by
  revert h
  cases i
  case lit f => rintro ⟨⟩; rfl
  all_goals exact nofun

/-- Settles O51: the instruction keeps the word's opcode and fields, and those and the reserved bits are the whole word. -/
theorem encodeOfDecode : Obligations.EncodeOfDecode := by
  intro w lit i h
  obtain ⟨fmt, hf, he⟩ := encode_of_decodeWord h
  rw [he]
  cases fmt with
  | l => rw [eq_lit_of_fieldsOf hf]; rfl
  | d | w | m | c | e =>
    split
    · cases hf
    · rfl

/-! ### Every step goes on -/

/-- Every instruction and event is one of the shared steps, and each of them answers a next state. -/
theorem exec_next (i : Instr) (s : State) : ∃ t, exec i s = .next t := by
  cases i
  case sequencerBlockComplete who => cases who <;> exact ⟨_, rfl⟩
  case pageWalk w => cases w <;> exact ⟨_, rfl⟩
  all_goals exact ⟨_, rfl⟩

/-- An offer of a slot answers a next state, or stops at a word that holds no instruction (R113). -/
theorem issue_next_or_illegal (s : State) (who : Agent) (slot : Nat) :
    (∃ t, s.issue who slot = .next t) ∨
      (s.issue who slot = .fault .illegalWord ∧ ∃ w, s.fab.fetch who slot = some (w, none)) := by
  unfold State.issue
  rcases hf : s.fab.fetch who slot with _ | ⟨w, _ | i⟩
  · exact .inl ⟨s, rfl⟩
  · exact .inr ⟨rfl, w, rfl⟩
  · obtain ⟨t, ht⟩ := exec_next i { s with run := { s.run with acting := some (who, slot) } }
    exact .inl ⟨_, by simp only [ht]; rfl⟩

/-- Settles O54: by the kind of the turn. -/
theorem stepsGoOn : Obligations.StepsGoOn := by
  refine ⟨exec_next, fun s => ?_⟩
  unfold step
  rcases s.nextTurn.1 with ⟨who, slot⟩ | i | n
  · obtain hn | ⟨hs, w, hw⟩ := issue_next_or_illegal s.nextTurn.2 who slot
    · exact .inl hn
    · exact .inr ⟨hs, who, slot, w, rfl, hw⟩
  · exact .inl (exec_next i _)
  · exact .inl ⟨_, rfl⟩

end Sys2Proof.Proofs

end

/-!
PROOFS. The statements of chapter 5's family: the completion of the compute instructions and of NOP (R126, R144), the bitwise group
(R135), the shifts (R136), SEL (R140), MOVH (R142), the sign instructions (R148), and words of chapter 4 decoded.
-/

/-! ### The compute instructions and NOP complete -/

namespace Sys2Proof.Proofs

open Sys2Proof.Machine Sys2Proof.Claims

/-- Each instruction of the compute chapter is a compute step that forms its own result (R123). -/
theorem exec_of_resultOf {i : Instr} {x : Issue} {r : Row × Fpx} (hr : resultOf i x = some r) :
    ∃ g, (∀ s, exec i s = computeStep i g s) ∧ g x = r := by
  revert hr
  cases i
  case add | sub | mul | mulh | mad | quo | rem | neg | abs | min | max | clamp | adds | subs | dot4 | and | or | xor | andn | not
      | shl | shr | sra | rotl | clz | popc | bfx | bfi | cmpeq | cmpne | cmplt | cmple | sel | mov | movi | movh | lit | fadd | fsub
      | fmul | fma | fnma | fmin | fmax | fabs | fneg | fcmpeq | fcmplt | fcmple | fcmpun | fclass | fscale | fdiv | frcp | frsq
      | fsqrt | fexp2 | flog2 | fsig | ftanh | cvt | cvts | pack | unpk | bcast | shuf | rotx | lane | insl | redadd | redmax | redmin
      | scan =>
    exact fun hr => ⟨_, fun _ => rfl, Option.some.inj hr⟩
  all_goals exact of_none_eq_some

/-- A compute step that issues and meets no armed injection delivers its result (R126, R129). -/
theorem computeStep_completes {i : Instr} {g : Issue → Row × Fpx} {s : State} {who : Agent} {slot : Nat} {e : Exec} {b : Block}
    (hi : Issues s who slot i e b) (hj : injectionFor (s.fab.core who.core) who i = none) :
    computeStep i g s = .next { s with
      fab := (gather who slot i e).result (g (gather who slot i e)).1 (g (gather who slot i e)).2 s.fab } := by
  rw [computeStep, issueStep_offered hi.acting hi.running hi.issuing hi.offered hi.live hi.block hi.free hi.ordered]
  dsimp only [gather]
  rw [hj]

theorem computeCompletes : ComputeCompletes := by
  intro i x r hr s e b hi hx hj
  obtain ⟨g, he, rfl⟩ := exec_of_resultOf hr
  rw [he, computeStep_completes hi hj, ← hx]

theorem nopCompletes : NopCompletes := fun _ => does_of_issueStep (fun _ => rfl) fun _ _ _ => rfl

/-- Settles O1: a compute instruction is a compute step, and NOP an issue without a result. -/
theorem computeAndNopComplete : Obligations.ComputeAndNopComplete := ⟨computeCompletes, nopCompletes⟩

end Sys2Proof.Proofs

/-! ### Bits of numbers and of elements -/

namespace Sys2Proof.Machine

theorem bitOf_eq_testBit (v i : Nat) : bitOf v i = v.testBit i := by
  rw [bitOf, Nat.shiftRight_eq_div_pow, Nat.testBit_eq_decide_div_mod_eq]

/-- The top bit of a number tells whether it reaches the half of the range. -/
theorem testBit_top {n a : Nat} (h : a < 2 ^ (n + 1)) : a.testBit n = decide (2 ^ n ≤ a) := by
  by_cases ha : 2 ^ n ≤ a
  · rw [Nat.testBit_of_two_pow_le_and_two_pow_add_one_gt ha h, decide_eq_true ha]
  · rw [Nat.testBit_lt_two_pow (Nat.lt_of_not_le ha), decide_eq_false ha]

/-- A number in range is its own low bits. -/
theorem wrapTo_natCast {w n : Nat} (h : n < 2 ^ w) : wrapTo w n = n := by
  have hmod : ((n : Int) % 2 ^ w) = ((n % 2 ^ w : Nat) : Int) := by push_cast; rfl
  rw [wrapTo, hmod, Int.toNat_natCast, Nat.mod_eq_of_lt h]

/-- A negative difference wraps round once. -/
theorem wrapTo_sub {w m n : Nat} (h : m < n) (hn : n ≤ 2 ^ w) : wrapTo w ((m : Int) - n) = m + (2 ^ w - n) := by
  have hround : ((m : Int) - n) + 2 ^ w = ((m + (2 ^ w - n) : Nat) : Int) := by push_cast [hn]; ring
  rw [wrapTo, ← Int.add_emod_right, hround]
  exact wrapTo_natCast (by omega)

/-- A shift of the signed reading copies the top bit into the places it frees (R136). -/
theorem wrapTo_signedOf_shiftRight {w a s : Nat} (ha : a < 2 ^ w) (hs : s < w) :
    wrapTo w (signedOf w a >>> s) = a / 2 ^ s + if a.testBit (w - 1) then 2 ^ w - 2 ^ (w - s) else 0 := by
  have hw : w - 1 + 1 = w := by omega
  have hpow : 2 ^ w = 2 ^ (w - s) * 2 ^ s := by rw [← Nat.pow_add, Nat.sub_add_cancel hs.le]
  have hq : a / 2 ^ s < 2 ^ (w - s) := Nat.div_lt_of_lt_mul (by rw [Nat.mul_comm, ← hpow]; exact ha)
  have hle : 2 ^ (w - s) ≤ 2 ^ w := Nat.pow_le_pow_right (by decide) (Nat.sub_le w s)
  have htop : a.testBit (w - 1) = decide (2 ^ (w - 1) ≤ a) := testBit_top (by rwa [hw])
  rw [signedOf, Nat.mod_eq_of_lt ha, htop, Int.shiftRight_eq_div_pow]
  by_cases hneg : 2 ^ (w - 1) ≤ a
  · have hdiv : ((a : Int) - 2 ^ w) / (2 ^ s : Nat) = (a / 2 ^ s : Nat) - (2 ^ (w - s) : Nat) := by
      have hcast : ((2 : Int) ^ w) = (2 ^ (w - s) : Nat) * (2 ^ s : Nat) := by exact_mod_cast hpow
      rw [hcast, Int.sub_mul_ediv_right _ _ (by positivity), Int.natCast_ediv]
    rw [if_pos hneg, hdiv, wrapTo_sub hq hle, if_pos (decide_eq_true hneg)]
  · rw [if_neg hneg, if_neg (by simpa using hneg), ← Int.natCast_ediv]
    exact wrapTo_natCast (hq.trans_le hle)

/-- A bit of an element is a bit of the token (R4). -/
theorem testBit_elem (w : Nat) (t : Row) (e j : Nat) :
    (elem w t e).testBit j = (decide (j < w) && t.getLsbD (w * e + j)) := by
  rw [elem, Nat.testBit_mod_two_pow, Nat.testBit_shiftRight]
  rfl

/-- Tokens whose elements agree are the same. -/
theorem eq_of_elem_eq {w : Nat} (hw : 0 < w) {s t : Row} (h : ∀ e, elem w s e = elem w t e) : s = t := by
  refine BitVec.eq_of_getLsbD_eq fun i _ => ?_
  have hbit : (elem w s (i / w)).testBit (i % w) = (elem w t (i / w)).testBit (i % w) := by rw [h]
  simpa only [testBit_elem, Nat.mod_lt _ hw, decide_true, Bool.true_and, Nat.div_add_mod] using hbit

/-- An element past the token's end is zero. -/
theorem elem_past {w e : Nat} (t : Row) (h : 512 ≤ w * e) : elem w t e = 0 :=
  Nat.zero_of_testBit_eq_false fun j => by rw [testBit_elem, BitVec.getLsbD_of_ge _ _ (by omega), Bool.and_false]

theorem elem_and (w : Nat) (a b : Row) (e : Nat) : elem w (a &&& b) e = elem w a e &&& elem w b e :=
  Nat.eq_of_testBit_eq fun j => by
    simp only [Nat.testBit_and, testBit_elem, BitVec.getLsbD_and, Bool.and_left_comm, Bool.and_assoc, Bool.and_self_left]

theorem elem_or (w : Nat) (a b : Row) (e : Nat) : elem w (a ||| b) e = elem w a e ||| elem w b e :=
  Nat.eq_of_testBit_eq fun j => by simp only [Nat.testBit_or, testBit_elem, BitVec.getLsbD_or, Bool.and_or_distrib_left]

theorem elem_xor (w : Nat) (a b : Row) (e : Nat) : elem w (a ^^^ b) e = elem w a e ^^^ elem w b e :=
  Nat.eq_of_testBit_eq fun j => by simp only [Nat.testBit_xor, testBit_elem, BitVec.getLsbD_xor, Bool.and_xor_distrib_left]

/-- An element of the complement is all ones less the element. -/
theorem elem_not {w e : Nat} (a : Row) (h : w * e + w ≤ 512) : elem w (~~~a) e = ones w - elem w a e := by
  refine Nat.eq_of_testBit_eq fun j => ?_
  rw [ones, Nat.sub_sub, Nat.add_comm 1, Nat.testBit_two_pow_sub_succ (elem_lt w a e), testBit_elem, testBit_elem,
    BitVec.getLsbD_not]
  by_cases hj : j < w
  · simp [hj, show w * e + j < 512 by omega]
  · simp [hj]

theorem tyBits_pos (ty : BitVec 4) : 0 < tyBits ty := by revert ty; decide

theorem tyBits_le (ty : BitVec 4) : tyBits ty ≤ 512 := by revert ty; decide

/-- A whole token formed element by element is the token of those elements. -/
theorem lanesI_token {ty m : BitVec 4} {g : Nat → Nat} {t : Row} (hv : vOf m = false)
    (h : ∀ e, e < tyCount ty → g e = elem (tyBits ty) t e) : (lanesI ty m g).1 = t := by
  have hcount : laneCount ty m = tyCount ty := by rw [laneCount, hv]; rfl
  refine eq_of_elem_eq (tyBits_pos ty) fun e => ?_
  obtain he | he := Nat.lt_or_ge e (tyCount ty)
  · rw [lanesI_elem g (hcount ▸ he), h e he, Nat.mod_eq_of_lt (elem_lt ..)]
  · rw [lanesI_beyond g (hcount ▸ he), elem_past t]
    exact (tyCount_bits ty).symm.trans_le (Nat.mul_le_mul_left _ he)

/-- Under V a token formed element by element is its element 0 alone (R13). -/
theorem lanesI_scalar {ty m : BitVec 4} {g : Nat → Nat} {t : Row} (hv : vOf m = true) (h : g 0 = elem (tyBits ty) t 0) :
    (lanesI ty m g).1 = BitVec.ofNat 512 (t.toNat % 2 ^ tyBits ty) := by
  rw [lanesI, laneCount, hv]
  simp [ofVals, h, elem]

end Sys2Proof.Machine

/-! ### The bitwise group -/

namespace Sys2Proof.Proofs

open Sys2Proof.Machine Sys2Proof.Claims

/-- What `g` makes of two elements of any width is the element of what `op` makes of the tokens. -/
def FormsElementsOf (g : Nat → Nat → Nat → Nat) (op : Row → Row → Row) : Prop :=
  ∀ w a b e, w * e + w ≤ 512 → g w (elem w a e) (elem w b e) = elem w (op a b) e

/-- Without V such an instruction acts on the whole token. -/
theorem FormsElementsOf.token {g : Nat → Nat → Nat → Nat} {op : Row → Row → Row} (h : FormsElementsOf g op) {f : DFields}
    (hv : f.mod.getLsbD 3 = false) (a b : Row) : (rawBin g f a b).1 = op a b :=
  lanesI_token hv fun e he => h _ a b e (by
    rw [← Nat.mul_succ, ← tyCount_bits f.ty]
    exact Nat.mul_le_mul_left _ he)

/-- Under V it keeps element 0 of that (R13). -/
theorem FormsElementsOf.scalar {g : Nat → Nat → Nat → Nat} {op : Row → Row → Row} (h : FormsElementsOf g op) {f : DFields}
    (hv : f.mod.getLsbD 3 = true) (a b : Row) : (rawBin g f a b).1 = BitVec.ofNat 512 ((op a b).toNat % 2 ^ tyBits f.ty) :=
  lanesI_scalar hv (h _ a b 0 (by rw [Nat.mul_zero, Nat.zero_add]; exact tyBits_le f.ty))

theorem forms_and : FormsElementsOf (fun _ a b => a &&& b) (· &&& ·) := fun w a b e _ => (elem_and w a b e).symm

theorem forms_or : FormsElementsOf (fun _ a b => a ||| b) (· ||| ·) := fun w a b e _ => (elem_or w a b e).symm

theorem forms_xor : FormsElementsOf (fun _ a b => a ^^^ b) (· ^^^ ·) := fun w a b e _ => (elem_xor w a b e).symm

theorem forms_andn : FormsElementsOf (fun w a b => a &&& (ones w - b)) (· &&& ~~~·) :=
  fun w a b e h => by rw [elem_and, elem_not b h]

theorem forms_not : FormsElementsOf (fun w a _ => ones w - a) fun a _ => ~~~a := fun _ a _ _ h => (elem_not a h).symm

/-- Settles O8: each of the five forms the elements of the operation on tokens. -/
theorem bitwiseOnEveryBit : Obligations.BitwiseOnEveryBit := by
  refine ⟨fun f a b hv => ?_, fun f a b hv => ?_, rfl, ?_⟩
  · exact ⟨forms_and.token hv a b, forms_or.token hv a b, forms_xor.token hv a b, forms_andn.token hv a b, forms_not.token hv a 0⟩
  · exact ⟨forms_and.scalar hv a b, forms_or.scalar hv a b, forms_xor.scalar hv a b, forms_andn.scalar hv a b,
      forms_not.scalar hv a 0⟩
  · rintro i f (rfl | rfl | rfl | rfl | rfl) <;> rfl

/-! ### SEL and MOVH -/

/-- Settles O3: SEL chooses among raw elements, and the immediate rule of its shape is that of the type. -/
theorem selChooses : Obligations.SelChooses := ⟨fun _ _ _ _ => elements_lanesI fun _ => rfl, rfl⟩

theorem elements_movh (f : DFields) (a : Row) :
    Elements f (aluMovh f a) fun e => (elem (tyBits f.ty) a e * 65536) ||| f.imm.toNat :=
  elements_lanesI fun _ => congrArg (· ||| f.imm.toNat) (Nat.shiftLeft_eq _ 16)

/-- Settles O5: a 16-bit element has no room for A, and keeps the immediate. -/
theorem movhBuilds : Obligations.MovhBuilds := by
  refine ⟨elements_movh, rfl, fun f a e hw he => ?_⟩
  obtain ⟨-, hformed, -⟩ := elements_movh f a
  have h := hformed e he
  rw [hw, Nat.or_mod_two_pow, Nat.mul_mod_left, Nat.zero_or, Nat.mod_eq_of_lt f.imm.isLt] at h
  exact h

/-! ### Shifts -/

/-- An element-wise result has the elements it is formed from, up to what is cut off. -/
theorem elements_lanesI_mod {f : DFields} {g h : Nat → Nat} (hg : ∀ e, g e % 2 ^ tyBits f.ty = h e % 2 ^ tyBits f.ty) :
    Elements f (lanesI f.ty f.mod g) h :=
  ⟨rfl, fun e he => by rw [lanesI_elem g he, hg], fun _ he => lanesI_beyond g he⟩

/-- Settles O4: shifts of numbers are products and quotients by powers of two. -/
theorem shiftsReduce : Obligations.ShiftsReduce := by
  intro f a b _
  dsimp only
  have hs (e : Nat) : elem (tyBits f.ty) b e % tyBits f.ty < tyBits f.ty := Nat.mod_lt _ (tyBits_pos f.ty)
  refine ⟨?_, ?_, ?_, ?_⟩
  · exact elements_lanesI fun e => Nat.shiftLeft_eq ..
  · exact elements_lanesI fun e => Nat.shiftRight_eq_div_pow ..
  · exact elements_lanesI fun e => wrapTo_signedOf_shiftRight (elem_lt ..) (hs e)
  · refine elements_lanesI_mod fun e => ?_
    dsimp only
    rw [Nat.shiftLeft_eq, Nat.shiftRight_eq_div_pow, Nat.or_mod_two_pow, Nat.or_mod_two_pow, Nat.mod_mod]

end Sys2Proof.Proofs

/-! ### NaNs and signs of patterns -/

namespace Sys2Proof.Machine

/-- The formats that the sign instructions take (f16, bf16, f32), whose elements are sign, exponent and fraction, with infinities
(R55). -/
structure Fmt.Ieee (k : Fmt) : Prop where
  e4 : k.e4 = false
  eb : 0 < k.eb
  mb : 0 < k.mb

/-- The magnitude of infinity: an exponent of all ones and no fraction (Table 2-3). -/
def Fmt.infinity (k : Fmt) : Nat := 2 ^ (k.eb + k.mb) - 2 ^ k.mb

/-- A pattern whose magnitude lies past infinity (R55). -/
def Fmt.IsNaN (k : Fmt) (x : Nat) : Prop := k.infinity < x % 2 ^ (k.eb + k.mb)

theorem Fmt.infinity_eq (k : Fmt) : k.infinity = 2 ^ k.mb * (2 ^ k.eb - 1) := by
  rw [Fmt.infinity, Nat.add_comm, Nat.pow_add, Nat.mul_sub_one]

/-- The canonical NaN, half a fraction past infinity, fits in its format's width. -/
theorem Fmt.canonical_lt (k : Fmt) : k.infinity + 2 ^ (k.mb - 1) < 2 ^ (k.eb + k.mb + 1) := by
  have hhalf : 2 ^ (k.mb - 1) ≤ 2 ^ k.mb := Nat.pow_le_pow_right (by decide) (Nat.sub_le ..)
  have hfrac : 2 ^ k.mb ≤ 2 ^ (k.eb + k.mb) := Nat.pow_le_pow_right (by decide) (Nat.le_add_left ..)
  have hpos := Nat.two_pow_pos k.mb
  rw [Fmt.infinity, Nat.pow_succ]
  omega

/-- A pattern is a NaN where its exponent is all ones and its fraction is not zero. -/
theorem Fmt.isNaN_iff (k : Fmt) (x : Nat) :
    k.IsNaN x ↔ x / 2 ^ k.mb % 2 ^ k.eb = 2 ^ k.eb - 1 ∧ x % 2 ^ k.mb ≠ 0 := by
  have hsplit : x % 2 ^ (k.eb + k.mb) = x % 2 ^ k.mb + 2 ^ k.mb * (x / 2 ^ k.mb % 2 ^ k.eb) := by
    rw [Nat.add_comm, Nat.pow_add, Nat.mod_mul]
  have hfrac : x % 2 ^ k.mb < 2 ^ k.mb := Nat.mod_lt _ (Nat.two_pow_pos _)
  have hexp : x / 2 ^ k.mb % 2 ^ k.eb ≤ 2 ^ k.eb - 1 := Nat.le_sub_one_of_lt (Nat.mod_lt _ (Nat.two_pow_pos _))
  rw [Fmt.IsNaN, k.infinity_eq, hsplit]
  obtain heq | hlt := hexp.eq_or_lt
  · rw [heq]; omega
  · have hmul := Nat.mul_le_mul_left (2 ^ k.mb) (Nat.succ_le_of_lt hlt)
    rw [Nat.mul_succ] at hmul
    omega

/-- The exponent that the decoding of a pattern reads. -/
theorem Fmt.Ieee.field_exponent {k : Fmt} (h : k.Ieee) (x : Nat) :
    field x (k.eb + k.mb - 1) k.mb = x / 2 ^ k.mb % 2 ^ k.eb := by
  have := h.eb
  rw [field, Nat.shiftRight_eq_div_pow, show k.eb + k.mb - 1 + 1 - k.mb = k.eb by omega]

/-- A fraction lies below its half where its top bit is clear (R56). -/
theorem Fmt.Ieee.fraction_lt_half {k : Fmt} (h : k.Ieee) (x : Nat) :
    decide (x % 2 ^ k.mb < 2 ^ (k.mb - 1)) = !x.testBit (k.mb - 1) := by
  have hmb : k.mb - 1 + 1 = k.mb := Nat.sub_add_cancel h.mb
  have hbit : (x % 2 ^ k.mb).testBit (k.mb - 1) = x.testBit (k.mb - 1) := by
    rw [Nat.testBit_mod_two_pow, decide_eq_true (by omega), Bool.true_and]
  rw [← hbit, testBit_top (hmb.symm ▸ Nat.mod_lt _ (Nat.two_pow_pos _))]
  simp only [← decide_not, Nat.not_le]

/-- A NaN is signalling where the top bit of its fraction is clear (R55, R56). -/
theorem Fmt.Ieee.unpack_nan {k : Fmt} (h : k.Ieee) {x : Nat} (hx : k.IsNaN x) : unpack k x = .nan (!x.testBit (k.mb - 1)) := by
  obtain ⟨hexp, hfrac⟩ := (k.isNaN_iff x).1 hx
  simp [unpack, h.e4, h.field_exponent, hexp, hfrac, h.fraction_lt_half]

/-- Any other pattern is a value with the sign of its top bit. -/
theorem Fmt.Ieee.unpack_value {k : Fmt} (h : k.Ieee) {x : Nat} (hx : ¬ k.IsNaN x) :
    isNaN (unpack k x) = false ∧ signV (unpack k x) = bitOf x (k.eb + k.mb) := by
  rw [k.isNaN_iff, not_and_not_right] at hx
  unfold unpack
  simp only [h.e4, h.field_exponent, Bool.false_and, Bool.not_false, Bool.true_and, beq_iff_eq, Bool.false_eq_true, if_false]
  split
  case isTrue hexp => rw [if_pos (hx hexp)]; exact ⟨rfl, rfl⟩
  case isFalse => split <;> exact ⟨rfl, rfl⟩

/-- FABS and FNEG give the canonical NaN for a NaN, and raise NV where it is signalling (R58). -/
theorem Fmt.Ieee.fSignOp_nan {k : Fmt} (h : k.Ieee) (neg : Bool → Bool) {x : Nat} (hx : k.IsNaN x) :
    fSignOp k neg x = (k.infinity + 2 ^ (k.mb - 1), if x.testBit (k.mb - 1) then fNone else fNV) := by
  have hcanon : canonNaN k = k.infinity + 2 ^ (k.mb - 1) := by
    rw [canonNaN, h.e4, k.infinity_eq, Nat.shiftLeft_eq, Nat.mul_comm]; rfl
  rw [fSignOp, h.unpack_nan hx, ← hcanon]
  cases x.testBit (k.mb - 1) <;> rfl

/-- Of any other pattern they change the sign alone (R148). -/
theorem Fmt.Ieee.fSignOp_value {k : Fmt} (h : k.Ieee) (neg : Bool → Bool) {x : Nat} (hx : ¬ k.IsNaN x) :
    fSignOp k neg x =
      (x % 2 ^ (k.eb + k.mb) + (if neg (bitOf x (k.eb + k.mb)) then 2 ^ (k.eb + k.mb) else 0), fNone) := by
  obtain ⟨hnan, hsign⟩ := h.unpack_value hx
  simp only [fSignOp, hnan, hsign, Bool.false_eq_true, if_false]

/-! ### FABS and FNEG -/

/-- The flags of a result whose elements each raise `fl` or none: `fl` where some element raises it, else none. -/
theorem lanes_flags {ty m : BitVec 4} {g : Nat → Nat × Fpx} {fl : Fpx} {P : Nat → Prop}
    (h : ∀ e, ((g e).2 = fl ∧ P e) ∨ ((g e).2 = fNone ∧ ¬ P e)) :
    ((lanes ty m g).2 = fl ∧ ∃ e, e < laneCount ty m ∧ P e) ∨
      ((lanes ty m g).2 = fNone ∧ ∀ e, e < laneCount ty m → ¬ P e) := by
  unfold lanes
  dsimp only
  induction laneCount ty m with
  | zero => exact .inr ⟨rfl, fun _ he => absurd he (Nat.not_lt_zero _)⟩
  | succ n ih =>
    rw [List.range_succ, List.map_append, List.foldl_append, List.map_singleton, List.foldl_cons, List.foldl_nil]
    obtain ⟨hf, e, he, hp⟩ | ⟨hf, hp⟩ := ih <;> obtain ⟨hn, hpn⟩ | ⟨hn, hpn⟩ := h n <;> rw [hf, hn]
    · exact .inl ⟨BitVec.or_self, e, Nat.lt_succ_of_lt he, hp⟩
    · exact .inl ⟨BitVec.or_zero, e, Nat.lt_succ_of_lt he, hp⟩
    · exact .inl ⟨BitVec.zero_or, n, n.lt_succ_self, hpn⟩
    · exact .inr ⟨BitVec.or_self, fun e he => (Nat.lt_succ_iff_lt_or_eq.1 he).elim (hp e) fun heq => heq ▸ hpn⟩

/-- FABS and FNEG as one instruction of what becomes of the sign. -/
def aluSign (neg : Bool → Bool) (f : DFields) (a : Row) : Row × Fpx := fpBin (fun k _ a _ => fSignOp k neg a) f a 0

theorem aluFabs_eq (f : DFields) (a : Row) : aluFabs f a = aluSign (fun _ => false) f a := rfl

theorem aluFneg_eq (f : DFields) (a : Row) : aluFneg f a = aluSign (fun n => !n) f a := rfl

/-- The types of the sign instructions have such formats, a bit for the sign beside exponent and fraction. -/
theorem ieee_of_type {ty : BitVec 4} (h : ty = 12 ∨ ty = 13 ∨ ty = 14) :
    (fmtOf ty).Ieee ∧ tyBits ty = (fmtOf ty).eb + (fmtOf ty).mb + 1 := by
  obtain rfl | rfl | rfl := h <;> exact ⟨⟨rfl, by decide, by decide⟩, rfl⟩

section

variable {f : DFields} (hk : (fmtOf f.ty).Ieee) (hw : tyBits f.ty = (fmtOf f.ty).eb + (fmtOf f.ty).mb + 1)

include hk in
/-- NV is raised where an element formed is a signalling NaN, and no other flag (R56, R58, R148). -/
theorem aluSign_flags (neg : Bool → Bool) (a : Row) :
    let x (e : Nat) : Nat := elem (tyBits f.ty) a e
    let quiet (e : Nat) : Bool := (x e).testBit ((fmtOf f.ty).mb - 1)
    ((aluSign neg f a).2 = fNV ∧ ∃ e, e < laneCount f.ty f.mod ∧ (fmtOf f.ty).IsNaN (x e) ∧ quiet e = false) ∨
      ((aluSign neg f a).2 = fNone ∧ ∀ e, e < laneCount f.ty f.mod → (fmtOf f.ty).IsNaN (x e) → quiet e = true) := by
  intro x quiet
  refine (lanes_flags fun e => ?_).imp_right (And.imp_right fun h e he hx => Bool.of_not_eq_false (not_and.1 (h e he) hx))
  dsimp only
  by_cases hx : (fmtOf f.ty).IsNaN (elem (tyBits f.ty) a e)
  · rw [hk.fSignOp_nan neg hx]
    cases hq : quiet e with
    | false => exact .inl ⟨if_neg (Bool.not_eq_true _ ▸ hq), hx, rfl⟩
    | true => exact .inr ⟨if_pos hq, fun h => nomatch h.2⟩
  · rw [hk.fSignOp_value neg hx]
    exact .inr ⟨rfl, fun h => hx h.1⟩

include hk hw in
/-- An element that is a NaN becomes the canonical NaN. -/
theorem aluSign_elem_nan (neg : Bool → Bool) {a : Row} {e : Nat} (he : e < laneCount f.ty f.mod)
    (hx : (fmtOf f.ty).IsNaN (elem (tyBits f.ty) a e)) :
    elem (tyBits f.ty) (aluSign neg f a).1 e = (fmtOf f.ty).infinity + 2 ^ ((fmtOf f.ty).mb - 1) := by
  refine (lanes_elem _ he).trans ?_
  dsimp only
  rw [hk.fSignOp_nan neg hx, hw]
  exact Nat.mod_eq_of_lt (fmtOf f.ty).canonical_lt

include hk hw in
/-- Of any other element the sign alone changes. -/
theorem aluSign_elem_value (neg : Bool → Bool) {a : Row} {e : Nat} (he : e < laneCount f.ty f.mod)
    (hx : ¬ (fmtOf f.ty).IsNaN (elem (tyBits f.ty) a e)) :
    let top : Nat := 2 ^ ((fmtOf f.ty).eb + (fmtOf f.ty).mb)
    elem (tyBits f.ty) (aluSign neg f a).1 e =
      elem (tyBits f.ty) a e % top + if neg (decide (top ≤ elem (tyBits f.ty) a e)) then top else 0 := by
  refine (lanes_elem _ he).trans ?_
  dsimp only
  have hlt : elem (tyBits f.ty) a e < 2 ^ ((fmtOf f.ty).eb + (fmtOf f.ty).mb + 1) := hw ▸ elem_lt (tyBits f.ty) a e
  have hmag := Nat.mod_lt (elem (tyBits f.ty) a e) (Nat.two_pow_pos ((fmtOf f.ty).eb + (fmtOf f.ty).mb))
  rw [hk.fSignOp_value neg hx, bitOf_eq_testBit, testBit_top hlt]
  refine Nat.mod_eq_of_lt (Nat.lt_of_lt_of_eq ?_ (congrArg (2 ^ ·) hw.symm))
  rw [Nat.pow_succ]
  dsimp only
  split <;> omega

end

end Sys2Proof.Machine

namespace Sys2Proof.Proofs

open Sys2Proof.Machine Sys2Proof.Claims

/-- Settles O6: FABS and FNEG decode an element, and change its sign where it is no NaN. -/
theorem signsAlone : Obligations.SignsAlone := by
  intro f a hty
  obtain ⟨hk, hw⟩ := ieee_of_type hty
  have hw' : tyBits f.ty - 1 = (fmtOf f.ty).eb + (fmtOf f.ty).mb := by rw [hw, Nat.add_sub_cancel]
  dsimp only
  rw [hw', aluFabs_eq, aluFneg_eq]
  refine ⟨⟨?_, ?_⟩, fun e he => ⟨fun hx => ?_, fun hx => ?_⟩⟩
  · exact aluSign_flags hk (fun _ => false) a
  · exact aluSign_flags hk (fun n => !n) a
  · exact ⟨aluSign_elem_nan hk hw _ he hx, aluSign_elem_nan hk hw _ he hx⟩
  · refine ⟨aluSign_elem_value hk hw _ he hx, (aluSign_elem_value hk hw _ he hx).trans ?_⟩
    simp only [Bool.not_eq_true', decide_eq_false_iff_not, Nat.not_le]

/-! ### Words written out -/

/-- Settles O52: the decoder run on each word. -/
theorem wordsDecode : Obligations.WordsDecode := by
  unfold Obligations.WordsDecode
  decide

end Sys2Proof.Proofs

/-!
PROOFS. The statements of chapter 6's family: the window instructions (R165, R166, R172), fences and timestamps (R191, R192), stores
and atomics without a target (R182, R188), misaligned accesses (R180, R183, R195), the slices and store units (R362 to R368), and the
matrix questions, tier commands and window images (R242, R244, R260 to R262, R168 to R171). Elaborated one after another, as above.
-/

section

set_option Elab.async false

/-! ### An instruction that issues runs its own change -/

namespace Sys2Proof.Proofs

open Sys2Proof.Machine Sys2Proof.Claims

/-- An instruction that issues runs its own change with the operands gathered. -/
theorem issue_of_issues {i : Instr} {s : State} {who : Agent} {slot : Nat} {e : Exec} {b : Block} (h : Issues s who slot i e b)
    (go : Issue → Fabric → Fabric) : s.fab.issue s.run.acting i go = go (gather who slot i e) s.fab :=
  congrArg State.fab (Host.Outcome.next.inj
    (issueStep_offered (go := go) h.acting h.running h.issuing h.offered h.live h.block h.free h.ordered))

theorem issueStep_of_issues {i : Instr} {s : State} {x : Issue} {e : Exec} {b : Block} (h : Issues s x.who x.slot i e b)
    (hx : x = gather x.who x.slot i e) (go : Issue → Fabric → Fabric) : issueStep i go s = .next (s.onFabric (go x)) := by
  rw [issueStep, State.onFabric, issue_of_issues h, ← hx]; rfl

/-- As `does_of_issueStep`, where the block that the agent runs is known. -/
theorem does_of_issueStep_block {i : Instr} {go : Issue → Fabric → Fabric} {pre : Fabric → Issue → Prop}
    {post : Issue → Fabric → Fabric} (he : ∀ s, exec i s = issueStep i go s)
    (h : ∀ x f b, (f.core x.who.core).blockOf x.who x.exec = some b → pre f x → go x f = post x f) : Does i pre post := by
  intro s who slot e b hi hp
  rw [he, issueStep, State.onFabric, issue_of_issues hi, h _ _ b hi.block hp]

end Sys2Proof.Proofs

/-! ### Window instructions -/

namespace Sys2Proof.Proofs

open Sys2Proof.Machine Sys2Proof.Claims

/-- WRD delivers the row at its offset, or is out of range at or past the capacity (R165). -/
theorem does_wrd (w : WFields) (n : Nat) :
    Does (.wrd w)
      (fun f x => (f.core x.who.core).winOf x.who w.port.toNat = some n ∧ w.dist.toNat < ((f.core x.who.core).winCfg n).cap)
      (fun x f => x.token ((f.core x.who.core).rowFrom x.exec n w.dist.toNat) f) ∧
    Does (.wrd w)
      (fun f x => (f.core x.who.core).winOf x.who w.port.toNat = some n ∧ ((f.core x.who.core).winCfg n).cap ≤ w.dist.toNat)
      (fun x f => f.faultAt x.who x.slot x.i 0x20 w.dist.toNat 0) := by
  refine ⟨does_of_issueStep (fun _ => rfl) ?_, does_of_issueStep (fun _ => rfl) ?_⟩ <;> rintro x f ⟨hw, hc⟩
  · simp only [hw, Nat.not_le.2 hc, if_false]
  · simp only [hw, hc, if_true, Issue.fault]

/-- WRDX delivers a row that the window holds, waits for one that it has room for, and else is out of range (R165). -/
theorem does_wrdx (w : WFields) (n : Nat) :
    Does (.wrdx w)
      (fun f x => (f.core x.who.core).winOf x.who w.port.toNat = some n ∧
        wrdxOffset w x.a < ((f.core x.who.core).winCfg n).cap ∧ wrdxOffset w x.a < (f.core x.who.core).readable n)
      (fun x f => x.token ((f.core x.who.core).rowFrom x.exec n (wrdxOffset w x.a)) f) ∧
    Does (.wrdx w)
      (fun f x => (f.core x.who.core).winOf x.who w.port.toNat = some n ∧
        wrdxOffset w x.a < ((f.core x.who.core).winCfg n).cap ∧ (f.core x.who.core).readable n ≤ wrdxOffset w x.a)
      (fun x f => x.wait (.row (wrdxOffset w x.a)) f) ∧
    Does (.wrdx w)
      (fun f x => (f.core x.who.core).winOf x.who w.port.toNat = some n ∧
        ((f.core x.who.core).winCfg n).cap ≤ wrdxOffset w x.a)
      (fun x f => f.faultAt x.who x.slot x.i 0x20 (wrdxOffset w x.a) 0) := by
  refine ⟨does_of_issueStep (fun _ => rfl) ?_, does_of_issueStep (fun _ => rfl) ?_, does_of_issueStep (fun _ => rfl) ?_⟩
  · rintro x f ⟨hw, hc, hr⟩
    simp only [hw, Nat.not_le.2 hc, hr, if_false, if_true]
  · rintro x f ⟨hw, hc, hr⟩
    simp only [hw, Nat.not_le.2 hc, Nat.not_lt.2 hr, if_false]
  · rintro x f ⟨hw, hc⟩
    simp only [hw, hc, if_true, Issue.fault]

/-- WUPD buffers an update of a row filled at firing start, and else is out of range (R165). -/
theorem does_wupd (w : WFields) (n : Nat) :
    Does (.wupd w)
      (fun f x => (f.core x.who.core).winOf x.who w.port.toNat = some n ∧ w.dist.toNat < sget 0 x.exec.snap.f0 n)
      (fun x f => x.buffer (.upd w.port.toNat w.dist.toNat ⟨x.a, x.ember⟩) f) ∧
    Does (.wupd w)
      (fun f x => (f.core x.who.core).winOf x.who w.port.toNat = some n ∧ sget 0 x.exec.snap.f0 n ≤ w.dist.toNat)
      (fun x f => f.faultAt x.who x.slot x.i 0x20 w.dist.toNat 0) := by
  refine ⟨does_of_issueStep (fun _ => rfl) ?_, does_of_issueStep (fun _ => rfl) ?_⟩ <;> rintro x f ⟨hw, hc⟩
  · simp only [hw, Nat.not_le.2 hc, if_false]
  · simp only [hw, hc, if_true, Issue.fault]

/-- WCNT of a bound port delivers the counts of its window (R166). -/
theorem does_wcnt (w : WFields) (n : Nat) :
    Does (.wcnt w) (fun f x => (f.core x.who.core).winOf x.who w.port.toNat = some n)
      (fun x f => x.result ((f.core x.who.core).countToken x.exec n) fNone f) :=
  does_of_issueStep (fun _ => rfl) fun x f hw => by simp only [hw]

theorem windowOpsComplete : WindowOpsComplete := by
  refine ⟨fun w n => (does_wrd w n).1, fun w n => (does_wrdx w n).1, fun w n => (does_wrdx w n).2.1, fun w n => (does_wupd w n).1,
    fun w => ?_, fun w => ?_, fun w => ?_, does_wcnt, fun d => ?_⟩
  · exact does_of_issueStep (fun _ => rfl) fun _ _ _ => rfl
  · exact does_of_issueStep (fun _ => rfl) fun _ _ h => if_neg h
  · exact does_of_issueStep (fun _ => rfl) fun _ _ h => if_pos h
  · exact does_of_issueStep (fun _ => rfl) fun _ _ _ => rfl

theorem windowRangeFaults : WindowRangeFaults :=
  ⟨fun w n => (does_wrd w n).2, fun w n => (does_wrdx w n).2.2, fun w n => (does_wupd w n).2⟩

/-- Settles O10: each instruction by where its offset lies. -/
theorem windowInstructionsComplete : Obligations.WindowInstructionsComplete :=
  ⟨windowOpsComplete, windowRangeFaults⟩

/-- An element of the count token is one of the four counts, and zero past them (R166). -/
theorem elem_countToken (k : Core) (e : Exec) (n j : Nat) : elem 32 (k.countToken e n) j =
    [sget 0 e.snap.f0 n, (k.winCfg n).cap - sget 0 e.snap.f0 n, (k.winCfg n).cap, sget 0 e.snap.head0 n].getD j 0 % 2 ^ 32 :=
  elem_ofVals (by simp) j

/-- Settles O9: the token is packed from the four counts of the firing's start. -/
theorem wcntDescribesWindow : Obligations.WcntDescribesWindow := by
  intro w s who slot e b n hi hw
  have hel := elem_countToken (s.fab.core who.core) e n
  refine ⟨_, does_wcnt w n s who slot e b hi hw, hel 0, hel 1, hel 2, hel 3, fun j hj => (hel j).trans ?_⟩
  rw [List.getD_eq_default _ _ hj, Nat.zero_mod]

end Sys2Proof.Proofs

/-! ### Fences and timestamps -/

namespace Sys2Proof.Proofs

open Sys2Proof.Machine Sys2Proof.Claims

/-- A FENCE of an actor that is satisfied makes its next firing wait (R191). -/
theorem fenced_actor {x : Issue} (hx : IsActor x) (scope : Nat) (f : Fabric) :
    x.fenced scope true f = fenceNext x scope (x.noResult f) := by
  obtain ⟨c, a, hw⟩ := hx
  simp only [Issue.fenced, fenceNext, hw]
  rfl

/-- One of a sequencer, or one that no next firing waits for, only completes. -/
theorem fenced_completes {x : Issue} {next : Bool} (h : IsSeq x ∨ next = false) (scope : Nat) (f : Fabric) :
    x.fenced scope next f = x.noResult f := by
  obtain ⟨c, hw⟩ | rfl := h
  · simp only [Issue.fenced, hw]
  · unfold Issue.fenced
    split <;> rfl

section

variable {d : DFields} {f : Fabric} {x : Issue} {b : Block} (hb : (f.core x.who.core).blockOf x.who x.exec = some b)

include hb in
/-- What a fence asks of the block that runs it. -/
theorem forall_block_iff {p : Block → Prop} : (∀ b, (f.core x.who.core).blockOf x.who x.exec = some b → p b) ↔ p b :=
  ⟨fun h => h b hb, fun h _ hb' => Option.some.inj (hb.symm.trans hb') ▸ h⟩

include hb in
theorem actorFenced_iff : ActorFenced d f x ↔
    (f.unitsDone x.who (d.imm.toNat % 4) && f.lowerDone b x.exec x.slot (d.imm.toNat % 4) isEager) = true := by
  rw [ActorFenced, forall_block_iff hb, Bool.and_eq_true]

include hb in
theorem seqFenced_iff : SeqFenced d f x ↔
    (f.classDone x.who.core 0 (d.imm.toNat % 4) (x.bound f) && f.classDone x.who.core 3 (d.imm.toNat % 4) (x.bound f) &&
      f.lowerDone b x.exec x.slot (d.imm.toNat % 4) fun i => requestIn 0 i || requestIn 3 i) = true := by
  rw [SeqFenced, forall_block_iff hb, Bool.and_eq_true, Bool.and_eq_true, and_assoc]

include hb in
theorem crossFenced_iff : CrossFenced d f x ↔
    (f.classDone x.who.core (d.imm.toNat % 16) (d.imm.toNat / 256 % 4) (x.bound f) &&
      f.lowerDone b x.exec x.slot (d.imm.toNat / 256 % 4) (requestIn (d.imm.toNat % 16))) = true := by
  rw [CrossFenced, forall_block_iff hb, Bool.and_eq_true]

end

/-- The step of a FENCE: what it waits for, by its agent. -/
theorem exec_fence (d : DFields) : ∃ go : Issue → Fabric → Fabric, (∀ s, exec (.fence d) s = issueStep (.fence d) go s) ∧
    ∀ x f b, (f.core x.who.core).blockOf x.who x.exec = some b →
      (IsActor x → (ActorFenced d f x → go x f = x.fenced (d.imm.toNat % 4) true f) ∧ (¬ ActorFenced d f x → go x f = x.hold f)) ∧
      (IsSeq x → (SeqFenced d f x → go x f = x.fenced (d.imm.toNat % 4) true f) ∧ (¬ SeqFenced d f x → go x f = x.hold f)) := by
  refine ⟨_, fun _ => rfl, fun x f b hb => ⟨fun ⟨c, a, hw⟩ => ?_, fun ⟨c, hw⟩ => ?_⟩⟩
  · rw [actorFenced_iff hb]
    simp only [hb]
    rw [hw]
    exact ⟨fun h => if_pos h, fun h => if_neg h⟩
  · rw [seqFenced_iff hb]
    simp only [hb]
    rw [hw]
    exact ⟨fun h => if_pos h, fun h => if_neg h⟩

theorem does_fence (d : DFields) :
    Does (.fence d) (fun f x => IsActor x ∧ ActorFenced d f x) (fun x f => fenceNext x (d.imm.toNat % 4) (x.noResult f)) ∧
    Does (.fence d) (fun f x => IsSeq x ∧ SeqFenced d f x) Issue.noResult ∧
    Does (.fence d) (fun f x => IsActor x ∧ ¬ ActorFenced d f x ∨ IsSeq x ∧ ¬ SeqFenced d f x) Issue.hold := by
  obtain ⟨go, hgo, h⟩ := exec_fence d
  refine ⟨does_of_issueStep_block hgo ?_, does_of_issueStep_block hgo ?_, does_of_issueStep_block hgo ?_⟩
  · rintro x f b hb ⟨hx, hf⟩
    exact (((h x f b hb).1 hx).1 hf).trans (fenced_actor hx _ f)
  · rintro x f b hb ⟨hx, hf⟩
    exact (((h x f b hb).2 hx).1 hf).trans (fenced_completes (.inl hx) _ f)
  · rintro x f b hb (⟨hx, hf⟩ | ⟨hx, hf⟩)
    · exact ((h x f b hb).1 hx).2 hf
    · exact ((h x f b hb).2 hx).2 hf

/-- XFENCE waits for its first class alone, and its next firing with it where that is a class of the core's own (R191). -/
theorem does_xfence (d : DFields) :
    Does (.xfence d) (fun f x => IsActor x ∧ (d.imm.toNat % 16 = 0 ∨ d.imm.toNat % 16 = 3) ∧ CrossFenced d f x)
      (fun x f => fenceNext x (d.imm.toNat / 256 % 4) (x.noResult f)) ∧
    Does (.xfence d) (fun f x => (IsSeq x ∨ d.imm.toNat % 16 ≠ 0 ∧ d.imm.toNat % 16 ≠ 3) ∧ CrossFenced d f x) Issue.noResult ∧
    Does (.xfence d) (fun f x => ¬ CrossFenced d f x) Issue.hold := by
  refine ⟨does_of_issueStep_block (fun _ => rfl) ?_, does_of_issueStep_block (fun _ => rfl) ?_,
    does_of_issueStep_block (fun _ => rfl) ?_⟩
  · rintro x f b hb ⟨hx, hc, hf⟩
    simp only [hb]
    rw [if_pos ((crossFenced_iff hb).1 hf), show (decide (d.imm.toNat % 16 = 0) || decide (d.imm.toNat % 16 = 3)) = true by simpa using hc]
    exact fenced_actor hx _ f
  · rintro x f b hb ⟨hx, hf⟩
    simp only [hb]
    rw [if_pos ((crossFenced_iff hb).1 hf)]
    exact fenced_completes (hx.imp_right fun ⟨h0, h3⟩ => by simp [h0, h3]) _ f
  · rintro x f b hb hf
    simp only [hb]
    exact if_neg fun h => hf ((crossFenced_iff hb).2 h)

theorem fencesComplete : FencesComplete :=
  ⟨fun d => (does_fence d).1, fun d => (does_fence d).2.1, fun d => (does_fence d).2.2,
    fun d => (does_xfence d).1, fun d => (does_xfence d).2.1, fun d => (does_xfence d).2.2⟩

theorem timestampsComplete : TimestampsComplete := by
  refine ⟨fun d => does_of_issueStep (fun _ => rfl) ?_, fun d => does_of_issueStep (fun _ => rfl) ?_,
    fun d => does_of_issueStep (fun _ => rfl) ?_, fun d => does_of_issueStep (fun _ => rfl) fun _ _ _ => rfl⟩
  · rintro x f ⟨ht, hv⟩
    have hge : ¬ BitVec.ofNat 64 (elem 64 x.a 0) < (f.region (f.core x.who.core).regionId).horizon := BitVec.not_lt.2 hv
    simp only [ht, Option.isSome_none, Bool.false_eq_true, if_false, hge]
  · rintro x f ht
    exact if_pos (Option.isSome_iff_ne_none.2 ht)
  · rintro x f ⟨ht, hv⟩
    have hval : (BitVec.ofNat 64 (elem 64 x.a 0)).toNat = elem 64 x.a 0 := BitVec.toNat_ofNat .. ▸ Nat.mod_eq_of_lt (elem_lt ..)
    simp only [ht, Option.isSome_none, Bool.false_eq_true, if_false, hv, if_true, hval]
    rfl

/-- Settles O16: a fence by whether its accesses are performed, TSET by the timestamp it finds and the horizon. -/
theorem fencesAndTimestampsComplete : Obligations.FencesAndTimestampsComplete :=
  ⟨fencesComplete, timestampsComplete⟩

end Sys2Proof.Proofs

/-! ### Stores and atomics without a target -/

namespace Sys2Proof.Machine

/-- Lanes without translations that the core's cache holds pages for are all admitted (R182). -/
theorem Fabric.checkLanes_held {f : Fabric} {who : Agent} {e : Exec} {i : Instr} {ls : List ReqLane} (hp : ∀ l ∈ ls, l.pa = none)
    (h : ∀ l ∈ ls, ∃ pa cls page, f.checkLane who e i l = .ok pa cls page) : (f.checkLanes who e i ls).2 = none := by
  induction ls with
  | nil => rfl
  | cons l ls ih =>
    rw [List.forall_mem_cons] at hp h
    obtain ⟨pa, cls, page, hok⟩ := h.1
    simp only [Fabric.checkLanes, hp.1, hok, ih hp.2 h.2]
    rfl

/-- Where none is refused and the cache does not hold every page, the check ends with a walk to ask for (R294). -/
theorem Fabric.checkLanes_walks {f : Fabric} {who : Agent} {e : Exec} {i : Instr} {ls : List ReqLane} (hp : ∀ l ∈ ls, l.pa = none)
    (hc : ∀ l ∈ ls, ∀ code a hits, f.checkLane who e i l ≠ .fault code a hits)
    (hn : ¬ ∀ l ∈ ls, ∃ pa cls page, f.checkLane who e i l = .ok pa cls page) :
    ∃ l, (f.checkLanes who e i ls).2 = some (l, .walk) := by
  induction ls with
  | nil => exact absurd (List.forall_mem_nil _) hn
  | cons l ls ih =>
    rw [List.forall_mem_cons] at hp hc hn
    cases hl : f.checkLane who e i l with
    | fault code a hits => exact absurd hl (hc.1 code a hits)
    | walk => exact ⟨l, by simp only [Fabric.checkLanes, hp.1, hl]; rfl⟩
    | ok pa cls page =>
      obtain ⟨m, hm⟩ := ih hp.2 hc.2 fun h => hn ⟨⟨pa, cls, page, hl⟩, h⟩
      exact ⟨m, by simp only [Fabric.checkLanes, hp.1, hl, hm]; rfl⟩

/-- A lane misaligned or struck at its issue ends the check at once (R180, R428). -/
theorem Fabric.checkLanes_early {f : Fabric} {who : Agent} {e : Exec} {i : Instr} {l : ReqLane} {ls : List ReqLane} {code a : Nat}
    {hits : List (Nat × Nat)} (hp : l.pa = none) (he : l.early = some (code, a, hits)) :
    f.checkLanes who e i (l :: ls) = (l :: ls, some (l, .fault code a hits)) := by
  have hl : f.checkLane who e i l = .fault code a hits := by simp only [Fabric.checkLane, he]
  simp only [Fabric.checkLanes, hp, hl]
  rfl

/-- The lanes that operands ask for have no translation. -/
theorem memLanes_fresh (i : Instr) (a b c : Row) : ∀ l ∈ memLanes i a b c, l.pa = none := by
  unfold memLanes
  split
  case h_1 | h_3 | h_4 | h_5 => exact List.forall_mem_singleton.2 rfl
  case h_2 => exact List.forall_mem_cons.2 ⟨rfl, List.forall_mem_singleton.2 rfl⟩
  case h_6 f _ _ _ _ _ _ => exact formLanes_fresh f a b c
  case h_7 => exact List.forall_mem_nil _

end Sys2Proof.Machine

namespace Sys2Proof.Proofs

open Sys2Proof.Machine Sys2Proof.Claims

/-- ST, STS, SCAT, or an atomic whose two targets are none. -/
theorem isStoreOp_cases {i : Instr} (h : isStoreOp i = true) :
    (∃ m, i = .st m ∨ i = .sts m ∨ i = .scat m) ∨ isAtomicOp i = true ∧ isEager i = false := by
  revert h
  unfold isStoreOp
  split
  case h_1 m => exact fun _ => .inl ⟨m, .inl rfl⟩
  case h_2 m => exact fun _ => .inl ⟨m, .inr (.inl rfl)⟩
  case h_3 m => exact fun _ => .inl ⟨m, .inr (.inr rfl)⟩
  case h_4 =>
    intro h
    simp only [Bool.and_eq_true, decide_eq_true_eq] at h
    obtain ⟨⟨ha, h1⟩, h2⟩ := h
    exact .inr ⟨ha, by simp [isEager, tgtNone, h1, h2]⟩

theorem exec_atomic {i : Instr} (h : isAtomicOp i = true) (s : State) : exec i s = atomicStep i s :=
  isAtomicOp_elim (P := fun i => exec i s = atomicStep i s) h fun _ => ⟨rfl, rfl, rfl, rfl, rfl, rfl, rfl, rfl, rfl, rfl⟩

/-- A store, or an atomic without a target, that issues is issued as a store. -/
theorem exec_store {i : Instr} {x : Issue} {s : State} {e : Exec} {b : Block} (hst : isStoreOp i = true)
    (hi : Issues s x.who x.slot i e b) (hx : x = gather x.who x.slot i e) :
    exec i s = .next (s.onFabric fun f => f.storeIssue x) := by
  have hstep : exec i s = issueStep i (fun x f => f.storeIssue x) s := by
    obtain ⟨m, rfl | rfl | rfl⟩ | ⟨ha, he⟩ := isStoreOp_cases hst
    · rfl
    · rfl
    · rfl
    · rw [exec_atomic ha, atomicStep, he]; rfl
  rw [hstep, issueStep_of_issues hi hx]

/-- Its request holds no response slot. -/
theorem reqKind_isStoreOp {i : Instr} (h : isStoreOp i = true) : (reqKind i).isLoad = false := by
  obtain ⟨m, rfl | rfl | rfl⟩ | ⟨ha, he⟩ := isStoreOp_cases h
  · rfl
  · rfl
  · rfl
  · rw [reqKind_of_isAtomicOp ha, he]; rfl

/-- The lanes of a store checked, with the translations that the core's cache gives. -/
def checkedLanes (f : Fabric) (x : Issue) : List ReqLane := (f.checkLanes x.who x.exec x.i (x.lanesNow f)).1

/-- The core with the translations of the checked lanes counted. -/
def countChecked (f : Fabric) (x : Issue) (k : Core) : Core := k.countLanes true (x.lanesNow f) (checkedLanes f x)

theorem lanesNow_pa (x : Issue) (f : Fabric) : ∀ l ∈ x.lanesNow f, l.pa = none := lanesNow_fresh (memLanes_fresh x.i) f

/-- With every page known a store is buffered to commit (R182, R188). -/
theorem storeIssue_held {f : Fabric} {x : Issue} (h : LanesHeld f x) :
    f.storeIssue x = (f.modCore x.who.core (countChecked f x)).bufferStore x.who x.slot x.i (checkedLanes f x) x.ember := by
  have hq := Fabric.checkLanes_held (lanesNow_pa x f) h
  unfold Fabric.storeIssue
  simp only [hq]
  rfl

/-- With a page still to be found its request is opened (R294). -/
theorem storeIssue_walks {f : Fabric} {x : Issue} (hc : LanesClear f x) (hn : ¬ LanesHeld f x) :
    f.storeIssue x = opening f (countChecked f x) (x.request f.units.nextId (checkedLanes f x)) := by
  obtain ⟨l, hq⟩ := Fabric.checkLanes_walks (lanesNow_pa x f) hc hn
  unfold Fabric.storeIssue
  simp only [hq]
  rfl

/-- What a lane writes: its address, width, data and compare value. -/
def laneData (l : ReqLane) : Nat × Nat × Nat × Nat := (l.va, l.n, l.data, l.cmp)

/-- A store's lanes write what its operands ask for. -/
theorem checkedLanes_data (f : Fabric) (x : Issue) : (checkedLanes f x).map laneData = (memLanes x.i x.a x.b x.c).map laneData := by
  have hkeys := congrArg (List.map Prod.snd) (lanesNow_keys x f)
  simp only [asked, List.map_map] at hkeys
  exact (Fabric.checkLanes_keys laneData (fun _ _ _ => rfl) ..).trans hkeys

/-- Settles O13: with its pages known a store is buffered, else its request is open. -/
theorem storesComplete : Obligations.StoresComplete := by
  intro i x hst s e b hi hx hclear
  have hxi : x.i = i := by rw [hx]; rfl
  rw [exec_store hst hi hx, State.onFabric]
  refine ⟨fun hheld => ?_, fun hn => ?_⟩
  · rw [storeIssue_held hheld]
    refine ⟨_, (checkedLanes s.fab x).map (ReqLane.mem x.i), rfl, rfl, rfl, ?_, fun l hl => ?_, ?_, fun d hd => ?_⟩
    · rw [List.map_map, ← hxi]
      exact checkedLanes_data s.fab x
    · obtain ⟨m, -, rfl⟩ := List.mem_map.1 hl
      rw [← hxi]; rfl
    · simp only [Fabric.bufferStore, Fabric.core_modCore, Core.exec_modExec, countChecked, Core.exec_countLanes, hi.running,
        Option.map_some]
    · simp only [Fabric.bufferStore, Fabric.core_modCore_other _ _ hd]
  · rw [storeIssue_walks hclear hn]
    refine ⟨_, _, rfl, opened_of_opening s _ (ls := checkedLanes s.fab x) ?_, ?_⟩
    · rw [checkedLanes, Fabric.checkLanes_keys laneKey fun _ _ _ => rfl, lanesNow_keys]
    · have hkind : (x.request s.fab.units.nextId (checkedLanes s.fab x)).kind.isLoad = false := (hxi ▸ reqKind_isStoreOp hst :)
      refine (congrArg (·.exec x.who) (opening_core ..)).trans ?_
      simp only [Core.exec_crossedReq, Core.exec_countReq, hkind, Bool.and_false, Bool.or_false]
      simp only [Issue.request, countChecked, Core.exec_modExec, Core.exec_countLanes, hi.running, Option.map_some]

end Sys2Proof.Proofs

/-! ### PREF and misaligned accesses -/

namespace Sys2Proof.Proofs

open Sys2Proof.Machine Sys2Proof.Claims

theorem prefCompletes : PrefCompletes :=
  ⟨fun _ => does_of_issueStep (fun _ => rfl) fun _ _ h => if_neg (not_not_intro h),
    fun _ => does_of_issueStep (fun _ => rfl) fun _ _ h => if_pos h⟩

/-- A first lane that is misaligned is found so at its issue (R180). -/
theorem lanesNow_misaligned {x : Issue} {l : ReqLane} {ls : List ReqLane} (h : memLanes x.i x.a x.b x.c = l :: ls)
    (hm : l.va % laneAlign x.i l ≠ 0) (f : Fabric) : ∃ ls', x.lanesNow f = { l with early := some (0x0A, l.va, []) } :: ls' := by
  have he : (f.core x.who.core).early x.exec x.i l = { l with early := some (0x0A, l.va, []) } := if_pos hm
  rw [Issue.lanesNow, h, List.map_cons, he]
  exact ⟨_, rfl⟩

/-- So the check of its lanes ends with ADDR_ALIGN at its address. -/
theorem checkLanes_misaligned {x : Issue} {l : ReqLane} {ls : List ReqLane} (h : memLanes x.i x.a x.b x.c = l :: ls)
    (hm : l.va % laneAlign x.i l ≠ 0) (f : Fabric) :
    (f.checkLanes x.who x.exec x.i (x.lanesNow f)).2 =
      some ({ l with early := some (0x0A, l.va, []) }, .fault 0x0A l.va []) := by
  obtain ⟨ls', hl⟩ := lanesNow_misaligned h hm f
  have hp : l.pa = none := memLanes_fresh x.i x.a x.b x.c l (h ▸ List.mem_cons_self)
  rw [hl, Fabric.checkLanes_early (l := { l with early := some (0x0A, l.va, []) }) hp rfl]

/-- A load or a store whose first lane is misaligned is refused at that lane (R180, R195). -/
theorem exec_misaligned {i : Instr} {x : Issue} {s : State} {e : Exec} {b : Block} {l : ReqLane} {ls : List ReqLane}
    (hop : isLoad i = true ∨ isStoreOp i = true) (hi : Issues s x.who x.slot i e b) (hx : x = gather x.who x.slot i e)
    (h : memLanes x.i x.a x.b x.c = l :: ls) (hm : l.va % laneAlign x.i l ≠ 0) :
    exec i s = .next (s.onFabric fun f =>
      f.laneFault x.who x.slot x.i { l with early := some (0x0A, l.va, []) } 0x0A l.va []) := by
  have hq := checkLanes_misaligned h hm
  obtain hl | hst := hop
  · rw [exec_load hl hi hx]
    simp only [Fabric.loadIssue, hq]
  · rw [exec_store hst hi hx]
    simp only [Fabric.storeIssue, hq]

theorem misalignedAccessFaults : MisalignedAccessFaults := by
  intro i x hop s e b l ls hi hx h hm hfault
  obtain rfl : x.i = i := by rw [hx]; rfl
  rw [exec_misaligned hop hi hx h hm, State.onFabric, Fabric.laneFault, hfault]
  rfl

/-- Settles O15: the first lane's misalignment ends the check of the lanes. -/
theorem prefAndMisalignedAccesses : Obligations.PrefAndMisalignedAccesses :=
  ⟨prefCompletes, misalignedAccessFaults⟩

end Sys2Proof.Proofs

/-! ### Slices -/

namespace Sys2Proof.Machine

/-- A write to a line that no timestamped firing has read upsets none (R380). -/
theorem Fabric.conflict_of_unread {f : Fabric} {line : Nat} (h : f.readersOf line = []) (reg : Nat)
    (key : Option (Nat × Nat × Nat)) : f.conflict reg line key = f := by
  rw [Fabric.conflict, h]; rfl

/-- The fabric after a lane of a request has its value. -/
def Fabric.laneAnswered (f : Fabric) (r : Req) (l : ReqLane) (t : Tok) : Fabric :=
  (f.sink (.ask r.id l.idx)).putReq (r.answer l.idx t)

theorem Fabric.sameRedo_laneAnswered (f : Fabric) (r : Req) (l : ReqLane) (t : Tok) : f.SameRedo (f.laneAnswered r l t) := fun _ => rfl

/-- A lane of a load off the ordered class, in a region without logged arrivals, has the bytes of its line and is counted (R362,
R433). -/
theorem Fabric.loadLane_eq {f : Fabric} {r : Req} {cls : Nat} (hc : cls ≠ 2) (hr : (f.region (f.core r.who.core).regionId).redo = [])
    (m : Memory) (l : ReqLane) (pa : Nat) (free : Row) :
    f.loadLane m r l pa cls free =
      (m, (f.laneAnswered r l ((f.lineSeen m (f.core r.who.core).regionId l.va pa cls free).part (pa % 64) l.n)).countAccess
        (f.core r.who.core).regionId l.va) := by
  have hredo (t : Tok) : (((f.laneAnswered r l t).countAccess (f.core r.who.core).regionId l.va).region
      (f.core r.who.core).regionId).redo = [] :=
    (((f.sameRedo_laneAnswered r l t).trans (Fabric.sameRedo_countAccess _ _ _)) _).trans hr
  unfold Fabric.loadLane
  dsimp only
  split
  · rw [if_neg hc]
    exact Fabric.redoLine_of_nil (hredo _) ..
  · exact Fabric.redoLine_of_nil (hredo _) ..

/-- The fabric after an eager atomic's lane has its old value. -/
def Fabric.eagerKept (f : Fabric) (m : Memory) (r : Req) (l : ReqLane) (pa : Nat) : Fabric :=
  (f.undoNote m (f.core r.who.core).regionId l.va pa).laneAnswered r l (m.token pa l.n)

/-- A lane of an eager atomic on a line that none has read, in a region without logged arrivals, keeps the old value and writes the
new one, unless its operand is marked (R187, R404). -/
theorem Fabric.eagerDone_eq {f : Fabric} {r : Req} {pa : Nat} (hr : (f.region (f.core r.who.core).regionId).redo = [])
    (hn : f.readersOf (lineOf pa) = []) (m : Memory) (l : ReqLane) :
    f.eagerDone m r l pa =
      (if r.val then m else m.lane pa l.n r.op r.ty l.data l.cmp,
        (if r.val then f.eagerKept m r l pa else (f.eagerKept m r l pa).unhide 0 pa l.n).countAccess (f.core r.who.core).regionId l.va) := by
  have hkept : f.SameRedo (f.eagerKept m r l pa) := (f.sameRedo_undoNote _ _ _ _).trans (Fabric.sameRedo_laneAnswered _ _ _ _)
  have hunread : (f.eagerKept m r l pa).readersOf (lineOf pa) = [] := hn
  unfold Fabric.eagerDone
  change ((if r.val then (m, f.eagerKept m r l pa) else (f.eagerKept m r l pa).keyless m _ pa l.n r.op r.ty l.data l.cmp).2.countAccess
    _ l.va).redoLine _ _ _ = _
  cases r.val with
  | true => exact Fabric.redoLine_of_nil ((hkept.trans (Fabric.sameRedo_countAccess _ _ _) _).trans hr) ..
  | false =>
    have hsame : f.SameRedo (((f.eagerKept m r l pa).unhide 0 pa l.n).countAccess (f.core r.who.core).regionId l.va) :=
      (hkept.trans (Fabric.sameRedo_unhide _ _ _ _)).trans (Fabric.sameRedo_countAccess _ _ _)
    simp only [Bool.false_eq_true, if_false, Fabric.keyless, Fabric.conflict_of_unread hunread]
    exact Fabric.redoLine_of_nil ((hsame _).trans hr) ..

end Sys2Proof.Machine

namespace Sys2Proof.Proofs

open Sys2Proof.Machine Sys2Proof.Claims

/-- SLICE_ACCESS answers what the slice makes of memory and fabric, and draws one free value (R375). -/
theorem exec_sliceAccess (x : Access) (s : State) : exec (.sliceAccess x) s = .next { s with
    mem := (s.fab.sliceAccess s.mem x (Config.freeValue s.run.free)).1
    fab := (s.fab.sliceAccess s.mem x (Config.freeValue s.run.free)).2
    run := { s.run with free := s.run.free + 1 } } := rfl

section

variable {f : Fabric} {id lane pa cls : Nat} {r : Req} {l : ReqLane} (h : Served f id lane r l pa cls)

include h

/-- A lane of a load that may be served now is performed. -/
theorem sliceReq_load (hk : r.kind ≠ .eager) (m : Memory) (free : Row) :
    f.sliceReq m id lane free = f.loadLane m r l pa cls free := by
  simp only [Fabric.sliceReq, h.req, h.asked, h.addr, h.held, h.port, h.here, hk]
  rfl

/-- The next lane of an eager atomic is performed once every lane's page is known (R188). -/
theorem sliceReq_eager (hk : r.kind = .eager) (hnext : ∃ rest, r.unsent = l :: rest)
    (hall : ∀ x ∈ r.lanes, x.pa.isSome = true ∨ x.bad = true) (m : Memory) (free : Row) :
    f.sliceReq m id lane free = f.eagerDone m r l pa := by
  obtain ⟨rest, hu⟩ := hnext
  have hl : l.idx = lane := by simpa using List.find?_some h.asked
  have hlanes : (r.lanes.all fun x => x.pa.isSome || x.bad) = true := by simpa [List.all_eq_true] using hall
  have hasked := h.asked
  rw [hu] at hasked
  simp only [Fabric.sliceReq, h.req, hu, hasked, h.addr, h.held, h.port, h.here, hk, hl, hlanes]
  rfl

end

theorem slicesServe : SlicesServe := by
  refine ⟨fun s id lane r l pa cls h hk hc hr => ?_, fun s id lane r l pa cls h hk hnext hall hr hn => ?_⟩
  · rw [exec_sliceAccess, Fabric.sliceAccess, sliceReq_load h hk, Fabric.loadLane_eq hc hr]
    exact ⟨_, rfl, rfl, rfl, rfl, rfl, rfl⟩
  · rw [exec_sliceAccess, Fabric.sliceAccess, sliceReq_eager h hk hnext hall, Fabric.eagerDone_eq hr hn]
    refine ⟨_, rfl, ?_, rfl, rfl, ?_, ?_⟩ <;> cases r.val <;> rfl

end Sys2Proof.Proofs

/-! ### Units -/

namespace Sys2Proof.Machine

/-- The accesses of a unit counted in a region without logged arrivals leave the units. -/
theorem countLines_stores {reg : Nat} (l : List Nat) (m : Memory) (f : Fabric) (h : (f.region reg).redo = []) :
    (l.foldl (fun q v => (q.2.countAccess reg (v * 64)).redoLine q.1 reg v) (m, f)).2.units.stores = f.units.stores := by
  induction l generalizing f with
  | nil => rfl
  | cons v l ih =>
    have hv : ((f.countAccess reg (v * 64)).region reg).redo = [] := (f.sameRedo_countAccess reg (v * 64) reg).trans h
    rw [List.foldl_cons, Fabric.redoLine_of_nil hv]
    exact ih _ hv

theorem Fabric.stores_settleSent (f : Fabric) (c : Nat) : (f.settleSent c).units.stores = f.units.stores := by
  unfold Fabric.settleSent
  split <;> rfl

/-- A unit sent is marked so, the others stay. -/
theorem Fabric.stores_unitSent (f : Fabric) (u : StoreUnit) :
    (f.unitSent u).units.stores = f.units.stores.map fun x => if x.id = u.id then { x with sent := true } else x :=
  Fabric.stores_settleSent ..

/-- A unit that may be performed, in a region without logged arrivals to replay, is performed and sent (R364). -/
theorem Fabric.unitPerform_done {f : Fabric} {m : Memory} {id : Nat} {u : StoreUnit}
    (hu : f.units.stores.find? (fun u => u.id = id) = some u) (hp : u.performed = false) (hh : f.holdsAll u = true)
    (hr : (f.region u.region).redo = []) :
    ∀ v ∈ (f.unitPerform m id).2.units.stores, v.id = id → v.performed = true ∧ v.sent = true := by
  have hs : ((Fabric.performLanes m f u).2.region u.region).redo = [] := (performLanes_sameRedo m f u u.region).trans hr
  unfold Fabric.unitPerform
  simp only [hu, hp, hh, Bool.not_true, Bool.or_self, Bool.false_eq_true, if_false]
  generalize Fabric.performLanes m f u = q at hs
  rw [countLines_stores]
  · rw [Fabric.stores_unitSent, Fabric.modUnits_units]
    simp only [List.map_map, List.mem_map, Function.comp]
    rintro v ⟨x, -, rfl⟩ hv
    have hid : u.id = id := by simpa using List.find?_some hu
    by_cases hx : x.id = id
    · simp [hx, hid]
    · simp [hx, hid] at hv
  · exact (Fabric.sameRedo_unitSent _ _ u.region).trans hs

end Sys2Proof.Machine

namespace Sys2Proof.Proofs

open Sys2Proof.Machine Sys2Proof.Claims

/-- A part that has come to its line's slice, in port order, with other parts still to come or the unit sent, is held there (R364,
R367). -/
theorem partArrives_held {f : Fabric} {id line : Nat} {u : StoreUnit} (hu : f.units.stores.find? (fun u => u.id = id) = some u)
    (hl : line ∈ laneLines u.lanes) (hn : line ∉ u.arrived) (hb : f.behindPart u.core id [line] = false)
    (hearly : ∀ r ∈ f.units.reqs, r.who.core = u.core → r.id < id → ∀ l ∈ r.unsent,
      match l.pa with
      | some p => lineOf p.1 ≠ line
      | none => ∀ m ∈ u.lanes, lineOf m.pa = line → m.va / 64 ≠ l.va / 64)
    (hh : f.units.here (.part id line) = true) (hs : u.sent = true ∨ ∃ l ∈ laneLines u.lanes, l ∉ u.arrived ∧ l ≠ line) :
    f.partArrives id line = (f.sink (.part id line)).modUnits fun v =>
      { v with stores := v.stores.map fun x => if x.id = id then { u with arrived := u.arrived ++ [line] } else x } := by
  have hsent : (!u.sent && (laneLines u.lanes).all fun l => (u.arrived ++ [line]).contains l) = false := by
    obtain h | ⟨l, hl, ha, hne⟩ := hs
    · simp [h]
    · rw [Bool.and_eq_false_iff, List.all_eq_false]
      exact .inr ⟨l, hl, by simp [ha, hne]⟩
  unfold Fabric.partArrives
  simp only [hu]
  rw [if_neg]
  · exact if_neg (Bool.eq_false_iff.1 hsent)
  · have hline : (laneLines u.lanes).contains line = true := List.contains_iff_mem.2 hl
    simp only [hb, hh, hline, hn, List.contains_iff_mem, List.any_eq_true, Bool.or_eq_true, Bool.and_eq_true, decide_eq_true_eq,
      Bool.not_true, Bool.false_eq_true, false_or, or_false]
    rintro ⟨r, hr, ⟨hc, hid⟩, l, hlu, hm⟩
    have hclear := hearly r hr hc hid l hlu
    cases hpa : l.pa with
    | some p =>
      rw [hpa] at hm hclear
      exact hclear (of_decide_eq_true hm)
    | none =>
      rw [hpa] at hm hclear
      obtain ⟨n, hnu, hn⟩ := List.any_eq_true.1 hm
      simp only [Bool.and_eq_true, decide_eq_true_eq] at hn
      exact hclear n hnu hn.1 hn.2

theorem unitsPerform : UnitsPerform := by
  refine ⟨fun s id line u hu hl hn hb hearly hh hs => ?_, fun s id u hu hp hh hr => ?_⟩
  · rw [exec_sliceAccess, Fabric.sliceAccess, partArrives_held hu hl hn hb hearly hh hs]
    rfl
  · exact ⟨_, rfl, Fabric.unitPerform_mem hu hp hh hr, Fabric.unitPerform_done hu hp hh hr⟩

/-- Settles O28: each access by what its slice finds at the line. -/
theorem slicesServeAndUnitsPerform : Obligations.SlicesServeAndUnitsPerform :=
  ⟨slicesServe, unitsPerform⟩

end Sys2Proof.Proofs

/-! ### Matrix questions -/

namespace Sys2Proof.Proofs

open Sys2Proof.Machine Sys2Proof.Claims

/-- A question of the matrix queue enters it where it has room, under the next number (R242, R244). -/
theorem ask_enters {x : Issue} {cmd : Nat → Core → MxCmd} {f : Fabric} (h : (f.core x.who.core).mxRoom = true) :
    x.ask cmd f = f.fresh.2.modCore x.who.core fun k =>
      ((k.pushMx (cmd f.units.nextId (f.core x.who.core))).modExec x.who
        fun e => { e with queued := x.slot :: e.queued, acted := true }).settleMx :=
  (if_pos h).trans (Fabric.modCore_congr rfl)

/-- Without room it waits. -/
theorem ask_waits {x : Issue} {cmd : Nat → Core → MxCmd} {f : Fabric} (h : (f.core x.who.core).mxRoom = false) :
    x.ask cmd f = x.wait .queue f := if_neg (Bool.eq_false_iff.1 h)

/-- An MXPEEK of a record within the weight store puts its question (R244). -/
theorem goMxpeek_within {m : EFields} {x : Issue} (h : elem 32 x.a 0 + recWords (m.flags.toNat % 4) ≤ 65536) (f : Fabric) :
    goMxpeek m x f = x.ask (fun id k => mxCmd x m k id 4 (m.mod.toNat % 2)) f :=
  checked_passes nofun fun _ hc => List.mem_singleton.1 hc ▸ decide_eq_false (Nat.not_lt.2 h)

/-- A range that fails at an element is ENGINE_ARG with the element (R231). -/
theorem checked_range {x : Issue} {p : Bool} {el : Nat} (hp : p = true) (he : el < 256) (go : Fabric → Fabric) (f : Fabric) :
    x.checked none [rangeFail p el] go f = x.fault 0x10 (el * 256 + 0x41) 0 f :=
  checked_fails nofun (by simp [rangeFail, hp]) he nofun

theorem matrixQuestionsEnter : MatrixQuestionsEnter := by
  refine ⟨fun m => does_of_issueStep (fun _ => rfl) fun _ _ h => ask_enters h, fun m => does_of_issueStep (fun _ => rfl) ?_,
    fun m => does_of_issueStep (fun _ => rfl) fun _ _ h => ask_waits h, fun m => does_of_issueStep (fun _ => rfl) ?_,
    fun m => does_of_issueStep (fun _ => rfl) fun x f h => ?_⟩
  · rintro x f ⟨hroom, hw⟩
    exact (goMxpeek_within hw f).trans (ask_enters hroom)
  · rintro x f ⟨hroom, hw⟩
    exact (goMxpeek_within hw f).trans (ask_waits hroom)
  · exact checked_range (decide_eq_true h) (by decide) ..

end Sys2Proof.Proofs

/-! ### Tier commands -/

namespace Sys2Proof.Proofs

open Sys2Proof.Machine Sys2Proof.Claims

/-- A command that enters its queue with room does so under the next number, with what else its entry does (R52, R230). -/
theorem enter_enters {x : Issue} {room : Core → Bool} {cp mx : Nat} {f : Fabric} (h : HasRoom (f.core x.who.core) room cp mx)
    (put : Nat → Core → Core) (also : Fabric → Fabric) :
    x.enter room cp mx (fun id f => also (f.modCore x.who.core (put id))) f = also (entered x cp mx (put f.units.nextId) f) := by
  have hput := enterCommand_enters (q := ⟨none, [], room, cp, mx, put⟩) h
  obtain ⟨hr, hcp, hmx⟩ := h
  have hgo : (room (f.core x.who.core) && decide ((f.core x.who.core).counts.cp + cp ≤ 65535) &&
      decide ((f.core x.who.core).counts.mx + mx ≤ 65535)) = true := by simp [hr, hcp, hmx]
  rw [← hput]
  exact (if_pos hgo).trans (congrArg also (if_pos hgo).symm)

/-- So a tier command enters the network queue. -/
theorem enterNet_enters {x : Issue} {f : Fabric} (h : HasRoom (f.core x.who.core) Core.netRoom 1 0) (m : EFields) (total : Nat)
    (also : Fabric → Fabric) : x.enterNet m total also f = also (entered x 1 0 (toNet x m total f.units.nextId) f) :=
  enter_enters h (toNet x m total) also

section

variable {s : State} {x : Issue} {m : EFields} {st : Nat} {t : Trans} (hp : PageAt s x st t) (ha : elem 64 x.a 0 % t.size = 0)

include hp ha

/-- TIN of a page that is there only completes (R261). -/
theorem goTin_there (hst : st = 0) : goTin s.mem m x s.fab = x.noResult s.fab := by
  unfold goTin
  dsimp only
  rw [hp]
  exact (if_neg (not_not_intro ha)).trans (if_pos hst)

/-- TIN of a page that is away takes the frames for it and enters, its transit begun (R261). -/
theorem goTin_enters (hst : st ≠ 0) (hn : NotMoving s x true) {g : Nat}
    (hg : poolRun (s.fab.region (s.fab.core x.who.core).regionId).pool (t.size / 65536) = some g)
    (hr : HasRoom (s.fab.core x.who.core) Core.netRoom 1 0) :
    goTin s.mem m x s.fab =
      ((entered x 1 0 (toNet x m 0 s.fab.units.nextId) s.fab).modRegion (s.fab.core x.who.core).regionId fun y =>
          { y with pool := y.pool.filter fun q => !(g ≤ q && q < g + t.size / 65536) }).modUnits fun u =>
        { u with transits := u.transits ++ [⟨true, (s.fab.core x.who.core).contextId, elem 64 x.a 0, t.size, t.leaf, g * 65536,
            (s.fab.core x.who.core).regionId⟩] } := by
  have hmoving : ¬ (s.fab.units.transits.any fun q =>
      q.inward && q.ctx = (s.fab.core x.who.core).contextId && q.page = elem 64 x.a 0) = true := by
    simpa [NotMoving, and_assoc] using hn
  unfold goTin
  dsimp only
  rw [hp]
  dsimp only
  rw [if_neg (not_not_intro ha), if_neg hst, if_neg hmoving, hg]
  exact enterNet_enters hr ..

variable (hl : t.size ≤ 2097152)

include hl

omit hp in
/-- The address and size of such a page pass the checks of a TOUT. -/
theorem tout_checked : ¬ (decide (elem 64 x.a 0 % t.size ≠ 0) || decide (2097152 < t.size)) = true := by
  simp [ha, Nat.not_lt.2 hl]

/-- TOUT of a page that is away only completes (R262). -/
theorem goTout_away (hst : st = 1) : goTout s.mem m x s.fab = x.noResult s.fab := by
  unfold goTout
  dsimp only
  rw [hp]
  exact (if_neg (tout_checked ha hl)).trans (if_pos hst)

/-- TOUT of a page that is there takes granules of the expanders and enters, its transit begun (R262). -/
theorem goTout_enters (hst : st ≠ 1) (hn : NotMoving s x false) {o : Nat}
    (ho : peatRun s.fab.units.peat s.fab.units.peatCap (t.size / 65536) = some o)
    (hr : HasRoom (s.fab.core x.who.core) Core.netRoom 1 0) :
    goTout s.mem m x s.fab =
      (entered x 1 0 (toNet x m 0 s.fab.units.nextId) s.fab).modUnits fun u =>
        { u with
          peat := u.peat ++ [(o, t.size / 65536)]
          transits := u.transits ++ [⟨false, (s.fab.core x.who.core).contextId, elem 64 x.a 0, t.size, t.leaf,
            0x8000000000000 + o * 65536, (s.fab.core x.who.core).regionId⟩] } := by
  have hmoving : ¬ (s.fab.units.transits.any fun q =>
      !q.inward && q.ctx = (s.fab.core x.who.core).contextId && q.page = elem 64 x.a 0) = true := by
    simpa [NotMoving, and_assoc] using hn
  unfold goTout
  dsimp only
  rw [hp]
  dsimp only
  rw [if_neg (tout_checked ha hl), if_neg hst, if_neg hmoving, ho]
  exact enterNet_enters hr ..

end

/-- TQRY completes with its token, and draws two free values (R260). -/
theorem exec_tqry {m : EFields} {x : Issue} {s : State} {e : Exec} {b : Block} (hi : Issues s x.who x.slot (.tqry m) e b)
    (hx : x = gather x.who x.slot (.tqry m) e) :
    exec (.tqry m) s = .next { s with
      fab := x.result (s.fab.tqryToken s.mem x.who.core (elem 64 x.a 0) (Config.freeValue s.run.free)
        (Config.freeValue (s.run.free + 1))) fNone s.fab
      run := { s.run with free := s.run.free + 2 } } := by
  have he : exec (.tqry m) s = execTqry m s := rfl
  rw [he, execTqry, State.onFabric, issue_of_issues hi, ← hx]

/-- TIN and TOUT that issue run their entry. -/
theorem exec_tin {m : EFields} {x : Issue} {s : State} {e : Exec} {b : Block} (hi : Issues s x.who x.slot (.tin m) e b)
    (hx : x = gather x.who x.slot (.tin m) e) : exec (.tin m) s = .next (s.onFabric (goTin s.mem m x)) :=
  issueStep_of_issues hi hx _

theorem exec_tout {m : EFields} {x : Issue} {s : State} {e : Exec} {b : Block} (hi : Issues s x.who x.slot (.tout m) e b)
    (hx : x = gather x.who x.slot (.tout m) e) : exec (.tout m) s = .next (s.onFabric (goTout s.mem m x)) :=
  issueStep_of_issues hi hx _

theorem tierCommandsComplete : TierCommandsComplete := by
  intro m i x s e b hi hx
  refine ⟨?_, fun st t g hop hp ha hst hn hg hr => ?_, fun st t o hop hp ha hl hst hn ho hr => ?_, fun st t hop hp ha hst => ?_,
    fun st t hop hp ha hl hst => ?_⟩
  · rintro rfl
    exact exec_tqry hi hx
  · subst hop
    rw [exec_tin hi hx, State.onFabric, goTin_enters hp ha hst hn hg hr]
    rfl
  · subst hop
    rw [exec_tout hi hx, State.onFabric, goTout_enters hp ha hl hst hn ho hr]
    rfl
  · subst hop
    rw [exec_tin hi hx, State.onFabric, goTin_there hp ha hst]
    rfl
  · subst hop
    rw [exec_tout hi hx, State.onFabric, goTout_away hp ha hl hst]
    rfl

end Sys2Proof.Proofs

/-! ### Window images -/

namespace Sys2Proof.Proofs

open Sys2Proof.Machine Sys2Proof.Claims

/-- The rows of a window's image hang on the plane, the windows and the rows alone. -/
theorem imageRows_modExec (k : Core) (who : Agent) (g : Exec → Exec) (n : Counts) (c w : Nat) :
    ({ k.modExec who g with counts := n } : Core).imageRows c w = k.imageRows c w := by
  cases who <;> rfl

/-- The core with a transfer of given rows begun (R169, R170). -/
def beginImage (m : EFields) (x : Issue) (save : Bool) (rows : List Tok) (id : Nat) (k : Core) : Core :=
  { k with eng := { k.eng with images := k.eng.images ++
    [{ id := id, save := save, win := m.win.toNat, va := elem 64 x.a 0 % 2 ^ 56, rows := rows,
       total := if save then rows.length else 1, block := x.exec.id }] } }

section

variable {m : EFields} {x : Issue} {f : Fabric} (ha : elem 64 x.a 0 % 64 = 0)

include ha

/-- An image command of a configured window begins its transfer (R169, R170). -/
theorem goImage_enters (save : Bool) (hw : (sfind (f.core x.who.core).plane.wins m.win.toNat).isSome = true)
    (hcp : (f.core x.who.core).counts.cp < 65535) (hmx : (f.core x.who.core).counts.mx ≤ 65535) :
    goImage m save x f = entered x 1 0 (beginImage m x save
      (if save then (f.core x.who.core).imageRows x.who.core m.win.toNat else []) f.units.nextId) f := by
  unfold goImage
  dsimp only
  rw [if_neg (not_not_intro ha), if_neg (by simp [Option.isSome_iff_ne_none.1 hw])]
  refine (enter_enters ⟨rfl, hcp, hmx⟩
    (fun id k => beginImage m x save (if save then k.imageRows x.who.core m.win.toNat else []) id k) id).trans ?_
  rw [id_eq]
  refine Fabric.modCore_congr ?_
  dsimp only
  rw [imageRows_modExec]
  rfl

/-- One of a window not configured is IMAGE_BAD (R171). -/
theorem goImage_bad (save : Bool) (hw : sfind (f.core x.who.core).plane.wins m.win.toNat = none) :
    goImage m save x f = x.fault 0x22 (elem 64 x.a 0) 0 f := by
  unfold goImage
  dsimp only
  rw [if_neg (not_not_intro ha), if_pos (by rw [hw]; rfl)]

end

theorem windowImagesEnter : WindowImagesEnter := by
  refine ⟨fun m => does_of_issueStep (fun _ => rfl) ?_, fun m => does_of_issueStep (fun _ => rfl) ?_, fun m i hi => ?_,
    fun m i hi => ?_⟩
  · rintro x f ⟨ha, hw, hcp, hmx⟩
    exact goImage_enters ha true hw hcp hmx
  · rintro x f ⟨ha, hw, hcp, hmx⟩
    exact goImage_enters ha false hw hcp hmx
  · obtain rfl | rfl := hi
    · exact does_of_issueStep (fun _ => rfl) fun _ _ h => if_pos h
    · exact does_of_issueStep (fun _ => rfl) fun _ _ h => if_pos h
  · obtain rfl | rfl := hi
    · exact does_of_issueStep (fun _ => rfl) fun _ _ h => goImage_bad h.1 _ h.2
    · exact does_of_issueStep (fun _ => rfl) fun _ _ h => goImage_bad h.1 _ h.2

/-- Settles O23: each command by the room it finds, the state of its page, or the place of its image. -/
theorem questionsMovesAndImagesEnter : Obligations.QuestionsMovesAndImagesEnter :=
  ⟨matrixQuestionsEnter, tierCommandsComplete, windowImagesEnter⟩

end Sys2Proof.Proofs

end

/-!
PROOFS. The statements of chapter 7's family: the configuration instructions (R209 to R226), branches, TRAP and EVWAIT (R198 to R207),
the sequencer's blocks and where they pass (R197 to R200, R399), groups and gangs (R306 to R324), operators (R218 to R222), control
tokens and circuits (R218, R255, R342 to R347). Elaborated one after another, as above.
-/

section

set_option Elab.async false

/-! ### Configuration instructions enter or are refused -/

namespace Sys2Proof.Proofs

open Sys2Proof.Machine Sys2Proof.Claims

/-- A configuration instruction that names an item configures it with its operands. -/
theorem exec_configures {i : Instr} {f : Fabric} {x : Issue} {m : CFields} {t : Item} (h : itemOf i f x = some (m, t)) :
    ∃ go : Issue → Fabric → Fabric, (∀ s, exec i s = issueStep i go s) ∧ go x f = configure x m t f := by
  revert h
  cases i
  case cactor n =>
    intro h
    refine ⟨_, fun _ => rfl, ?_⟩
    dsimp only [itemOf] at h ⊢
    cases hb : Group.actorBlock ((f.core x.who.core).groupOf x.who) (elem 32 x.a 0) with
    | none => rw [hb] at h; cases h; rfl
    | some b =>
      cases hv : b.validate true with
      | some addr => simp [hb, hv] at h
      | none => simp only [hb, hv] at h ⊢; cases h; rfl
  case cwin | wgrow | cport | cactorUnbind | croute | csteer | cmerge | ccarry | cinv | cchain | cloop | cturn |
      cmodeMatrixRectangle | cmodePatchLogWindow | cmodeBarrierCount | cdesc =>
    intro h; cases h; exact ⟨_, fun _ => rfl, rfl⟩
  all_goals exact of_none_eq_some

/-- A configuration instruction that issues configures its item. -/
theorem exec_item {i : Instr} {s : State} {x : Issue} {e : Exec} {b : Block} {m : CFields} {t : Item}
    (ht : itemOf i s.fab x = some (m, t)) (hi : Issues s x.who x.slot i e b) (hx : x = gather x.who x.slot i e) :
    exec i s = .next (s.onFabric fun f => configure x m t f) := by
  obtain ⟨go, he, hg⟩ := exec_configures ht
  rw [he, issueStep_of_issues hi hx, State.onFabric, State.onFabric, hg]

/-- Whether a BIND plane shuts out a program's configuration instruction (R210). -/
def shutOut (k : Core) (who : Agent) : Bool := match who with | .seq _ => k.kindling = .bind | _ => false

theorem refusals_eq (k : Core) (who : Agent) (t : Item) :
    refusals k who t = t.static ++ if shutOut k who then [0x32] else t.inPlane (k.target who) := by
  unfold refusals shutOut
  cases who <;> cases k.kindling <;> rfl

theorem configurationCompletes : ConfigurationCompletes := by
  intro i x s e b m t ht hi hx hr
  rw [refusals_eq, List.append_eq_nil_iff] at hr
  obtain ⟨hs, hp⟩ := hr
  have hopen : shutOut (s.fab.core x.who.core) x.who = false := Bool.eq_false_iff.2 fun h => by simp [h] at hp
  rw [hopen] at hp
  have hplane : Configures s.fab x ((s.fab.core x.who.core).target x.who) :=
    ⟨rfl, fun c hc hk => by simp [shutOut, hc, Agent.core, hk] at hopen⟩
  rw [exec_item ht hi hx, State.onFabric, configure_enters (g := t.enter) hplane hs hp rfl]
  rfl

/-- A configuration instruction is refused with the refusals that it meets, or enters its item (R209, R210). -/
theorem configure_eq (x : Issue) (m : CFields) (t : Item) (f : Fabric) :
    let k := f.core x.who.core
    configure x m t f =
      if refusals k x.who t ≠ [] then
        if f.canFault x.who x.slot then
          x.refuse m (refusals k x.who t)
            (if shutOut k x.who then f else f.modCore x.who.core fun k' => k'.setTarget x.who (k.target x.who))
        else f
      else x.noResult (f.modCore x.who.core fun k' => k'.setTarget x.who (t.enter (k.target x.who))) := by
  dsimp only
  rw [refusals_eq]
  rfl

/-- A configuration instruction that meets a refusal raises it with the lowest code (R210). -/
theorem configure_refuses {x : Issue} {m : CFields} {t : Item} {f : Fabric} {code : Nat}
    (hc : leastOf (refusals (f.core x.who.core) x.who t) = some code) (hf : f.canFault x.who x.slot = true) :
    configure x m t f = (if shutOut (f.core x.who.core) x.who then f
        else f.modCore x.who.core fun k => k.setTarget x.who ((f.core x.who.core).target x.who)).faultAt x.who x.slot x.i 0x0F
      (code + m.obj.toNat <<< 8 + m.arg.toNat <<< 16) 0 := by
  have hne : refusals (f.core x.who.core) x.who t ≠ [] := fun h => by simp [h, leastOf] at hc
  rw [configure_eq, if_pos hne, if_pos hf, Issue.refuse, Issue.fault, hc]
  rfl

theorem configurationRefused : ConfigurationRefused := by
  refine ⟨fun i x s e b m t code ht hi hx hc hf => ?_, fun m b addr hv => does_of_issueStep (fun _ => rfl) fun x f hb => ?_⟩
  · rw [exec_item ht hi hx, State.onFabric, configure_refuses hc hf, show x.i = i by rw [hx]; rfl]
    refine ⟨_, rfl, ?_⟩
    split
    · exact .inl rfl
    · exact .inr rfl
  · simp only [hb, hv]
    rfl

/-- Settles O20: every item is configured by one operation, which enters it or refuses it. -/
theorem configurationInstructionsComplete : Obligations.ConfigurationInstructionsComplete :=
  ⟨configurationCompletes, configurationRefused⟩

end Sys2Proof.Proofs

/-! ### Where a completed block passes -/

namespace Sys2Proof.Proofs

open Sys2Proof.Machine Sys2Proof.Claims

/-- An index of a block that a branch may reach (R198). -/
theorem checkIndex_ok {bs : List Block} {x : Nat} {b : Block} {called : Bool} (hx : x < 1024) (hb : bs[x]? = some b)
    (hk : b.kind = 0 ∨ b.kind = 2 ∧ called = true) : checkIndex bs called x = .ok x := by
  have hr : ¬ 1023 < x := by omega
  rcases hk with hk | ⟨hk, hc⟩
  · simp [checkIndex, hr, hb, hk]
  · simp [checkIndex, hr, hb, hk, hc]

/-- An index above 1,023 or beyond the table (R198). -/
theorem checkIndex_range {bs : List Block} {x : Nat} (called : Bool) (h : 1023 < x ∨ bs.length ≤ x) :
    checkIndex bs called x = .error 0x02 := by
  unfold checkIndex
  split
  · rfl
  · rename_i hr
    rw [List.getElem?_eq_none_iff.2 (h.resolve_left hr)]

/-- The index of an actor block, or of a configuration block that is not called (R198). -/
theorem checkIndex_kind {bs : List Block} {x : Nat} {b : Block} {called : Bool} (hx : x < 1024) (hb : bs[x]? = some b)
    (hk : b.kind = 1 ∨ b.kind = 2 ∧ called = false) : checkIndex bs called x = .error 0x03 := by
  have hr : ¬ 1023 < x := by omega
  rcases hk with hk | ⟨hk, hc⟩
  · simp [checkIndex, hr, hb, hk]
  · simp [checkIndex, hr, hb, hk, hc]

/-- A core whose sequencer's stack holds entries in place. -/
def withStack (r : List Entry) (k : Core) : Core := { k with seq := { k.seq with stack := r } }

section

variable {f : Fabric} {c : Nat}

/-- The newest entry of a stack that holds one in place (R41). -/
theorem pop_place {e : Entry} {r : List Entry} (h : (f.core c).seq.stack = e :: r) (m : Memory) :
    f.pop m c = .ok (e, m, f.modCore c (withStack r)) := by
  simp only [Fabric.pop, h]
  rfl

/-- A stack without an entry anywhere (R199). -/
theorem pop_empty (h : (f.core c).seq.stack = []) (ho : (f.core c).seq.ovf = 0) (hs : (f.core c).seq.spilled = []) (m : Memory) :
    f.pop m c = .error (0x05, 0) := by
  simp only [Fabric.pop, h, ho, hs]

variable (m : Memory) {bs : List Block} {e : Exec} {x : Nat}

theorem branch_goto_ok (he : e.choice = some (.goto x)) (hi : checkIndex bs false x = .ok x) :
    f.branch m c bs e = .ok (some x, m, f) := by
  simp only [Fabric.branch, he, hi]
  rfl

/-- A branch or a call to an index that fails its check traps with the cause of the check (R198). -/
theorem branch_index_error {called : Bool} {code : Nat} (he : e.choice = some (if called then .call x else .goto x))
    (hi : checkIndex bs called x = .error code) : f.branch m c bs e = .error (code, 0) := by
  cases called <;> simp only [Fabric.branch, he, hi, Bool.false_eq_true, if_false, if_true] <;> rfl

theorem branch_call_ok (he : e.choice = some (.call x)) (hi : checkIndex bs true x = .ok x)
    (hs : (f.core c).seq.stack.length < 32) :
    f.branch m c bs e = .ok (some x, m, f.modCore c (pushed ⟨false, some (e.block + 1)⟩)) := by
  simp only [Fabric.branch, he, hi, push_room _ hs]
  rfl

/-- Where a block passes that returns with an entry popped: to the block of a call entry, once its index is checked (R199). -/
def returned (bs : List Block) (q : Entry × Memory × Fabric) : Except (Nat × Nat) (Option Nat × Memory × Fabric) :=
  if q.1.trap then .error (0x06, 0)
  else match q.1.ret with
    | some x => ((checkIndex bs false x).mapError fun code => (code, 0)).map fun x => (some x, q.2)
    | none => .ok (none, q.2)

/-- RET, and the implicit return of a block without a branch, pop the stack (R199). -/
theorem branch_return (he : e.choice = some .ret ∨ e.choice = none) : f.branch m c bs e = (f.pop m c).bind (returned bs) := by
  unfold Fabric.branch
  rcases he with he | he <;> rw [he] <;> refine congrArg _ (funext fun ⟨⟨t, r⟩, q⟩ => ?_) <;> cases t <;> cases r <;> rfl

end

/-- Settles O32: the check of a chosen index, and what the stack holds for a return. -/
theorem branchTargets : Obligations.BranchTargets := by
  intro f m c bs e
  refine ⟨fun x b he hx hb hk => branch_goto_ok m he (checkIndex_ok hx hb (.inl hk)), fun x he hr => ?_,
    fun x b he hx hb hk => branch_index_error m (called := false) he (checkIndex_kind hx hb (hk.imp_right fun h => ⟨h, rfl⟩)),
    fun x b he hx hb hk => branch_index_error m (called := true) he (checkIndex_kind hx hb (.inl hk)),
    fun x b he hx hb hk hs => branch_call_ok m he (checkIndex_ok hx hb (hk.imp_right fun h => ⟨h, rfl⟩)) hs,
    fun he => ?_, fun he => ?_, fun he => ⟨fun x r b hs hx hb hk => ?_, fun x r hs => ?_, fun hs ho hsp => ?_⟩,
    fun y he => ⟨fun x r hs => ?_, fun x r t hy hs ht => ?_⟩⟩
  · rcases he with he | he
    · exact branch_index_error m (called := false) he (checkIndex_range false hr)
    · exact branch_index_error m (called := true) he (checkIndex_range true hr)
  · simp only [Fabric.branch, he]
  · simp only [Fabric.branch, he]
  · rw [branch_return m he, pop_place hs, Except.bind, returned]
    simp only [checkIndex_ok hx hb (.inl hk)]
    rfl
  · rw [branch_return m he, pop_place hs]
    rfl
  · rw [branch_return m he, pop_empty hs ho hsp]
    rfl
  · simp only [Fabric.branch, he, pop_place hs]
    rfl
  · simp only [Fabric.branch, he, hy, pop_place hs, ht]
    rfl

end Sys2Proof.Proofs

/-! ### A sequencer's block completes -/

namespace Sys2Proof.Proofs

open Sys2Proof.Machine Sys2Proof.Claims

/-- The completion of a sequencer's block, from what its branch answers (R197, R399). -/
theorem seqComplete_ends {f : Fabric} {c : Nat} {e : Exec} {g : Group} {b : Block} (h : Ends f c e g b) (m : Memory) :
    f.seqComplete m c = match (ended f c e).branch m c g.blocks e with
      | .error (code, addr) =>
        if 0x30 ≤ code then (m, f.blockFault c (branchTrap c b e code addr))
        else (m, (((ended f c e).modCore c fun k => k.atBoundary (some e.block)).raise c (f.core c).seq.serving.isSome
          (branchTrap c b e code addr)).proceed c)
      | .ok (next, m, f') =>
        let f' := f'.modCore c fun k => (k.atBoundary next).loadedBy (loaderOf b)
        (m, (match e.soft, e.soft.bind fun p => b.instrAt p.1 with
          | some (slot, code), some i =>
            f'.raise c (f.core c).seq.serving.isSome { slotTrap (.seq c) slot i false 0x01 code 0 with src := .soft }
          | _, _ => f').proceed c) := by
  obtain ⟨⟨hphase, hexec⟩, hgroup, hblock, hmay⟩ := h
  have hdone : f.blockEffects c e = ended f c e := by
    simp only [Fabric.blockEffects, Fabric.noteCommit, Fabric.modCore_modCore]
    rfl
  simp only [Fabric.seqComplete, hphase, hexec, hgroup, hblock, hmay, hdone, Bool.not_true, Bool.false_eq_true, if_false] <;>
    rfl

/-- A sequencer at a boundary without a trap to deliver goes on from there (R204). -/
theorem seqComplete_boundary {f : Fabric} {c : Nat} {next : Option Nat} (hp : (f.core c).seq.phase = .boundary next)
    (ht : (f.core c).hasTrap = false) (hz : (f.core c).dbg.frozen = false) (m : Memory) :
    f.seqComplete m c = (m, match next with
      | some b => f.enterBlock c b
      | none =>
        let f' := f.modCore c fun k => { k with seq := { k.seq with phase := .halted } }
        match (f.core c).seq.pending with | t :: _ => f'.stopRegion c t | [] => f') := by
  cases next <;> simp only [Fabric.seqComplete, Fabric.proceed, hp, ht, hz] <;> rfl

/-- The end of a sequencer's block or boundary is its event. -/
theorem exec_seqComplete (c : Nat) (s : State) :
    exec (.sequencerBlockComplete (.seq c)) s = memStep (fun m f => f.seqComplete m c) s := rfl

/-- Settles O31: what a completed block's branch answers, a boundary, and the end of a declaration block. -/
theorem sequencerBlocksComplete : Obligations.SequencerBlocksComplete := by
  refine ⟨fun s c e g b next m f h hb hs => ?_, fun s c e g b next m f slot code i h hb hs hi => ?_,
    fun s c e g b code addr h hb hc => ?_, fun s c e g b code addr h hb hc => ?_,
    fun c b => moves_of_memStep (exec_seqComplete c) ?_, fun c => moves_of_memStep (exec_seqComplete c) ?_,
    fun c e g b => moves_of_fabricStep (fun _ => rfl) ?_⟩
  · rw [exec_seqComplete, memStep_next, seqComplete_ends h]
    simp only [hb, hs]
  · rw [exec_seqComplete, memStep_next, seqComplete_ends h]
    simp only [hb, hs, Option.bind_some, hi]
  · rw [exec_seqComplete, memStep_next, seqComplete_ends h]
    simp only [hb, if_neg (Nat.not_le.2 hc)]
    rfl
  · rw [exec_seqComplete, memStep_next, seqComplete_ends h]
    simp only [hb, if_pos hc]
    rfl
  · rintro m f ⟨hp, ht, hz⟩
    rw [seqComplete_boundary hp ht hz]
    simp only [Fabric.enterBlock, List.contains_eq_mem, decide_eq_true_eq]
  · rintro m f ⟨hp, hq, hz⟩
    have ht : (f.core c).hasTrap = false := by simp [Core.hasTrap, hq]
    rw [seqComplete_boundary hp ht hz]
    simp only [hq]
  · rintro f ⟨he, hg, hb, ho⟩
    simp only [Fabric.bindComplete, he, hg, hb, ho]
    by_cases hf : f.swapFails c (f.core c).kplane (some g) = [] <;> simp [hf]

end Sys2Proof.Proofs

/-! ### Branches, TRAP and EVWAIT -/

namespace Sys2Proof.Proofs

open Sys2Proof.Machine Sys2Proof.Claims

/-- A branch records the choice of its block (R198, R200, R206). -/
theorem exec_chooses {i : Instr} {x : Issue} {c : Choice} (h : choiceOf i x = some c) :
    ∃ go : Issue → Fabric → Fabric, (∀ s, exec i s = issueStep i go s) ∧ ∀ f, go x f = x.choose c f := by
  revert h
  cases i
  case br | brc | brx | call | ret | rft | halt => intro h; cases h; exact ⟨_, fun _ => rfl, fun _ => rfl⟩
  all_goals exact of_none_eq_some

theorem branchesComplete : BranchesComplete := by
  intro i x c h s e b hi hx
  obtain ⟨go, he, hg⟩ := exec_chooses h
  rw [he, issueStep_of_issues hi hx, State.onFabric, State.onFabric, hg, Issue.choose]

/-- TRAP in a sequencer's block is kept to its end; in a firing it traps, TRAP itself done first where the firing is pinned (R203). -/
theorem does_trap (d : DFields) :
    Does (.trap d) (fun _ x => IsSeq x)
      (fun x f => (x.noResult f).modCore x.who.core fun k => k.modExec x.who fun e =>
        { e with soft := match e.soft with
            | some p => if p.1 < x.slot then some p else some (x.slot, d.imm.toNat)
            | none => some (x.slot, d.imm.toNat) }) ∧
    Does (.trap d) (fun f x => IsActor x ∧ (f.core x.who.core).isPinned (Agent.place x.who) = false)
      (fun x f => f.faultAt x.who x.slot x.i 0x01 d.imm.toNat 0) ∧
    Does (.trap d)
      (fun f x => IsActor x ∧ (f.core x.who.core).isPinned (Agent.place x.who) = true ∧ f.canFault x.who x.slot = true)
      (fun x f => (x.noResult f).faultAt x.who x.slot x.i 0x01 d.imm.toNat 0) := by
  refine ⟨does_of_issueStep (fun _ => rfl) ?_, does_of_issueStep (fun _ => rfl) ?_, does_of_issueStep (fun _ => rfl) ?_⟩
  · rintro ⟨who, slot⟩ f ⟨c, hw⟩
    obtain rfl : who = .seq c := hw
    rfl
  · rintro x f ⟨⟨c, a, hw⟩, hp⟩
    rw [hw] at hp
    have hn : (f.core c).isPinned a = false := hp
    simp only [hw, hn, Bool.and_false, Bool.false_eq_true, if_false, Issue.fault]
  · rintro x f ⟨⟨c, a, hw⟩, hp, hf⟩
    rw [hw] at hp hf
    have hy : (f.core c).isPinned a = true := hp
    simp only [hw, hf, hy, Bool.and_self, if_true, Issue.fault]

/-- EVWAIT delivers the events of its mask that are present and clears them, and without one waits (R207). -/
theorem does_evwait (d : DFields) :
    Does (.evwait d) (fun f x => f.events x.who.core (d.imm.toNat % 16) (elem 64 x.a 0) ≠ 0)
      (fun x f =>
        let ev := f.events x.who.core (d.imm.toNat % 16) (elem 64 x.a 0)
        (x.result (ofVals 32 [ev, (f.core x.who.core).eng.strm]) fNone f).modCore x.who.core fun k => k.clearEvents ev) ∧
    Does (.evwait d) (fun f x => f.events x.who.core (d.imm.toNat % 16) (elem 64 x.a 0) = 0)
      (fun x f => x.wait (.event (d.imm.toNat % 16) (elem 64 x.a 0)) f) :=
  ⟨does_of_issueStep (fun _ => rfl) fun _ _ h => if_neg h, does_of_issueStep (fun _ => rfl) fun _ _ h => if_pos h⟩

theorem trapAndEvwaitComplete : TrapAndEvwaitComplete :=
  ⟨fun d => (does_trap d).1, fun d => (does_trap d).2.1, fun d => (does_trap d).2.2, fun d => (does_evwait d).1,
    fun d => (does_evwait d).2⟩

/-- Settles O18: a branch by its choice, TRAP by its agent, EVWAIT by the events present. -/
theorem branchesTrapAndEvwaitComplete : Obligations.BranchesTrapAndEvwaitComplete :=
  ⟨branchesComplete, trapAndEvwaitComplete⟩

end Sys2Proof.Proofs

/-! ### CSWAP and CQUI -/

namespace Sys2Proof.Proofs

open Sys2Proof.Machine Sys2Proof.Claims

/-- The refusals of a CSWAP that come before its checks of the plane (R225). -/
def swapBad (m : CFields) (k : Core) : List Nat :=
  failing [(m.obj ≠ 0 || field m.arg.toNat 7 1 ≠ 0, 0x21), (k.kindling = .bind, 0x32)]

/-- A CSWAP with its fields zero is refused before those checks where a BIND plane is there alone (R225). -/
theorem swapBad_eq {m : CFields} (hobj : m.obj = 0) (harg : field m.arg.toNat 7 1 = 0) (k : Core) :
    swapBad m k = if k.kindling = .bind then [0x32] else [] := by
  cases hk : k.kindling <;> simp [swapBad, failing, hobj, harg, hk]

/-- A refusal names the lowest of its codes (R210). -/
theorem refuse_least {x : Issue} {codes : List Nat} {code : Nat} (h : leastOf codes = some code) (m : CFields) (f : Fabric) :
    x.refuse m codes f = f.faultAt x.who x.slot x.i 0x0F (code + m.obj.toNat <<< 8 + m.arg.toNat <<< 16) 0 := by
  rw [Issue.refuse, Issue.fault, h]
  rfl

/-- CSWAP with a PROGRAM plane is checked (R225). -/
theorem exec_cswap (m : CFields) (s : State) : exec (.cswap m) s = issueStep (.cswap m) (fun x f =>
    let k := f.core x.who.core
    if swapBad m k ≠ [] then x.refuse m (swapBad m k) f
    else if k.kindling = .empty then x.noResult f
    else match f.swapFails x.who.core k.kplane k.group with
      | [] => x.wait .drain f
      | codes => x.refuse m codes f) s := rfl

/-- CSWAP with DISCARD empties the plane (R225). -/
theorem exec_cswapDiscard (m : CFields) (s : State) : exec (.cswapDiscard m) s = issueStep (.cswapDiscard m) (fun x f =>
    let k := f.core x.who.core
    if swapBad m k ≠ [] then x.refuse m (swapBad m k) f
    else x.noResult (f.modCore x.who.core fun k => { k with kindling := .empty, kplane := {} })) s := rfl

/-- Settles O21: CSWAP by the kindling plane and its checks, CQUI by its fields. -/
theorem swapAndQuiescenceComplete : Obligations.SwapAndQuiescenceComplete := by
  refine ⟨fun m => does_of_issueStep (exec_cswap m) ?_, fun m => does_of_issueStep (exec_cswap m) ?_,
    fun m code => does_of_issueStep (exec_cswap m) ?_, fun m => does_of_issueStep (exec_cswapDiscard m) ?_, fun m i hi => ?_,
    fun m => does_of_issueStep (fun _ => rfl) ?_⟩
  · rintro x f ⟨hobj, harg, hk⟩
    simp [swapBad_eq hobj harg, hk]
  · rintro x f ⟨hobj, harg, hk, hs⟩
    simp [swapBad_eq hobj harg, hk, hs]
  · rintro x f ⟨hobj, harg, hk, hs⟩
    rw [← refuse_least hs]
    cases hc : f.swapFails x.who.core (f.core x.who.core).kplane (f.core x.who.core).group with
    | nil => simp [hc, leastOf] at hs
    | cons a l => simp [swapBad_eq hobj harg, hk, hc]
  · rintro x f ⟨hobj, harg, hk⟩
    simp [swapBad_eq hobj harg, hk]
  · have hbind {x : Issue} {f : Fabric} (hobj : m.obj = 0) (harg : field m.arg.toNat 7 1 = 0)
        (hk : (f.core x.who.core).kindling = .bind) : swapBad m (f.core x.who.core) = [0x32] :=
      (swapBad_eq hobj harg _).trans (if_pos hk)
    obtain rfl | rfl := hi
    · refine does_of_issueStep (exec_cswap m) ?_
      rintro x f ⟨hobj, harg, hk⟩
      simp only [hbind hobj harg hk]
      exact refuse_least rfl m f
    · refine does_of_issueStep (exec_cswapDiscard m) ?_
      rintro x f ⟨hobj, harg, hk⟩
      simp only [hbind hobj harg hk]
      exact refuse_least rfl m f
  · rintro x f ⟨hobj, harg⟩
    simp only [hobj, harg, ne_eq, not_true, decide_false, Bool.or_self, Bool.false_eq_true, if_false]
    cases (f.core x.who.core).kindling <;> rfl

end Sys2Proof.Proofs

/-! ### Groups and gangs -/

namespace Sys2Proof.Proofs

open Sys2Proof.Machine Sys2Proof.Claims

/-- A queued group whose core is free is bound there: from its saved image, or filled anew (R309, R311). -/
theorem bind_group {m : Memory} {f : Fabric} {die r c reg : Nat} {g : Group}
    (hq : (sget [] f.units.queues die).findSome? (fun r => (f.coreFor r).map fun c => (r, c)) = some (r, c))
    (hr : f.units.regionOf r = some reg) (hg : groupOf m r reg = some g) :
    f.bind m die =
      let f' := f.modUnits fun u => { u with queues := sset u.queues die ((sget [] f.units.queues die).erase r) }
      match f.savedImage reg g.group with
      | some img => f'.modCore c fun k =>
          { k with kindling := .bind, kplane := img.plane, incoming := some { g with filled := true, restored := true } }
      | none => f'.beginFill c g := by
  have hr' (q : Sparse (List Nat)) : ({ f.units with queues := q } : Units).regionOf r = some reg := hr
  simp only [Fabric.bind, hq, Fabric.modUnits_units, hr', hg]
  rfl

/-- While no reroute pauses the module its groups are bound (R309, R355). -/
theorem exec_groupBind (die : Nat) (s : State) :
    exec (.groupBind die) s = memStep (fun m f => (m, if f.units.paused then f else f.bind m die)) s := rfl

theorem dispatchAndBind : DispatchAndBind := by
  refine ⟨fun die => moves_of_fabricStep (fun _ => rfl) fun f h => ?_,
    fun die r c reg g => memMoves_of_memStep (exec_groupBind die) ?_,
    fun die r c reg g img => memMoves_of_memStep (exec_groupBind die) ?_⟩
  · simp only [h, Bool.false_eq_true, if_false]
  · rintro m f ⟨hp, hq, hr, hg, hs⟩
    simp only [hp, Bool.false_eq_true, if_false, bind_group hq hr hg, hs]
  · rintro m f ⟨hp, hq, hr, hg, hs⟩
    simp only [hp, Bool.false_eq_true, if_false, bind_group hq hr hg, hs]

/-- A core's filled BIND plane may light: no group is lit there, its region acts, and a ganged plane's turn has come (R312, R322,
R324). -/
structure MayLight (f : Fabric) (c : Nat) (g : Group) : Prop where
  incoming : (f.core c).incoming = some g
  filled : g.filled = true
  admitted : g.refused = false
  unlit : (f.core c).group = none
  bound : (f.core c).kindling = .bind
  acts : (f.region g.region).acts = true
  released : (f.core c).gangHold = none
  turn : g.gang ≠ 0 → (f.region g.region).turn = some g.slice

/-- The fabric in which a region runs a group on a core. -/
def runsOn (f : Fabric) (c : Nat) (g : Group) : Fabric :=
  f.modRegion g.region fun r => { r with cores := (r.cores.filter fun p => p.2 ≠ g.group) ++ [(c, g.group)], idle := 0 }

/-- A BIND plane that may light does so, from the saved image of its group where it has one (R312, R323). -/
theorem lightBind_lights {f : Fabric} {c : Nat} {g : Group} (h : MayLight f c g) :
    f.lightBind c =
      match if g.restored then sfind (f.region g.region).images g.group else none with
      | some img =>
        ((runsOn f c g).modRegion g.region fun r => { r with images := sdel r.images g.group }).modCore c fun k =>
          k.lightSaved { g with filled := false } img
      | none => (runsOn f c g).modCore c fun k => k.lightNew { g with filled := false } := by
  obtain ⟨hi, hf, hr, hg, hk, ha, hh, ht⟩ := h
  have hturn : (decide (g.gang ≠ 0) && decide ((f.region g.region).turn ≠ some g.slice)) = false := by
    simpa using ht
  simp only [Fabric.lightBind, hi, hf, hr, hg, hk, ha, hh, hturn, Fabric.savedImage, Fabric.region_modRegion, Bool.not_true,
    Option.isSome_none, ne_eq, not_true, decide_false, Bool.or_self, Bool.false_eq_true, if_false]
  rfl

/-- The PROGRAM plane of a drained core whose CSWAP waits is lit (R225). -/
theorem lightSwap_lights {f : Fabric} {c slot : Nat} {e : Exec} (he : (f.core c).exec (.seq c) = some e)
    (hw : e.waits.find? (fun w => w.2 = .drain) = some (slot, .drain)) (hz : (f.core c).dbg.frozen = false)
    (hq : ∀ w ∈ e.waits, w.2 ≠ .queue) (hk : (f.core c).kindling = .program) (hn : (f.core c).noFiring = true)
    (hd : (f.core c).drained = true) :
    f.lightSwap c = (f.modRegion (f.core c).regionId fun r => { r with idle := 0 }).modCore c fun k =>
      k.lightProgram.modExec (.seq c) fun e => e.mark slot fNone := by
  have hany : (e.waits.any fun w => w.2 = .queue) = false := List.any_eq_false.2 fun w hm => by simpa using hq w hm
  simp [Fabric.lightSwap, he, hw, hz, hany, hk, hn, hd]

/-- A core whose group is complete is idle, V of the slot of a ganged record cleared (R314, R324). -/
theorem groupComplete_completes {f : Fabric} {c : Nat} {g : Group} (h : Completes f c g) (m : Memory) :
    f.groupComplete m c =
      (f.flushAll m ((f.core c).entries fun _ => true),
        (match f.units.table.find? (ofGang g) with
          | some q => f.modUnits fun u => { u with table := sset u.table q.1 (BitVec.ofNat 128 (q.2.toNat - 1)) }
          | none => f).modCore c fun k => { k.idle with gangHold := if g.gang = 0 then none else some g.gang }) := by
  obtain ⟨hg, hp, hd, hr, hz, hn, hc, hs⟩ := h
  have hready : (skeys (f.core c).plane.actors).any (f.core c).ready = false :=
    List.any_eq_false.2 fun a ha => by simp [hr a ha]
  have hgang : (fun q : Nat × BitVec 128 => recV q.2.toNat && recGang q.2.toNat ≠ 0 && recImage q.2.toNat = recImage g.record &&
      recGroup q.2.toNat = g.group) = ofGang g := rfl
  simp only [Fabric.groupComplete, hg, hp, hd, hready, hz, hn, hc, hs, hgang]
  cases f.units.table.find? (ofGang g) <;> rfl

/-- A region that is done has no refused BIND plane (R315). -/
theorem regionDone_unrefused {f : Fabric} {reg : Nat} (h : f.regionDone reg = true) :
    (f.cores.any fun q => q.2.incoming.any fun g => g.region = reg && g.refused) = false := by
  simp only [Fabric.regionDone, Bool.and_eq_true, Bool.not_eq_true'] at h
  obtain ⟨⟨⟨-, hcores⟩, -⟩, -⟩ := h
  rw [List.any_eq_false] at hcores ⊢
  intro q hq hr
  obtain ⟨g, hg, hand⟩ := (Option.any_eq_true ..).1 hr
  exact hcores q hq (by
    rw [Bool.or_eq_true]
    exact .inr ((Option.any_eq_true ..).2 ⟨g, hg, (Bool.and_eq_true_iff.1 hand).1⟩))

theorem groupsComeAndGo : GroupsComeAndGo := by
  refine ⟨fun c g => moves_of_fabricStep (fun _ => rfl) ?_, fun c g img => moves_of_fabricStep (fun _ => rfl) ?_,
    fun c e slot => moves_of_fabricStep (fun _ => rfl) ?_,
    fun c g => memMoves_of_memStep (g := fun m f => f.groupComplete m c) (fun _ => rfl) ?_,
    fun c g q => memMoves_of_memStep (g := fun m f => f.groupComplete m c) (fun _ => rfl) ?_,
    fun reg => memMoves_of_memStep (g := fun m f => f.regionEnd m reg) (fun _ => rfl) ?_,
    fun reg => memMoves_of_memStep (g := fun m f => f.regionEnd m reg) (fun _ => rfl) ?_⟩
  · rintro f ⟨hi, hf, hr, hg, hk, ha, hh, ht, hs⟩
    rw [lightBind_lights ⟨hi, hf, hr, hg, hk, ha, hh, ht⟩, hs]
    rfl
  · rintro f ⟨hi, hf, hr, hg, hk, ha, hh, ht, hs, hm⟩
    rw [lightBind_lights ⟨hi, hf, hr, hg, hk, ha, hh, ht⟩, hs, if_pos rfl, hm]
    rfl
  · rintro f ⟨he, hw, hz, hq, hk, hn, hd⟩
    exact lightSwap_lights he hw hz hq hk hn hd
  · rintro m f ⟨h, hq⟩
    rw [groupComplete_completes h, hq]
  · rintro m f ⟨h, hq⟩
    rw [groupComplete_completes h, hq]
  · rintro m f ⟨hr, hs, hd⟩
    simp [Fabric.regionEnd, hr, hs, hd, regionDone_unrefused hd]
  · rintro m f ⟨hr, hs, q, hq, g, hg, hreg, hrf⟩
    have hany : (f.cores.any fun q => q.2.incoming.any fun g => g.region = reg && g.refused) = true :=
      List.any_eq_true.2 ⟨q, hq, by simp [hg, hreg, hrf]⟩
    simp [Fabric.regionEnd, hr, hs, hany]

/-- The members of a gang judged before an instant that is near and not yet judged (R321, R355). -/
theorem gangCheck_judges {f : Fabric} {gang n e : Nat} (hg : gang ≠ 0) (hv : bitOf e 0 = true)
    (he : (sget 0 f.units.gangs gang).toNat = e) (hn : gangNext e (ptpNanos f.units.ptp) = n)
    (hi : gangInstant e n ≤ ptpNanos f.units.ptp + 2000) (hj : sget 0 f.units.judged gang ≠ n + 1) :
    f.gangCheck gang = ((f.units.regions.filter fun q => q.2.gang = gang).map Prod.fst).foldl (judged f gang n (n % field e 15 8))
      (f.modUnits fun u => { u with judged := sset u.judged gang (n + 1) }) := by
  have hwait : (!bitOf e 0 || decide (gang = 0) || decide (ptpNanos f.units.ptp + 2000 < gangInstant e n) ||
      decide (sget 0 f.units.judged gang = n + 1)) = false := by
    simp [hv, hg, hj, hi]
  unfold Fabric.gangCheck
  simp only [he, hn, hwait, Bool.false_eq_true, if_false]
  rfl

/-- Nothing keeps a gang's turn that is due from being taken (R321, R322). -/
theorem turnDue_goes {f : Fabric} {gang n slice : Nat} (h : TurnDue f gang n slice) :
    (decide (n + 1 = 0) || !bitOf (sget 0 f.units.gangs gang).toNat 0 || decide (sget 0 f.units.switched gang = n + 1) ||
      decide (ptpNanos f.units.ptp < gangInstant (sget 0 f.units.gangs gang).toNat (n + 1 - 1))) = false := by
  simpa [h.fresh] using ⟨h.valid, h.instant⟩

theorem gangsTurn : GangsTurn := by
  refine ⟨fun i => moves_of_fabricStep (fun _ => rfl) ?_, fun gang n e hg hv => moves_of_fabricStep (fun _ => rfl) ?_,
    fun gang n slice => moves_of_fabricStep (fun _ => rfl) ?_, fun gang n slice => moves_of_fabricStep (fun _ => rfl) ?_⟩
  · rintro f ⟨hv, hg, hd, hp, hr⟩
    simp [Fabric.gangReady, hv, hg, hd, hp, hr]
  · rintro f ⟨he, hn, hi, hj⟩
    exact gangCheck_judges hg hv he hn hi hj
  · rintro f ⟨ht, hp⟩
    simp only [Fabric.gangSwitch, ht.judged, turnDue_goes ht, Bool.false_eq_true, if_false]
    exact if_pos hp
  · rintro f ⟨ht, hp⟩
    simp only [Fabric.gangSwitch, ht.judged, turnDue_goes ht, Bool.false_eq_true, if_false, ← ht.slice]
    exact if_neg (Bool.eq_false_iff.1 hp)

/-- Settles O42: dispatch and binding, lighting and completion, and a gang's turns, each where its conditions hold. -/
theorem groupsAndGangsMove : Obligations.GroupsAndGangsMove :=
  ⟨dispatchAndBind, groupsComeAndGo, gangsTurn⟩

end Sys2Proof.Proofs

/-! ### Dataflow operators -/

namespace Sys2Proof.Machine

@[simp] theorem Core.oper_modOper (k : Core) (op : Nat) (g : Oper → Oper) : (k.modOper op g).oper op = g (k.oper op) := by
  simp [Core.modOper, Core.oper]

/-- Taking a token from an input leaves the operators' own state. -/
@[simp] theorem Core.oper_consume (k : Core) (op inp n : Nat) : (k.consume op inp).oper n = k.oper n := by
  unfold Core.consume
  split <;> rfl

/-- Emitting a beat leaves the operators' own state. -/
@[simp] theorem Core.oper_emit (k : Core) (op out : Nat) (b : Beat) (n : Nat) : (k.emit op out b).oper n = k.oper n := by
  unfold Core.emit
  split <;> rfl

end Sys2Proof.Machine

namespace Sys2Proof.Proofs

open Sys2Proof.Machine Sys2Proof.Claims

/-- An operator's event steps its core to `post` where its change gives `post`. -/
theorem steps_of_operEvent {i : Instr} {c : Nat} {g : Core → Row → Row → Option Core} {pre : Core → Row → Row → Prop}
    {post : Core → Row → Row → Core} (he : ∀ s, exec i s = operEvent c g s)
    (h : ∀ k a b, pre k a b → g k a b = some (post k a b)) : Steps i c pre post := by
  intro s hp
  rw [he, operEvent_next (h _ _ _ hp)]
  rfl

/-! Each operator's event is a step of its operator (Table 7-8, R220 to R222). -/

section

variable (c op : Nat) (s : State)

theorem exec_steerStep : exec (.steerStep c op) s = operEvent c (fun k a b => k.steer op a b) s := rfl

theorem exec_mergeStep : exec (.mergeStep c op) s = operEvent c (fun k a b => k.merge op a b) s := rfl

theorem exec_carryStep : exec (.carryStep c op) s = operEvent c (fun k a b => k.carry op a b) s := rfl

theorem exec_invariantStep : exec (.invariantStep c op) s = operEvent c (fun k a b => k.keepValue op a b) s := rfl

theorem exec_chainIndexEmit :
    exec (.chainIndexEmit c op) s = operEvent c (fun k _ _ => (k.chain op).bind fun k' => if k' = k then none else some k') s := rfl

theorem exec_loopIndexEmit : exec (.loopIndexEmit c op) s = operEvent c (fun k a _ => k.loopStep op a) s := rfl

theorem exec_cornerTurnStep : exec (.cornerTurnStep c op) s = operEvent c (fun k a _ => k.turn op a) s := rfl

end

theorem routerOperatorsStep : RouterOperatorsStep := by
  refine ⟨fun c op cfg d p => steps_of_operEvent (exec_steerStep c op) ?_,
    fun c op cfg d p => steps_of_operEvent (exec_mergeStep c op) ?_, fun c op cfg d => steps_of_operEvent (exec_carryStep c op) ?_,
    fun c op cfg d p => steps_of_operEvent (exec_carryStep c op) ?_, fun c op cfg p => steps_of_operEvent (exec_carryStep c op) ?_,
    fun c op cfg d => steps_of_operEvent (exec_invariantStep c op) ?_,
    fun c op cfg v p => steps_of_operEvent (exec_invariantStep c op) ?_,
    fun c op cfg v p => steps_of_operEvent (exec_invariantStep c op) ?_⟩
  · rintro k a b ⟨hr, hd, hp, hs, ht⟩
    rw [armOf] at hs
    simp [Core.steer, armOf, hr, hd, hp, hs, ht]
  · rintro k a b ⟨hr, hp, hd, hs⟩
    rw [armOf] at hd
    simp [Core.merge, armOf, hr, hd, hp, hs]
  · rintro k a b ⟨hr, h0, hd, hs⟩
    simp [Core.carry, hr, h0, hd, hs]
  · rintro k a b ⟨hr, h0, hp, ht, hd, hs⟩
    simp [Core.carry, hr, h0, hp, ht, hd, hs]
  · rintro k a b ⟨hr, h0, hp, ht⟩
    simp [Core.carry, hr, h0, hp, ht]
  · rintro k a b ⟨hr, hv, hd, hs⟩
    simp [Core.keepValue, hr, hv, hd, hs]
  · rintro k a b ⟨hr, hv, hp, ht, hs⟩
    simp [Core.keepValue, hr, hv, hp, ht, hs]
  · rintro k a b ⟨hr, hv, hp, ht⟩
    simp [Core.keepValue, hr, hv, hp, ht]

/-- A counter chain's event steps where the chain's own step leaves its operator another state. -/
theorem steps_chain {c op : Nat} {pre : Core → Row → Row → Prop} {post : Core → Row → Row → Core}
    (h : ∀ k a b, pre k a b → k.chain op = some (post k a b)) (hne : ∀ k a b, pre k a b → (post k a b).oper op ≠ k.oper op) :
    Steps (.chainIndexEmit c op) c pre post := by
  refine steps_of_operEvent (exec_chainIndexEmit c op) fun k a b hp => ?_
  rw [h k a b hp]
  exact if_neg fun he => hne k a b hp (congrArg (Core.oper · op) he)

/-- The index token of a loop generator at iteration `i` (R221). -/
def loopToken (o : Oper) (i : Nat) : Tok :=
  ⟨ofElems 32 16 fun e =>
      if e = 0 then wrapTo 32 (s32At o.bound 0 + (i : Int) * s32At o.bound 2)
      else if e = 4 then (if i = 0 then 1 else 0) + (if i + 1 = loopCount o.bound then 2 else 0) else 0,
    o.held.any (·.ember)⟩

/-- A loop generator with a bound emits its next index, or the end token past the last (R221). -/
theorem loopStep_started {k : Core} {op : Nat} {cfg : OperCfg} (hr : k.operRuns op 0x2CA = some cfg)
    (hs : (k.oper op).started = true) (hp : k.hasSpace op 0 = true) (free : Row) :
    k.loopStep op free = some
      (if loopCount (k.oper op).bound ≤ (k.oper op).ix.headD 0 then
        (k.emit op 0 ⟨field cfg.arg 2 0, {}⟩).modOper op fun o => { o with started := false, ix := [], held := none }
      else
        (k.emit op 0 ⟨0, loopToken (k.oper op) ((k.oper op).ix.headD 0)⟩).modOper op fun o =>
          { o with ix := [(k.oper op).ix.headD 0 + 1] }) := by
  simp only [Core.loopStep, hr, hs, hp, Option.bind_eq_bind, Option.bind_some, Bool.not_true, Bool.false_eq_true, if_false]
  split
  · rfl
  · cases hv : (k.oper op).held <;> simp only [loopToken, hv] <;> rfl

theorem indexOperatorsStep : IndexOperatorsStep := by
  refine ⟨fun c op cfg t => steps_chain ?_ ?_, fun c op cfg ix => steps_chain ?_ ?_,
    fun c op cfg d => steps_of_operEvent (exec_loopIndexEmit c op) ?_, fun c op cfg => steps_of_operEvent (exec_loopIndexEmit c op) ?_,
    fun c op cfg i b => steps_of_operEvent (exec_loopIndexEmit c op) ?_,
    fun c op cfg t => steps_of_operEvent (exec_cornerTurnStep c op) ?_,
    fun c op cfg j => steps_of_operEvent (exec_cornerTurnStep c op) ?_⟩
  · rintro k a b ⟨hr, hc, hs, hi, d, hd, h0, rfl⟩
    obtain ⟨r, hi⟩ := Option.isSome_iff_exists.1 hi
    simp [Core.chain, hr, hc, hs, hi, hd, h0]
  · rintro k a b ⟨hr, hc, hs, -⟩ he
    have hn := congrArg Oper.started he
    simp [hs] at hn
  · rintro k a b ⟨hr, hc, hi, hs, hp, hn⟩
    simp [Core.chain, hr, hc, hi, hs, hp, hn]
  · rintro k a b - he
    have hn := congrArg Oper.sent he
    simp at hn
  · rintro k a b ⟨hr, hs, hd⟩
    simp [Core.loopStep, hr, hs, hd]
  · rintro k a b ⟨hr, hs, hp, hl⟩
    rw [loopStep_started hr hs hp, if_pos hl]
  · rintro k a b ⟨hr, hs, hp, rfl, rfl, hl⟩
    rw [loopStep_started hr hs hp, if_neg (Nat.not_le.2 hl)]
    rfl
  · rintro k a b ⟨hr, hp, d, hd, h0, rfl⟩
    simp [Core.turn, hr, hp, hd, h0]
  · rintro k a b ⟨hr, hp, hs, rfl⟩
    simp [Core.turn, hr, hp, hs]

/-- Settles O45: each operator's step where its inputs are there and its outputs have room. -/
theorem operatorsStep : Obligations.OperatorsStep :=
  ⟨routerOperatorsStep, indexOperatorsStep⟩

end Sys2Proof.Proofs

/-! ### Control tokens -/

namespace Sys2Proof.Machine

/-- The inputs of an operator to which a route is attached. -/
def Core.attached (k : Core) (op code : Nat) : List Nat := (List.range (operPorts code).1).filter fun i => (k.inRoute op i).isSome

/-- The tags at the heads of an operator's attached inputs. -/
def Core.headTags (k : Core) (op code : Nat) : List Nat :=
  ((k.attached op code).map (k.inHead op)).filterMap fun h => h.map (·.tag)

theorem Core.mem_headTags {k : Core} {op code t : Nat} :
    t ∈ k.headTags op code ↔ ∃ i ∈ k.attached op code, ∃ b, k.inHead op i = some b ∧ b.tag = t := by
  simp [Core.headTags, List.filterMap_map, List.mem_filterMap, Option.map_eq_some_iff]

/-- An operator that may pass control tokens: configured, lit, not stopped by a mismatch, with nothing of its own to emit (R218). -/
structure Core.PassesControl (k : Core) (op : Nat) (cfg : OperCfg) : Prop where
  config : sfind k.plane.opers op = some cfg
  goes : k.dbg.frozen = false
  lit : k.group.isSome = true
  unstuck : (k.oper op).stuck = false
  idle : k.operIdle op cfg.op = true
  fed : k.attached op cfg.op ≠ []
  control : ∀ i ∈ k.attached op cfg.op, ∃ b, k.inHead op i = some b ∧ b.tag ≠ 0

/-- Control tokens at every attached input pass where they are of one level and the outputs have room, and stop the operator where
their levels differ (R218). -/
theorem Fabric.controlPass_eq {f : Fabric} {c op : Nat} {cfg : OperCfg} (h : (f.core c).PassesControl op cfg) :
    let k := f.core c
    f.controlPass c op =
      if (k.headTags op cfg.op).all (· = (k.headTags op cfg.op).headD 0) then
        if (List.range (operPorts cfg.op).2).all (k.hasSpace op) then
          f.operStep c (some ((List.range (operPorts cfg.op).2).foldl
            (fun k' o => k'.emit op o ⟨(k.headTags op cfg.op).headD 0, {}⟩)
            ((k.attached op cfg.op).foldl (fun k' i => k'.consume op i) k)))
        else f
      else
        (f.modCore c fun k => k.modOper op fun o => { o with stuck := true }).postTrap c
          { code := 0x11, async := true, addr := op, src := .engine } := by
  obtain ⟨hcfg, hz, hg, hs, hi, hins, hctl⟩ := h
  have hnone : (((f.core c).attached op cfg.op).map ((f.core c).inHead op)).any (·.isNone) = false := by
    rw [List.any_eq_false]
    intro o ho
    obtain ⟨i, hi, rfl⟩ := List.mem_map.1 ho
    obtain ⟨b, hb, -⟩ := hctl i hi
    simp [hb]
  have hzero : ((f.core c).headTags op cfg.op).any (· = 0) = false := by
    rw [List.any_eq_false]
    intro t ht
    obtain ⟨i, hi, b, hb, rfl⟩ := Core.mem_headTags.1 ht
    obtain ⟨d, hd, hn⟩ := hctl i hi
    obtain rfl : b = d := Option.some.inj (hb.symm.trans hd)
    simpa using hn
  have hlit : (f.core c).group.isNone = false := by rw [← Option.not_isSome, hg]; rfl
  have hgo : ((f.core c).dbg.frozen || (f.core c).group.isNone || ((f.core c).oper op).stuck || !(f.core c).operIdle op cfg.op ||
      decide ((f.core c).attached op cfg.op = []) || (((f.core c).attached op cfg.op).map ((f.core c).inHead op)).any (·.isNone) ||
      ((f.core c).headTags op cfg.op).any (· = 0)) = false := by
    simp only [hz, hlit, hs, hi, hins, hnone, hzero, decide_false, Bool.not_true, Bool.or_self]
  unfold Fabric.controlPass
  simp only [hcfg]
  exact if_neg (Bool.eq_false_iff.1 hgo)

end Sys2Proof.Machine

namespace Sys2Proof.Proofs

open Sys2Proof.Machine Sys2Proof.Claims

/-- Control tokens of one level at every attached input have that level alone. -/
theorem headTags_level {k : Core} {op code level : Nat} (hins : k.attached op code ≠ [])
    (h : ∀ i ∈ k.attached op code, ∃ b, k.inHead op i = some b ∧ b.tag = level) :
    (k.headTags op code).headD 0 = level ∧ (k.headTags op code).all (· = (k.headTags op code).headD 0) = true := by
  have hall : ∀ t ∈ k.headTags op code, t = level := by
    intro t ht
    obtain ⟨i, hi, b, hb, rfl⟩ := Core.mem_headTags.1 ht
    obtain ⟨d, hd, hl⟩ := h i hi
    rw [Option.some.inj (hb.symm.trans hd), hl]
  have hhead : (k.headTags op code).headD 0 = level := by
    obtain ⟨i, hi⟩ := List.exists_mem_of_ne_nil _ hins
    have hmem : level ∈ k.headTags op code := Core.mem_headTags.2 ⟨i, hi, h i hi⟩
    cases ht : k.headTags op code with
    | nil => rw [ht] at hmem; exact absurd hmem List.not_mem_nil
    | cons t l => exact hall t (by rw [ht]; exact List.mem_cons_self)
  exact ⟨hhead, List.all_eq_true.2 fun t ht => decide_eq_true ((hall t ht).trans hhead.symm)⟩

theorem controlTokensPass : ControlTokensPass := by
  refine ⟨fun c op cfg level => moves_of_fabricStep (fun _ => rfl) ?_,
    fun c op cfg i j b d => moves_of_fabricStep (fun _ => rfl) ?_⟩
  · rintro f ⟨hcfg, hz, hg, hs, hi, hins, hl, hctl, hroom⟩
    obtain ⟨hhead, hall⟩ := headTags_level hins hctl
    have hspace : (List.range (operPorts cfg.op).2).all ((f.core c).hasSpace op) = true :=
      List.all_eq_true.2 fun o ho => hroom o (List.mem_range.1 ho)
    have hctl' : ∀ i ∈ (f.core c).attached op cfg.op, ∃ b, (f.core c).inHead op i = some b ∧ b.tag ≠ 0 := fun i hi => by
      obtain ⟨b, hb, hlevel⟩ := hctl i hi
      exact ⟨b, hb, hlevel ▸ hl⟩
    rw [Fabric.controlPass_eq ⟨hcfg, hz, hg, hs, hi, hins, hctl'⟩, if_pos hall, if_pos hspace, hhead]
    rfl
  · rintro f ⟨hcfg, hz, hg, hs, hi, him, hjm, hbi, hbj, hne, hctl⟩
    rw [Fabric.controlPass_eq ⟨hcfg, hz, hg, hs, hi, List.ne_nil_of_mem him, hctl⟩]
    refine if_neg fun hall => hne ?_
    have same (t : Nat) (ht : t ∈ (f.core c).headTags op cfg.op) := of_decide_eq_true (List.all_eq_true.1 hall t ht)
    rw [same _ (Core.mem_headTags.2 ⟨i, him, b, hbi, rfl⟩), same _ (Core.mem_headTags.2 ⟨j, hjm, d, hbj, rfl⟩)]

end Sys2Proof.Proofs

/-! ### Circuits -/

namespace Sys2Proof.Machine

/-- A beat received into a buffer leaves whether a core has passed the cut. -/
@[simp] theorem Core.cutDone_modIn (k : Core) (route : Nat) (g : List Beat → List Beat) :
    (k.modIn route g).cutDone = k.cutDone := rfl

end Sys2Proof.Machine

namespace Sys2Proof.Proofs

open Sys2Proof.Machine Sys2Proof.Claims

/-- A beat that may be sent leaves its outbound buffer, and lands at once where its path crosses no die edge (R346). -/
theorem sendBeat_sends {f : Fabric} {c route : Nat} {b : Beat} {d : Nat} (h : MaySend f c route b d) :
    f.sendBeat c route = some
      (if f.edgesOf (f.core c).regionId route = 0 then (beatLeft f c route).landBeat c d route b
      else (beatLeft f c route).modCore c fun k =>
        { k with ends := smod {} k.ends (route * 2) fun e => { e with air := e.air ++ [(0, b)] } }) := by
  obtain ⟨-, -, hb, -, hd, hp, hroom, ha⟩ := h
  have hmay : f.maySend c d b = true := by simpa [Fabric.maySend, imp_iff_not_or] using ha
  have hcredit : ¬ f.recvDepth (f.core c).regionId route ≤ ((f.core d).inBeats route).length + ((f.core c).airBeats route).length :=
    Nat.not_le.2 hroom
  have hgo : (f.units.paused || decide (f.recvDepth (f.core c).regionId route ≤ ((f.core d).inBeats route).length +
      ((f.core c).airBeats route).length) || !f.maySend c d b) = false := by
    simp only [hp, hmay, decide_eq_false hcredit, Bool.not_true, Bool.or_self]
  simp only [Fabric.sendBeat, hb, hd, Option.bind_eq_bind, Option.bind_some, hgo, Bool.false_eq_true, if_false]
  exact (apply_ite some _ _ _).symm

/-- Of a send and a take from the window, the one that can happen does, and counts as a move of its region (R346). -/
theorem exec_circuitBeatSend {s : State} {c route : Nat} {g : Fabric} (hz : (s.fab.core c).dbg.frozen = false)
    (hl : (s.fab.core c).group.isSome = true)
    (hg : s.fab.sendBeat c route = some g ∧ s.fab.takeBeat c route = none ∨
      s.fab.sendBeat c route = none ∧ s.fab.takeBeat c route = some g) :
    exec (.circuitBeatSend c route) s = .next { s with
      fab := g.modRegion (s.fab.core c).regionId fun r => { r with idle := 0 }
      run := { s.run with free := s.run.free + 1 } } := by
  have hlit : (s.fab.core c).group.isNone = false := by rw [← Option.not_isSome, hl]; rfl
  have hsend : s.fab.circuitSend c route (Config.freeValue s.run.free) =
      g.modRegion (s.fab.core c).regionId fun r => { r with idle := 0 } := by
    rcases hg with ⟨hs, ht⟩ | ⟨hs, ht⟩ <;>
      simp only [Fabric.circuitSend, hz, hlit, hs, ht, Bool.or_self, Bool.false_eq_true, if_false]
  rw [← hsend]
  rfl

/-- A beat that comes to a core which has not passed the cut is received (R346, R410). -/
theorem landBeat_received {f : Fabric} {c d route : Nat} {b : Beat} (hd : (f.core d).cutDone = false)
    (hb : b.tag < 8 ∨ f.isBack (f.core c).regionId route = false) :
    f.landBeat c d route b = f.modCore d fun k => k.modIn route fun l => l ++ [b] := by
  have hback : (decide (8 ≤ b.tag) && f.isBack (f.core c).regionId route) = false := by
    rcases hb with h | h
    · rw [decide_eq_false (Nat.not_le.2 h), Bool.false_and]
    · rw [h, Bool.and_false]
  simp only [Fabric.landBeat, hback, Fabric.core_modCore, Core.cutDone_modIn, hd, Bool.false_and, Bool.false_eq_true, if_false]

/-- The head of a receive buffer goes to its landing window: a control beat without a row, data into a free one (R344, R346). -/
theorem receiveBeat_lands {k : Core} {route : Nat} {e : EndCfg} {b : Beat} {r : List Beat}
    (he : sfind k.plane.ends (route * 2 + 1) = some e) (hb : k.inBeats route = b :: r) (hm : k.inMarked route = false)
    (hk : e.kind = 0) (hz : k.dbg.frozen = false) (hr : k.restoring e.obj = false) :
    k.receiveBeat route =
      let k' := k.modIn route fun l => l.drop 1
      if b.tag ≠ 0 then some (k'.modWin e.obj fun n => { n with ctl := n.ctl ++ [(n.f, b.tag)] })
      else if k.freeRows e.obj = 0 then none
      else some (k'.fillWin e.obj b.tok) := by
  have hn : k.inNext route = some b := by simp [Core.inNext, hm, hb]
  simp [Core.receiveBeat, he, hn, hk, hz, hr]

theorem circuitsCarry : CircuitsCarry := by
  refine ⟨fun s c route b d h he => ?_, fun s c route b d h he => ?_, fun f c d route b hd hb => landBeat_received hd hb,
    fun f c d route b hb hk => ?_, fun s c route g hz hl hs ht => ?_, fun c route => moves_of_fabricStep (fun _ => rfl) ?_,
    fun c route e b r => moves_of_fabricStep (fun _ => rfl) ?_, fun c route e b r => moves_of_fabricStep (fun _ => rfl) ?_⟩
  · exact exec_circuitBeatSend h.goes h.lit (.inl ⟨(sendBeat_sends h).trans (congrArg some (if_pos he)), h.full⟩)
  · exact exec_circuitBeatSend h.goes h.lit (.inl ⟨(sendBeat_sends h).trans (congrArg some (if_neg he)), h.full⟩)
  · simp [Fabric.landBeat, hb, hk]
  · exact exec_circuitBeatSend hz hl (.inr ⟨hs, ht⟩)
  · intro f hm
    have hn : (f.core c).receiveBeat route = none := by
      cases he : sfind (f.core c).plane.ends (route * 2 + 1) <;> simp [Core.receiveBeat, Core.inNext, he, hm]
    rw [hn]
    rfl
  · rintro f ⟨he, hb, hm, hk, hz, hr, ht, hf⟩
    rw [receiveBeat_lands he hb hm hk hz hr]
    simp only [ht, ne_eq, not_true, if_false, if_neg hf]
    rfl
  · rintro f ⟨he, hb, hm, hk, hz, hr, ht⟩
    rw [receiveBeat_lands he hb hm hk hz hr]
    simp only [if_pos ht]
    rfl

/-- Settles O46: control tokens by the levels at the inputs, beats by the buffer, the path and the window that they meet. -/
theorem controlTokensAndCircuits : Obligations.ControlTokensAndCircuits :=
  ⟨controlTokensPass, circuitsCarry⟩

end Sys2Proof.Proofs

end

/-!
PROOFS. The statements of chapter 8's family: the diagnostic instructions (R270 to R276), the rows of generators and of the matrix
engine (R236 to R255, R328 to R336), network answers and watchpoint strikes (R263 to R265, R428, R436, R437), pages that move between
the tiers and the Kiln's part in faults (R261, R262, R297 to R299, R399), network arrivals (R266, R300, R382 to R386), and recovery
(R400 to R423). Elaborated one after another, as above.
-/

section

set_option Elab.async false

/-! ### Diagnostic instructions -/

namespace Sys2Proof.Proofs

open Sys2Proof.Machine Sys2Proof.Claims

/-- RWC arms its stop, and asks for a rollback where the count is already reached (R272). -/
theorem does_rwcArm (d : DFields) :
    Does (.rwcArm d) (fun f x => (f.core x.who.core).dbg.retired < BitVec.ofNat 64 (elem 64 x.a 0))
      (fun x f => (x.noResult f).modCore x.who.core fun k =>
        { k with dbg := { k.dbg with stop := some (BitVec.ofNat 64 (elem 64 x.a 0)) } }) ∧
    Does (.rwcArm d) (fun f x => BitVec.ofNat 64 (elem 64 x.a 0) ≤ (f.core x.who.core).dbg.retired)
      (fun x f => Fabric.replayTo ((x.noResult f).modCore x.who.core fun k =>
        { k with dbg := { k.dbg with stop := some (BitVec.ofNat 64 (elem 64 x.a 0)) } }) x.who.core) :=
  ⟨does_of_issueStep (fun _ => rfl) fun _ _ h => if_neg (BitVec.not_le.2 h),
    does_of_issueStep (fun _ => rfl) fun _ _ h => if_pos h⟩

theorem diagnosticCommandsComplete : DiagnosticCommandsComplete := by
  refine ⟨fun d => ?_, fun d => ?_, fun d => (does_rwcArm d).1, fun d => (does_rwcArm d).2, fun d => ?_⟩ <;>
    exact does_of_issueStep (fun _ => rfl) fun _ _ _ => rfl

/-- A command that names no descriptor names none that was never written. -/
theorem written_none (k : Core) : Written k none := nofun

theorem faultInjection : FaultInjection := by
  refine ⟨fun d => does_of_issueStep (fun _ => rfl) ?_, fun d => does_of_issueStep (fun _ => rfl) ?_⟩
  · rintro x f ⟨hr, hpe, hcls, hlane, hbit⟩
    have hpass : ∀ c ∈ [rangeFail (255 < elem 32 x.a 0 && elem 32 x.a 0 ≠ 0xFFFF) 0,
        rangeFail (4 < elem 32 x.a 1 || (elem 32 x.a 1 = 4 && elem 32 x.a 0 = 0xFFFF)) 1, rangeFail (15 < elem 32 x.a 2) 2,
        rangeFail (31 < elem 32 x.a 3) 3], c.1 = false := by
      simp only [List.forall_mem_cons, List.not_mem_nil, false_implies, implies_true, and_true, rangeFail, Bool.and_eq_false_iff,
        Bool.or_eq_false_iff, decide_eq_false_iff_not]
      omega
    simp only [hr, Bool.not_true, Bool.false_eq_true, if_false]
    exact checked_passes (written_none _) hpass
  · intro x f hr
    simp only [hr, Bool.not_false, if_true, Issue.fault]

theorem recordsAndReportsComplete : RecordsAndReportsComplete := by
  refine ⟨fun d => ?_, fun d => ?_, fun d => ?_, fun d => ?_, fun d => ?_, fun d => ?_⟩
  · exact does_of_issueStep (fun _ => rfl) fun _ _ _ => rfl
  · exact does_of_issueStep (fun _ => rfl) fun _ _ _ => rfl
  · exact does_of_issueStep (fun _ => rfl) fun _ _ _ => rfl
  · exact does_of_issueStep (fun _ => rfl) fun _ _ _ => Fabric.modCore_modCore ..
  · refine does_of_issueStep (fun _ => rfl) ?_
    rintro x f ⟨hw, hp⟩
    refine checked_passes (written_none _) ?_
    simp [partyFail, Core.notParty, hw, hp]
  · refine does_of_issueStep (fun _ => rfl) fun x f h => ?_
    have hfail : (f.core x.who.core).notParty (d.imm.toNat % 256) true 0 = true := by simpa [Core.notParty] using h
    have hone : [partyFail ((f.core x.who.core).notParty (d.imm.toNat % 256) true 0)].filter (·.1) = [(true, 0x42, 0xFF)] := by
      rw [hfail]
      rfl
    exact checked_fails (written_none _) hone (by decide) (by decide)

/-- Settles O24: the plain forms by what they execute to, the others by their checks. -/
theorem diagnosticInstructionsComplete : Obligations.DiagnosticInstructionsComplete :=
  ⟨diagnosticCommandsComplete, faultInjection, recordsAndReportsComplete⟩

end Sys2Proof.Proofs

/-! ### Rows of generators and of the matrix engine -/

namespace Sys2Proof.Proofs

open Sys2Proof.Machine Sys2Proof.Claims

theorem generatorRows : GeneratorRows := by
  refine ⟨fun c i q => moves_of_fabricStep (fun _ => rfl) ?_, fun c i q => moves_of_fabricStep (fun _ => rfl) ?_,
    fun c i q => moves_of_fabricStep (fun _ => rfl) ?_⟩
  · rintro f ⟨⟨hq, hz⟩, hf, hl, hp, hs, hr, hfree, hland⟩
    rw [RowLeft] at hl
    cases ht : q.total <;>
      simp only [Fabric.genFill, hq, ht, hl, hf, hz, hp, hs, hr, hfree, hland, Bool.not_true, decide_true, decide_false, Bool.or_self,
        Bool.false_eq_true, if_false] <;>
      rfl
  · rintro f ⟨⟨hq, hz⟩, hw, hl, hp, he, hwr, hs⟩
    have hempty : (decide (q.op ≠ 0x345) && decide ((f.core c).readable q.win = 0)) = false := by
      rcases he with he | he <;> simp [he]
    rw [RowLeft] at hl
    cases ht : q.total <;>
      simp only [Fabric.genShrink, hq, ht, hl, hw, hz, hp, hempty, hwr, hs, Bool.not_true, decide_true, Bool.and_false, Bool.false_and,
        Bool.or_self, Bool.false_eq_true, if_false] <;>
      rfl
  · rintro f ⟨⟨hq, hz⟩, ho, hs, hdz, hc, hdc, hl, hrd, hg, hfd, hp, hfree, hr⟩
    have hlit : (f.core (elem 32 q.a 0 * 128 + elem 32 q.a 1)).group.isNone = false := by rw [← Option.not_isSome, hg]; rfl
    simp only [Fabric.cpyrRow, hq, ho, hz, hs, hdz, hc, hdc, Nat.not_le.2 hl, hrd, hlit, hfd, hp, hfree, hr, ne_eq, not_true,
      decide_false, Bool.not_true, Bool.or_self, Bool.false_eq_true, if_false]
    rfl

theorem matrixRows : MatrixRows := by
  refine ⟨fun c m g => moves_of_fabricStep (fun _ => rfl) ?_, fun c m => moves_of_fabricStep (fun _ => rfl) ?_,
    fun c m => moves_of_fabricStep (fun _ => rfl) ?_, fun c m => moves_of_fabricStep (fun _ => rfl) ?_⟩
  · rintro f ⟨hm, hg, hr, hf, hz⟩
    refine Fabric.modCore_congr ?_
    simp only [Core.chainStart, Core.admitting, hm, hg, hr, hf, hz, Bool.not_false, Bool.and_self, if_true]
  · rintro f ⟨hm, hz, hs⟩
    refine Fabric.modCore_congr ?_
    simp only [Core.recordLoad, hm, hz, hs, Bool.or_self, Bool.false_eq_true, if_false]
  · rintro f ⟨hm, hz, hl, hr, hrd⟩
    have hmay : (f.core c).mayAdmit = some m := by
      rw [Core.mayAdmit, Core.admitting, hm, Option.filter_some, if_pos]
      simp only [hz, hl, hr, hrd, Bool.not_false, decide_true, Bool.and_self]
    simp only [Fabric.rowAdmit, hmay]
    rfl
  · rintro f ⟨hm, hz, hw, hl⟩
    refine Fabric.modCore_congr ?_
    have hall : (m.recLines m.written).all (m.holds m.written) = true := List.all_eq_true.2 hl
    simp only [Core.recordWrite, hm, hz, Nat.not_le.2 hw, hall, decide_false, Bool.not_true, Bool.or_self, Bool.false_eq_true, if_false]

theorem matrixResults : MatrixResults := by
  refine fun c m i rows rest => moves_of_fabricStep (fun _ => rfl) ?_
  rintro f ⟨hm, ha, hz, hi⟩
  simp only [Fabric.accWriteRow, hm, ha, hz, hi, Bool.false_eq_true, if_false]
  rfl

/-- Settles O36: each event by the command that it serves and the row or record that is next. -/
theorem engineRowsMove : Obligations.EngineRowsMove :=
  ⟨generatorRows, matrixRows, matrixResults⟩

end Sys2Proof.Proofs

/-! ### Network answers and watchpoint strikes -/

namespace Sys2Proof.Machine

/-- Two changes of a region that give it the same are the same. -/
theorem Fabric.modRegion_congr {f : Fabric} {r : Nat} {g h : Region → Region} (hr : g (f.region r) = h (f.region r)) :
    f.modRegion r g = f.modRegion r h := by
  unfold Fabric.modRegion Fabric.modUnits smod
  exact congrArg (fun x => { f with units := { f.units with regions := sset f.units.regions r x } }) hr

end Sys2Proof.Machine

namespace Sys2Proof.Proofs

open Sys2Proof.Machine Sys2Proof.Claims

/-- An acknowledgement counts for the earliest command of its connection with rows unanswered (R264). -/
theorem netAck_counts {k : Core} {conn : Nat} {m : NetCmd} (hz : k.dbg.frozen = false)
    (hm : k.eng.net.find? (fun m => m.sends && m.conn = conn && m.acked < m.sent) = some m) :
    k.netAck conn = k.putNet { m with acked := m.acked + 1 } := by
  simp only [Core.netAck, hm, hz, Bool.false_eq_true, if_false]

/-- A row of a connection's NGET fills its window and is logged, no row of an earlier interval being left (R265, R412). -/
theorem ngetRow_fills {f : Fabric} {c conn : Nat} {row : Row} {m : NetCmd} (hm : (f.core c).netGetter conn = some m)
    (hz : (f.core c).dbg.frozen = false) (hb : (f.region (f.core c).regionId).rowsBack = []) :
    f.ngetRow c conn row =
      (f.modCore c fun k => (k.fillWin m.win ⟨row, false⟩).putNet { m with acked := m.acked + 1 }).modRegion (f.core c).regionId
        fun r => { r with rowsIn := r.rowsIn ++ [(c, m.win, row)], rowsBack := [], idle := 0 } := by
  simp only [Fabric.ngetRow, hm, hz, hb, List.find?_nil, Bool.false_eq_true, if_false]
  refine Fabric.modRegion_congr ?_
  rw [Fabric.region_modCore, hb, List.eraseP_nil]

/-- A refusal answers the earliest row that its connection awaits, or ends an NGET, and traps (R263). -/
theorem netRefused_answers {f : Fabric} {c conn : Nat} {scope : Bool} {m : NetCmd}
    (hm : (f.core c).eng.net.find? (fun m => m.awaits conn) = some m) (hz : (f.core c).dbg.frozen = false)
    (hs : scope = true → m.op = 0x35A) :
    f.netRefused c conn scope =
      (f.modCore c fun k => k.putNet (if m.sends then { m with acked := m.acked + 1 } else { m with ended := true })).postTrap c
        (engineTrap (if scope then 0x32 else 0x34) m.op 0 0xFFFC (m.remote m.acked)) := by
  have hop : (scope && decide (m.op ≠ 0x35A)) = false := by
    cases scope with
    | false => rfl
    | true => simp [hs rfl]
  simp only [Fabric.netRefused, hm, hz, hop, Bool.or_self, Bool.false_eq_true, if_false]

theorem networkAnswers : NetworkAnswers := by
  refine ⟨fun c conn m => moves_of_fabricStep (fun _ => rfl) ?_, fun c conn row m => moves_of_fabricStep (fun _ => rfl) ?_,
    fun c conn scope m => moves_of_fabricStep (fun _ => rfl) ?_, fun c conn m => moves_of_fabricStep (fun _ => rfl) ?_⟩
  · rintro f ⟨hm, hz⟩
    exact congrArg (Fabric.sendReady · c) (Fabric.modCore_congr (netAck_counts hz hm))
  · rintro f ⟨hm, hz, hb⟩
    exact ngetRow_fills hm hz hb
  · rintro f ⟨hm, hz, hsend, hs⟩
    rw [netRefused_answers hm hz hs, if_pos hsend]
  · rintro f ⟨hm, hz, hsend⟩
    rw [netRefused_answers (scope := false) hm hz nofun, hsend]
    rfl

/-- A copy engine's strike of the lowest watchpoint is raised, no other watchpoint having matched (R428). -/
theorem watchRaise_engine {f : Fabric} {c : Nat} {x : Raising} (hz : (f.core c).dbg.frozen = false)
    (hx : leastStrike ((f.cores.flatMap fun q => q.2.finals q.1).filter fun x => x.strike.wcore = c) = some x)
    (ho : x.strike.others = []) :
    f.watchRaise c = (f.modCore x.core fun k => k.markRaised x.eng x.id).postTrap c
      { engineTrap 0x60 x.op x.low x.pe x.strike.addr with
        info := some (wpInfo 0 0 x.strike.skid x.gen x.strike.kind 1 x.strike.wp)
        holder := some (x.core, x.eng, x.id) } := by
  simp only [Fabric.watchRaise, hz, hx, ho, Bool.false_eq_true, if_false]
  rfl

/-- Else the only remote strike is raised, its skid final (R437). -/
theorem watchRaise_remote {f : Fabric} {c : Nat} {x : RemoteStrike} (hz : (f.core c).dbg.frozen = false)
    (hn : leastStrike ((f.cores.flatMap fun q => q.2.finals q.1).filter fun x => x.strike.wcore = c) = none)
    (hx : (f.core c).dbg.remote = [x]) (hc : f.strikeClosed x = true) :
    f.watchRaise c = (f.modCore c fun k => { k with dbg := { k.dbg with remote := [] } }).postTrap c
      { code := 0x60, async := true, addr := x.strike.addr, pe := 0xFFFB, src := .engine, conn := some (x.ctx, x.conn, x.slice),
        info := some (wpInfo x.req x.conn x.strike.skid 0 x.strike.kind 2 x.strike.wp) } := by
  have hlist : (f.core c).dbg.remote.filter f.strikeClosed = [x] := by rw [hx, List.filter_singleton, hc]; rfl
  have herase : (f.core c).dbg.remote.erase x = [] := by rw [hx, List.erase_cons_head]
  simp only [Fabric.watchRaise, hz, hn, hlist, herase, List.foldl_cons, List.foldl_nil, Bool.false_eq_true, if_false]

theorem strikesReport : StrikesReport := by
  refine ⟨fun c i => moves_of_fabricStep (fun _ => rfl) ?_, fun c x => moves_of_fabricStep (fun _ => rfl) ?_,
    fun c x => moves_of_fabricStep (fun _ => rfl) ?_⟩
  · rintro f ⟨hz, hu⟩
    refine Fabric.modCore_congr ?_
    have hrep : (f.core c).reports (.gen i) = true := decide_eq_true hu
    simp only [hrep, if_true, Core.skidReport, hz, Bool.false_eq_true, if_false, reported]
  · rintro f ⟨hz, hx, ho⟩
    exact watchRaise_engine hz hx ho
  · rintro f ⟨hz, hn, hx, hc⟩
    refine watchRaise_remote hz hn hx ?_
    simpa [Fabric.strikeClosed] using hc

/-- Settles O37: answers by the command that awaits them, strikes by the engine or connection that made them. -/
theorem networkAnswersAndStrikesReport : Obligations.NetworkAnswersAndStrikesReport :=
  ⟨networkAnswers, strikesReport⟩

end Sys2Proof.Proofs

/-! ### Pages and the Kiln -/

namespace Sys2Proof.Proofs

open Sys2Proof.Machine Sys2Proof.Claims

/-- A page brought in is so as the statement has it (R261). -/
theorem pageIn_broughtIn (m : Memory) (f : Fabric) (ctx page size leaf frame : Nat) :
    f.pageIn m ctx page size leaf frame = broughtIn m f ctx page size leaf frame := rfl

theorem pageMovesComplete : PageMovesComplete := by
  refine ⟨fun ctx page t r => memMoves_of_memStep (g := fun m f => f.tinDone m ctx page) (fun _ => rfl) ?_,
    fun ctx page t r => memMoves_of_memStep (g := fun m f => f.toutDone m ctx page) (fun _ => rfl) ?_⟩ <;>
    rintro m f ⟨hm, hin, hrun, hok⟩
  · simp only [Fabric.tinDone, hm, hin, hrun, hok, Bool.not_true, Bool.or_self, Bool.false_eq_true, if_false, pageIn_broughtIn]
  · simp only [Fabric.toutDone, hm, hin, hrun, hok, Bool.not_true, Bool.or_self, Bool.false_eq_true, if_false]

/-- A missed page on the tier, none of its moves under way, is brought into frames of its region's pool (R298). -/
theorem kilnPageIn_brings {m : Memory} {f : Fabric} {ctx page g : Nat} {q : Nat × Core} {t : Trans}
    (hq : f.cores.find? (fun q => q.2.contextId = ctx && q.2.misses.any fun m => m.page = page && !m.delegated) = some q)
    (ht : translate m (f.context ctx) ctx page = .ok t) (htier : bitOf t.attr 4 = true) (hmove : f.inTransit ctx page = false)
    (hok : f.units.failedAt t.pa = false) (hg : poolRun (f.region q.2.regionId).pool (t.size / 65536) = some g) :
    f.kilnPageIn m ctx page = broughtIn m
      (f.modRegion q.2.regionId fun r => { r with pool := r.pool.filter fun y => !(g ≤ y && y < g + t.size / 65536) })
      ctx t.va t.size t.leaf (g * 65536) := by
  simp only [Fabric.kilnPageIn, hq, ht, htier, hmove, hok, hg, Bool.not_true, Bool.or_self, Bool.false_eq_true, if_false,
    pageIn_broughtIn]

/-- A fault that the Kiln corrects: the entry at the end of its walk is written, and its source goes on (R399). -/
theorem kilnResolve_corrects {m : Memory} {f : Fabric} {c l p : Nat} {x : KilnFault} {r : List KilnFault} (leaf : BitVec 64)
    (hx : (f.core c).faults = x :: r) (hw : walkEnd m x.trap.addr 4 (f.context (f.core c).contextId).root = some (l, p)) :
    f.kilnResolve m c true leaf =
      let w := (f.modCore c fun k => { k with faults := r }).mapFrame m (f.core c).contextId l p leaf.toNat
      let q := w.2.dropPage w.1 (f.core c).contextId (x.trap.addr / pageBytes l * pageBytes l) (pageBytes l)
      (q.1, q.2.modCore c fun k => k.faultEnd x) := by
  simp only [Fabric.kilnResolve, hx, if_true, Fabric.context_modCore, hw]

/-- A fault of a generator or an actor that the Kiln passes on is a trap (R399). -/
theorem kilnResolve_passes {m : Memory} {f : Fabric} {c : Nat} {x : KilnFault} {r : List KilnFault} (leaf : BitVec 64)
    (hx : (f.core c).faults = x :: r) (hp : x.push = false) (hs : x.gen.isSome = true ∨ x.actor.isSome = true) :
    f.kilnResolve m c false leaf = (m, (f.modCore c fun k => { k with faults := r }).postTrap c x.trap) := by
  have hsrc : (x.gen.isSome || x.actor.isSome) = true := (Bool.or_eq_true _ _).mpr hs
  simp only [Fabric.kilnResolve, hx, hp, hsrc, Bool.false_eq_true, if_false, if_true]

theorem kilnActs : KilnActs := by
  refine ⟨fun ctx page q t g => memMoves_of_memStep (g := fun m f => f.kilnPageIn m ctx page) (fun _ => rfl) ?_,
    fun c m r => moves_of_fabricStep (fun _ => rfl) ?_,
    fun c x r l p leaf => memMoves_of_memStep (g := fun m f => f.kilnResolve m c true leaf) (fun _ => rfl) ?_,
    fun c x r leaf => moves_of_memStep (g := fun m f => f.kilnResolve m c false leaf) (fun _ => rfl) ?_,
    fun c n t => memMoves_of_memStep (g := fun m f => f.flushEntry m c n) (fun _ => rfl) ?_,
    fun c n t => memMoves_of_memStep (g := fun m f => f.flushEntry m c n) (fun _ => rfl) ?_⟩
  · rintro m f ⟨hq, ht, htier, hmove, hok, hg⟩
    exact kilnPageIn_brings hq ht htier hmove hok hg
  · rintro f ⟨hm, hl, hz⟩
    refine Fabric.modCore_congr ?_
    simp only [Core.missFree, hm, hl, hz, decide_true, Bool.not_false, Bool.and_self, if_true]
  · rintro m f ⟨hx, hw⟩
    exact kilnResolve_corrects leaf hx hw
  · rintro m f ⟨hx, hp, hs⟩
    exact kilnResolve_passes leaf hx hp hs
  · rintro m f ⟨hn, ht⟩
    simp only [Fabric.flushEntry, hn, ht, if_true]
  · rintro m f ⟨hn, ht⟩
    simp only [Fabric.flushEntry, Nat.not_lt.2 hn, ht, if_false]

/-- Settles O38: moves by their direction, misses, faults and counts by what the Kiln does with them. -/
theorem pagesMove : Obligations.PagesMove :=
  ⟨pageMovesComplete, kilnActs⟩

end Sys2Proof.Proofs

/-! ### Network arrivals -/

namespace Sys2Proof.Proofs

open Sys2Proof.Machine Sys2Proof.Claims

/-- The next element of an arriving row is applied as the statement has it (R266). -/
theorem nredElement_applied (m : Memory) (f : Fabric) (ctx conn : Nat) (x : RowIn) (t : Trans) :
    f.nredElement m ctx conn x t = elementApplied m f ctx conn x t := rfl

/-- A row that a connection has brought goes on with its next element where its line and connection are not held (R266, R437). -/
theorem nredGoOn_applies {m : Memory} {f : Fabric} {ctx conn : Nat} {x : RowIn} {t : Trans}
    (ht : f.arrive m ctx x.va true true = .ok t) (hl : f.lineHeld (lineOf (t.phys x.va)) = false)
    (hs : f.seqHeld ctx conn (sliceOf (lineOf (t.phys x.va))) x.seq = false)
    (hr : ∀ r ∈ f.regionsOf ctx, (f.region r).replay = [] ∧ (f.region r).redo = []) :
    f.nredGoOn m ctx conn x = elementApplied m f ctx conn x t := by
  have hwait : ((f.regionsOf ctx).any fun r => (f.region r).replay ≠ [] || (f.region r).redo ≠ []) = false := by
    rw [List.any_eq_false]
    intro r hm
    simp [hr r hm]
  simp only [Fabric.nredGoOn, ht, hwait, hl, hs, Bool.or_self, Bool.false_eq_true, if_false, nredElement_applied]

/-- An arriving row that its connection has brought before goes on (R438). -/
theorem nredArrival_brought {m : Memory} {f : Fabric} {ctx conn va op n : Nat} {ty : BitVec 4} {row : Row} {x : RowIn}
    (hx : (arrivingRows f ctx conn).find? (fun x => x.va = va && x.op = op && x.ty = ty && x.n = n && x.row = row) = some x) :
    f.nredArrival m ctx conn va op ty n row = f.nredGoOn m ctx conn x := by
  unfold Fabric.nredArrival
  dsimp only
  split
  next y hy => rw [Option.some.inj (hx.symm.trans hy)]
  next hn => exact nomatch hx.symm.trans hn

/-- One that it brings now, in form and let through by its mapping, is numbered, counted and begun (R266, R300, R438). -/
theorem nredArrival_new {m : Memory} {f : Fabric} {ctx conn va op n : Nat} {ty : BitVec 4} {row : Row} {t : Trans}
    (hnew : (arrivingRows f ctx conn).find? (fun x => x.va = va && x.op = op && x.ty = ty && x.n = n && x.row = row) = none)
    (h0 : n ≠ 0) (hn : n * tyBytes ty ≤ 64) (ha : va % 64 = 0) (hty : ty = 4 ∨ ty = 5 ∨ ty = 14) (ho : op ≤ 2)
    (hf : op = 2 → ty ≠ 14) (h : Admitted m f ctx conn va true true t) :
    let x : RowIn := { va := va, op := op, ty := ty, n := n, row := row, seq := f.rseqOf ctx conn }
    f.nredArrival m ctx conn va op ty n row =
      elementApplied (f.remoteCount m ctx t)
        ((f.numberArrival ctx conn va).modConn ctx conn fun y => { y with rowsIn := y.rowsIn ++ [x] }) ctx conn x t := by
  have htype : (decide (ty = 4) || decide (ty = 5) || decide (ty = 14)) = true := by simpa [or_assoc] using hty
  have hfloat : (decide (op = 2) && decide (ty = 14)) = false := by simpa using hf
  obtain ⟨hva, hw, ht⟩ := h
  unfold Fabric.nredArrival
  dsimp only
  split
  next y hy => exact nomatch hnew.symm.trans hy
  next =>
    simp only [h0, Nat.not_lt.2 hn, ha, Nat.not_le.2 hva, htype, Nat.not_lt.2 ho, hfloat, hw, ht, ne_eq, not_true, Bool.not_true,
      decide_false, Bool.or_self, Bool.false_eq_true, if_false, nredElement_applied]

theorem arrivalsComplete : ArrivalsComplete := by
  refine ⟨fun ctx conn va bytes t hb hn => memMoves_of_memStep (g := fun m f => f.writeArrival m ctx conn va bytes) (fun _ => rfl) ?_,
    fun ctx conn va n t h0 hn => memMoves_of_memStep (g := fun m f => f.readArrival m ctx conn va n) (fun _ => rfl) ?_,
    fun ctx conn va op ty b c t ho ha => memMoves_of_memStep
      (g := fun m f => f.atomicArrival m ctx conn va op.toNat ty b.toNat c.toNat) (fun _ => rfl) ?_,
    fun ctx conn va op ty n row t h0 hn ha hty ho hf => memMoves_of_memStep
      (g := fun m f => f.nredArrival m ctx conn va op.toNat ty n row) (fun _ => rfl) ?_,
    fun ctx conn va op ty n row t x => memMoves_of_memStep
      (g := fun m f => f.nredArrival m ctx conn va op.toNat ty n row) (fun _ => rfl) ?_⟩
  · rintro m f ⟨hva, hw, ht⟩
    simp only [Fabric.writeArrival, hb, Nat.not_lt.2 hn, Nat.not_le.2 hva, hw, ht, decide_false, Bool.or_self, Bool.false_eq_true,
      if_false]
  · rintro m f ⟨hva, hw, ht⟩
    simp only [Fabric.readArrival, h0, Nat.not_lt.2 hn, Nat.not_le.2 hva, hw, ht, decide_false, Bool.or_self, Bool.false_eq_true,
      if_false]
  · rintro m f ⟨hva, hw, ht⟩
    simp only [Fabric.atomicArrival, ho, ha, Nat.not_le.2 hva, hw, ht, ne_eq, not_true, Bool.not_true, decide_false, Bool.or_self,
      Bool.false_eq_true, if_false]
  · rintro m f ⟨hadm, hnew⟩
    exact nredArrival_new hnew h0 hn ha hty ho hf hadm
  · rintro m f ⟨hx, ht, hl, hs, hr⟩
    obtain rfl : x.va = va := by
      have hp := List.find?_some hx
      simp only [Bool.and_eq_true, decide_eq_true_eq] at hp
      exact hp.1.1.1.1
    exact (nredArrival_brought hx).trans (nredGoOn_applies ht hl hs hr)

theorem arrivalsRefused : ArrivalsRefused := by
  intro s ctx conn va b code hva hw hc
  rw [show exec (.networkWriteArrival ctx conn va [b]) s = memStep (fun m f => f.writeArrival m ctx conn va [b]) s from rfl,
    memStep_next]
  have hline : ¬ 64 < va % 64 + [b].length := by simp only [List.length_singleton]; omega
  simp only [Fabric.writeArrival, List.cons_ne_nil, hline, Nat.not_le.2 hva, hw, hc, decide_false, Bool.or_self, Bool.false_eq_true,
    if_false]
  rfl

/-- Settles O40: an arrival by whether its mapping admits it, an NRED row by whether it has been brought before. -/
theorem networkArrivalsServed : Obligations.NetworkArrivalsServed :=
  ⟨arrivalsComplete, arrivalsRefused⟩

end Sys2Proof.Proofs

/-! ### Recovery and stops -/

namespace Sys2Proof.Proofs

open Sys2Proof.Machine Sys2Proof.Claims

theorem rollbackRestores : RollbackRestores := by
  refine ⟨fun reg => memMoves_of_memStep (g := fun m f => f.regionRollback m reg) (fun _ => rfl) ?_,
    fun reg => moves_of_memStep (g := fun m f => f.regionRollback m reg) (fun _ => rfl) ?_⟩
  · rintro m f ⟨hr, ha, hc, hf⟩
    simp only [Fabric.regionRollback, hr, ha, hc, hf, Bool.not_true, Bool.not_false, Bool.or_self, Bool.and_self, Bool.false_eq_true,
      if_false, if_true]
  · rintro m f ⟨hr, ha, hcf⟩
    have hno : ((f.region reg).complete && !(f.region reg).full) = false := by
      rcases hcf with h | h <;> simp [h]
    simp only [Fabric.regionRollback, hr, ha, hno, Bool.not_true, Bool.or_self, Bool.false_eq_true, if_false]

theorem stopsFreeze : StopsFreeze := by
  refine ⟨fun s reg c t ht hs => ?_, fun c => moves_of_fabricStep (fun _ => rfl) ?_, fun c => moves_of_fabricStep (fun _ => rfl) ?_,
    fun c n => moves_of_fabricStep (fun _ => rfl) ?_⟩
  · have hstop : s.fab.regionStop reg (freeFrom s.run.free) =
        ((s.fab.modRegion reg fun r => { r with stopped := true }).freezeCores reg).complete (s.fab.region reg).context
          (s.fab.stopRow reg c t (freeFrom s.run.free)) := by
      simp only [Fabric.regionStop, ht, hs, Bool.false_eq_true, if_false]
    rw [← hstop]
    rfl
  · rintro f ⟨hz, hg, ha⟩
    simp only [Fabric.coreFreeze, hz, hg, ha, Bool.not_false, Bool.and_self, Bool.false_eq_true, if_false, if_true]
  · intro f hz
    simp only [Fabric.coreFreeze, hz, if_true]
  · rintro f ⟨hn, hle, hz, hg, hr⟩
    have hlit : (f.core c).group.isNone = false := by rw [← Option.not_isSome, hg]; rfl
    simp only [Fabric.rwcStop, hn, Option.any_some, hle, decide_true, Bool.not_true, hz, hlit, hr, Bool.or_self, Bool.false_eq_true,
      if_false]

/-- A lasting core goes on at a spare site of its die, a cut having completed since it was declared so (R348, R407). -/
theorem retireCore_moves {f : Fabric} {c site n : Nat} {paths now : List RoutePath}
    (hn : (sget {} f.units.banks (dieOf c)).lasting.find? (fun p => p.1 = c) = some (c, n)) (hs : site ∈ f.spares (dieOf c))
    (hl : (f.core c).group.isSome = true) (hi : n < (f.region (f.core c).regionId).interval)
    (hp : f.units.movePaths (f.core c).regionId (f.coreAt c) (dieOf c * 162 + site) paths = some now) :
    f.retireCore c site paths =
      let b : Bank := sget {} f.units.banks (dieOf c)
      let b : Bank := { b with lasting := b.lasting.filter fun p => p.1 ≠ c, gone := b.gone ++ [f.site c] }
      ((f.modUnits fun u => { u with banks := sset u.banks (dieOf c) b }).modRegion (f.core c).regionId fun r =>
        { r with sites := r.sites ++ [dieOf c * 256 + f.site c], paths := now }).modCore c fun k => { k with site := some site } := by
  have hspare : (f.spares (dieOf c)).contains site = true := List.contains_iff_mem.2 hs
  simp only [Fabric.retireCore, hn, List.ne_nil_of_mem hs, hspare, hl, Nat.not_le.2 hi, hp, Bool.not_true, decide_false, Bool.and_false,
    Bool.or_self, Bool.false_eq_true, if_false, if_true]

/-- What a walk that is done finds is a deadlock, or a chain that is reported where it is new (R417, R418). -/
theorem walkDone_finds {m : Memory} {f g : Fabric} {reg : Nat} {w : Bool × List Step} (hw : (f.region reg).walking = true)
    (ha : (f.region reg).acts = true) (hg : f.modRegion reg (fun r => { r with walking := false, idle := 0 }) = g)
    (hf : g.walkRegion reg = w) :
    f.walkDone m reg =
      let rows := reportRows (f.region reg).context (f.region reg).repRows false w.2
      if w.1 then g.deadlock m reg w.2
      else if rows = [] || rows = (f.region reg).lastStall then (m, g)
      else (g.modRegion reg fun r => { r with lastStall := rows }).writeReport m reg (f.region reg).report rows := by
  simp only [Fabric.walkDone, hw, ha, hg, hf, Bool.not_true, Bool.false_eq_true, if_false]

theorem recoveryActs : RecoveryActs := by
  refine ⟨fun die e r => moves_of_memStep (g := fun m f => f.recordWrite m die .coming) (fun _ => rfl) ?_,
    fun die i => moves_of_memStep (g := fun m f => f.recordWrite m die (.consumed i)) (fun _ => rfl) ?_,
    fun c site n g paths now => moves_of_fabricStep (fun _ => rfl) ?_, fun reg => moves_of_fabricStep (fun _ => rfl) ?_,
    fun reg l g => memMoves_of_memStep (g := fun m f => f.walkDone m reg) (fun _ => rfl) ?_,
    fun reg l g rows => memMoves_of_memStep (g := fun m f => f.walkDone m reg) (fun _ => rfl) ?_⟩
  · intro m f hc
    simp only [Fabric.recordWrite, hc]
    rfl
  · rintro m f ⟨hi, he⟩
    simp only [Fabric.recordWrite, hi, he, decide_true, Bool.and_self, if_true]
    rfl
  · rintro f ⟨hn, hs, hg, hi, hp⟩
    exact retireCore_moves hn hs (by rw [hg]; rfl) hi hp
  · rintro f ⟨hr, ha, hw, hd, hi⟩
    simp only [Fabric.detectorExpiry, hr, ha, hw, Nat.not_lt.2 hd, hi, Bool.not_true, decide_false, Bool.or_self, Bool.false_eq_true,
      if_false]
  · rintro m f ⟨hw, ha, hg, hl⟩
    exact (walkDone_finds hw ha hg hl).trans (if_pos rfl)
  · rintro m f ⟨hw, ha, hg, hl, rfl, hne, hnew⟩
    rw [walkDone_finds hw ha hg hl]
    simp only [hne, hnew, decide_false, Bool.or_self, Bool.false_eq_true, if_false]

/-- Settles O44: rollbacks, stops and freezes by the region's state, records, retirement and walks by what they find. -/
theorem recoveryAndStops : Obligations.RecoveryAndStops :=
  ⟨rollbackRestores, stopsFreeze, recoveryActs⟩

end Sys2Proof.Proofs

end

/-!
PROOFS. The statements of chapter 9's family: memory's canonical form (R182, R280), frame tags (R291), and the management context's
requests (R287, R290, R315, R412, R431, R445 to R447). Elaborated one after another, as above.
-/

section

set_option Elab.async false

/-! ### Memory stays in its canonical form -/

namespace Sys2Proof.Proofs

open Sys2Proof.Machine Sys2Proof.Claims

/-- An event that changes memory and the fabric keeps the canonical form when its change does. -/
theorem memStep_wf {g : Memory → Fabric → Memory × Fabric} {s t : State} (hg : ∀ m f, m.wf → (g m f).1.wf)
    (h : memStep g s = .next t) (hs : s.mem.wf) : t.mem.wf := by
  cases h; exact hg _ _ hs

/-- A management operation keeps the canonical form when its reply does. -/
theorem manageStep_wf {op : Nat} {act : Nat → Memory → Fabric → Option Reply} {s t : State}
    (ha : ∀ n m f, m.wf → ∀ r, act n m f = some r → r.mem.wf) (h : manageStep op act s = .next t) (hs : s.mem.wf) : t.mem.wf :=
  memStep_wf (fun m f hm => manage_wf hm f op act fun n => ha n m f hm) h hs

theorem pageWalk_wf {w : Walk} {s t : State} (h : exec (.pageWalk w) s = .next t) (hs : s.mem.wf) : t.mem.wf := by
  cases w with
  | req id => exact memStep_wf (fun _ f hm => walkReq_wf hm f id) h hs
  | gen core i => exact memStep_wf (fun _ f hm => walkGen_wf hm f core i) h hs

theorem sequencerBlockComplete_wf {who : Agent} {s t : State} (h : exec (.sequencerBlockComplete who) s = .next t) (hs : s.mem.wf) :
    t.mem.wf := by
  cases who with
  | bind c => cases h; exact hs
  | seq c => exact memStep_wf (fun _ f hm => seqComplete_wf hm f c) h hs
  | actor c a => exact memStep_wf (fun _ f hm => seqComplete_wf hm f c) h hs

theorem engineCommandComplete_wf {core : Nat} {eng : Eng} {s t : State} (h : exec (.engineCommandComplete core eng) s = .next t)
    (hs : s.mem.wf) : t.mem.wf := by
  cases eng with
  | net => exact memStep_wf (fun _ f hm => completeNet_wf hm f core) h hs
  | gen i => cases h; exact hs
  | image id => cases h; exact hs
  | mxldw => cases h; exact hs

/-- A launch under a condition on the fabric keeps the canonical form. -/
theorem launchIf_wf {m : Memory} (h : m.wf) (f : Fabric) (p : Bool) (ctx place : Nat) (pool : List Nat)
    (layout : Option (List RoutePath)) : (if p then f.launch m ctx place pool layout else (m, f)).1.wf := by
  cases p
  · exact h
  · exact launch_wf h f ctx place pool layout

/-! The management context's requests that may change memory (R447). -/

theorem unmap_wf {s t : State} : exec .unmap s = .next t → s.mem.wf → t.mem.wf :=
  manageStep_wf fun n m f hm => onContext_wf hm f _ fun x r hr => by
    dsimp only at hr
    split at hr
    · cases hr; exact hm
    · split at hr
      · cases hr; exact hm
      · split at hr
        · cases hr; exact hm
        · cases hr
          dsimp only
          exact freeFrame_wf (dropPage_wf (Memory.writeNat_wf hm _ _ _) f _ _ _) _ _ _

theorem rollbackRegion_wf {s t : State} : exec .rollbackRegion s = .next t → s.mem.wf → t.mem.wf :=
  manageStep_wf fun n m f hm => onRegion_wf hm f _ fun reg r hr => by
    split at hr
    · cases hr; exact hm
    · cases hr; exact rollback_wf hm _ _

theorem endRegionRequest_wf {s t : State} : exec .endRegion s = .next t → s.mem.wf → t.mem.wf :=
  manageStep_wf fun n m f hm => onRegion_wf hm f _ fun reg r hr => by
    split at hr
    · cases hr
    · cases hr; exact endRegion_wf hm f reg 0

theorem closeCtx_wf {s t : State} : exec .closeCtx s = .next t → s.mem.wf → t.mem.wf :=
  manageStep_wf fun n m f hm => onContext_wf hm f _ fun x r hr => by
    split at hr
    · cases hr
    · cases hr; exact closeContext_wf hm f x

theorem openCtx_wf {place : Nat} {s t : State} (h : exec (.openCtx place) s = .next t) (hs : s.mem.wf) : t.mem.wf := by
  cases h; exact manage_wf hs _ _ _ fun n => openReply_wf hs _ _ _

/-- Each event that may change memory changes it by operations that keep its canonical form (R280). -/
theorem memoryEvent_wf {i : Instr} {s t : State} (hi : memoryEvent i = true) (h : exec i s = .next t) : s.mem.wf → t.mem.wf := by
  revert hi h
  cases i
  case sliceAccess x => exact fun _ h hs => by cases h; exact sliceAccess_wf hs _ x _
  case trapDelivery core => exact fun _ h hs => by cases h; exact deliverTrap_wf hs _ core _
  case storeUnitPerform id => exact fun _ => memStep_wf fun _ f hm => unitPerform_wf hm f id
  case engineCommandComplete core eng => exact fun _ => engineCommandComplete_wf
  case sequencerBlockComplete who => exact fun _ => sequencerBlockComplete_wf
  case pageWalk w => exact fun _ => pageWalk_wf
  case sideCounterFlush core n => exact fun _ => memStep_wf fun _ f hm => flushEntry_wf hm f core n
  case tinComplete ctx page => exact fun _ => memStep_wf fun _ f hm => tinDone_wf hm f ctx page
  case toutComplete ctx page => exact fun _ => memStep_wf fun _ f hm => toutDone_wf hm f ctx page
  case kilnPageIn ctx page => exact fun _ => memStep_wf fun _ f hm => kilnPageIn_wf hm f ctx page
  case kilnFaultResolve core fix leaf => exact fun _ => memStep_wf fun _ f hm => kilnResolve_wf hm f core fix leaf
  case launch ctx place pool layout => exact fun _ => memStep_wf fun _ f hm => launchIf_wf hm f _ ctx place pool layout
  case launchRetake ctx place pool layout => exact fun _ => memStep_wf fun _ f hm => launchIf_wf hm f _ ctx place pool layout
  case groupBind die => exact fun _ h hs => by cases h; exact hs
  case preemptionMarker core el => exact fun _ => memStep_wf fun _ f hm => preempt_wf hm f core el
  case regionRollback region => exact fun _ => memStep_wf fun _ f hm => regionRollback_wf hm f region
  case stallWalkDone region => exact fun _ => memStep_wf fun _ f hm => walkDone_wf hm f region
  case groupComplete core => exact fun _ => memStep_wf fun _ f hm => groupComplete_wf hm f core
  case regionEnd region => exact fun _ => memStep_wf fun _ f hm => regionEnd_wf hm f region
  case errorRecordWrite die what => exact fun _ => memStep_wf fun _ f hm => recordWrite_wf hm f die what
  case networkWriteArrival ctx conn va bytes => exact fun _ => memStep_wf fun _ f hm => writeArrival_wf hm f ctx conn va bytes
  case networkReadArrival ctx conn va n => exact fun _ => memStep_wf fun _ f hm => readArrival_wf hm f ctx conn va n
  case networkAtomicArrival ctx conn va op ty b c =>
    exact fun _ => memStep_wf fun _ f hm => atomicArrival_wf hm f ctx conn va _ ty _ _
  case nredRowArrival ctx conn va op ty n row => exact fun _ => memStep_wf fun _ f hm => nredArrival_wf hm f ctx conn va _ ty n row
  case openCtx place => exact fun _ => openCtx_wf
  case mapPage frame => exact fun _ => manageStep_wf fun _ _ f hm => mapReply_wf hm f frame
  case unmap => exact fun _ => unmap_wf
  case rollbackRegion => exact fun _ => rollbackRegion_wf
  case endRegion => exact fun _ => endRegionRequest_wf
  case closeCtx => exact fun _ => closeCtx_wf
  all_goals exact of_false_eq_true

/-- An instruction or event keeps memory's canonical form. -/
theorem exec_wf {i : Instr} {s t : State} (h : exec i s = .next t) (hs : s.mem.wf) : t.mem.wf := by
  by_cases hi : memoryEvent i = true
  · exact memoryEvent_wf hi h hs
  · rw [exec_mem (Bool.eq_false_of_not_eq_true hi) h]; exact hs

/-- Settles O56: a slot's instruction and the passing of cycles leave memory as it was, and an event keeps its form. -/
theorem stepsKeepMemoryCanonical : Obligations.StepsKeepMemoryCanonical := by
  intro s t h hs
  rw [← nextTurn_mem s] at hs
  unfold step State.turn at h
  split at h
  · rw [issue_mem h]; exact hs
  · exact exec_wf h hs
  · cases h; exact hs

end Sys2Proof.Proofs

/-! ### Frame tags -/

namespace Sys2Proof.Proofs

open Sys2Proof.Machine Sys2Proof.Claims

/-- The attributes of a translation are the low bits of its leaf (R289). -/
theorem bitOf_mod_1024 (e : Nat) {i : Nat} (h : i < 10) : bitOf (e % 1024) i = bitOf e i := by
  rw [bitOf_eq_testBit, bitOf_eq_testBit, show 1024 = 2 ^ 10 from rfl, Nat.testBit_mod_two_pow, decide_eq_true h, Bool.true_and]

/-- A walk that gives a translation ends at a leaf, whose page it is; a leaf of HBM agrees with its frame tag (R291). -/
theorem translate_ok {m : Memory} {x : Context} {ctx va : Nat} {t : Trans} (h : Machine.translate m x ctx va = .ok t) :
    ∃ e, t.pa = field e 51 16 * 65536 ∧ t.attr = e % 1024 ∧ (bitOf e 4 = false → tagAgrees m ctx e = true) := by
  unfold Machine.translate at h
  split at h
  · cases h
  · rename_i l p e _
    split at h
    · cases h
    · rename_i hg
      cases h
      exact ⟨e, rfl, rfl, fun h4 => by simpa [h4] using hg⟩

/-- Settles O30: a translation's page, LAYOUT and SEAL are its leaf's, and the walk compares those with the tag. -/
theorem sealedFramesKept : Obligations.SealedFramesKept := by
  intro m x ctx va t h htier
  obtain ⟨e, hpa, hattr, hag⟩ := translate_ok h
  rw [hattr, bitOf_mod_1024 e (by decide)] at htier
  have htag := hag htier
  simp only [tagAgrees, Bool.and_eq_true, beq_iff_eq, Bool.or_eq_true, Bool.not_eq_true', decide_eq_true_eq] at htag
  obtain ⟨⟨hlayout, hseal⟩, howner⟩ := htag
  rw [hpa, hattr, bitOf_mod_1024 e (by decide), bitOf_mod_1024 e (by decide), Nat.mul_div_cancel _ (by decide)]
  exact ⟨hlayout, hseal, fun hs => howner.resolve_left (by rw [hseal, hs]; decide)⟩

end Sys2Proof.Proofs

/-! ### Requests of the management context -/

namespace Sys2Proof.Proofs

open Sys2Proof.Machine Sys2Proof.Claims

/-- A request that is asked is answered with what its operation replies (R445, R446). -/
theorem manage_of_asked {f : Fabric} {m op : Nat} {mem : Memory} {act : Nat → Memory → Fabric → Option Reply} {r : Reply}
    (hq : Asked f m op) (ha : act m mem f = some r) : f.manage mem op act = replied m r.status r.value r.addrs r.mem r.fab := by
  obtain ⟨⟨row, rest, hcmd, rfl⟩, hserves, hopen, hidle, hform, hname, henrol⟩ := hq
  exact Fabric.manage_answers hcmd hserves hopen hidle hform hname henrol ha

/-- A management operation that replies STATUS 0 and `value` where `pre` holds, having made the change `post`, completes. -/
theorem manages_of_manageStep {i : Instr} {op : Nat} {act : Nat → Memory → Fabric → Option Reply}
    {pre : Nat → Memory → Fabric → Prop} {value : Nat → Fabric → Nat} {post : Nat → Memory → Fabric → Memory × Fabric}
    (he : ∀ s, exec i s = manageStep op act s)
    (h : ∀ m mem f, pre m mem f →
      act m mem f = some { status := 0, value := value m f, mem := (post m mem f).1, fab := (post m mem f).2 }) :
    Manages i op pre value post := by
  intro s m hq hp
  rw [he, manageStep, memStep_next, manage_of_asked hq (h m s.mem s.fab hp)]

/-- A request on an open tenant context goes on with it. -/
theorem onContext_tenant {m : Nat} {mem : Memory} {f : Fabric} {go : Nat → Option Reply} (h : OnTenant m f) :
    onContext m mem f go = go (reqCtx m) := by
  obtain ⟨h0, hopen⟩ := h
  exact onContext_open h0 hopen

/-- A request on a live region goes on with it. -/
theorem onRegion_named {m r : Nat} {mem : Memory} {f : Fabric} {go : Nat → Option Reply} (h : OnRegionOf m f r) :
    onRegion m mem f go = go r := by
  obtain ⟨⟨h0, hopen⟩, htag⟩ := h
  exact onRegion_tagged h0 hopen htag

theorem contextRequestsComplete : ContextRequestsComplete := by
  refine ⟨manages_of_manageStep (fun _ => rfl) ?enrol, ?openCtx, manages_of_manageStep (fun _ => rfl) ?sealCtx,
    manages_of_manageStep (fun _ => rfl) ?ckey, manages_of_manageStep (fun _ => rfl) ?connect,
    manages_of_manageStep (fun _ => rfl) ?gangEntry⟩
  case enrol =>
    intro m mem f hnone
    simp only [hnone, Option.isSome_none, Bool.false_eq_true, if_false]
  case openCtx =>
    intro s m place hq h0 ho n hn hrun hfree base c q
    have hr (addrs : List Nat) : openReply place addrs m s.mem s.fab = some
        { status := 0, value := base, addrs := addrs, mem := s.mem.scrub base (3 * n * 65536)
          fab := s.fab.modUnits fun u => { u.take place (3 * n) with contexts := sset u.contexts (reqCtx m) c } } := by
      simp only [openReply, h0, ho, show field (reqArg1 m) 31 0 = n from rfl, hn, hrun, hfree, decide_false, Bool.or_self,
        Bool.not_true, Bool.false_eq_true, if_false]
      rfl
    show execOpenCtx place s = _
    simp only [execOpenCtx, manage_of_asked hq (hr _)]
    rfl
  case sealCtx =>
    rintro m mem f ⟨hten, hempty, hregs⟩
    have hnone : (f.units.regions.any fun q => decide (q.2.context = reqCtx m)) = false :=
      List.any_eq_false.2 fun q hq => by simpa using hregs q hq
    simp only [onContext_tenant hten, hempty, hnone, Bool.not_true, Bool.or_self, Bool.false_eq_true, if_false]
  case ckey =>
    rintro m mem f ⟨hten, hsealed⟩
    simp only [onContext_tenant hten, hsealed, Bool.not_true, Bool.false_eq_true, if_false]
  case connect =>
    rintro m mem f ⟨hten, hnew⟩
    simp only [onContext_tenant hten, hnew, Bool.false_eq_true, if_false]
  case gangEntry =>
    rintro m mem f ⟨h0, hok⟩
    simp only [h0, hok, decide_false, Bool.not_true, Bool.or_self, Bool.false_eq_true, if_false]

theorem pageRequestsComplete : PageRequestsComplete := by
  refine ⟨fun frame level mem' next => manages_of_manageStep (fun _ => rfl) ?mapPage,
    fun l p e => manages_of_manageStep (fun _ => rfl) ?unmap, manages_of_manageStep (fun _ => rfl) ?closeCtx⟩
  case mapPage =>
    -- a page of the peat tier and one of HBM differ in the frames that are free and in the tags, so the tier is split on last
    rintro m mem f ⟨hten, rfl, hlevel, halign, hva, hclass, htier, hframe, hleaf, hroom⟩
    have hbad : (bitOf (reqArg1 m) 4 && decide (field (reqArg1 m) 1 0 + 1 = 3)) = false := by
      cases ht : bitOf (reqArg1 m) 4 with
      | false => rfl
      | true => simpa using htier ht
    simp only [mapReply, onContext_tenant hten, hlevel, halign, Nat.not_le.2 hva, hclass, hbad, hleaf, hframe]
    cases ht : bitOf (reqArg1 m) 4 with
    | false =>
      simp only [ht, Bool.false_eq_true, if_false] at hroom ⊢
      obtain ⟨hrun, hfree⟩ := hroom
      simp [hrun, hfree]
    | true =>
      simp only [ht, if_true] at hroom ⊢
      obtain ⟨hrun, hfree⟩ := hroom
      simp [hrun, hfree]
  case unmap =>
    rintro m mem f ⟨hten, hva, hleaf, hstay⟩
    simp only [onContext_tenant hten, Nat.not_le.2 hva, hleaf, hstay, Bool.false_eq_true, if_false]
  case closeCtx =>
    rintro m mem f ⟨hten, hsettled⟩
    have hnone : (f.units.regions.any fun q => decide (q.2.context = reqCtx m) && !f.unitsSettled q.1) = false :=
      List.any_eq_false.2 fun q hq => by simpa using hsettled q hq
    simp only [onContext_tenant hten, hnone, Bool.false_eq_true, if_false]

theorem regionRequestsComplete : RegionRequestsComplete := by
  refine ⟨fun r => manages_of_manageStep (fun _ => rfl) ?freeze, fun r => manages_of_manageStep (fun _ => rfl) ?resume,
    fun r => manages_of_manageStep (fun _ => rfl) ?rollback, fun r => manages_of_manageStep (fun _ => rfl) ?endRegion⟩
  case freeze =>
    intro m mem f hreg
    rw [onRegion_named hreg]
  case resume =>
    rintro m mem f ⟨hreg, hstill⟩
    simp only [onRegion_named hreg, hstill, Bool.false_eq_true, if_false]
  case rollback =>
    rintro m mem f ⟨hreg, hcut, hroom⟩
    simp only [onRegion_named hreg, hcut, hroom, Bool.not_true, Bool.or_self, Bool.false_eq_true, if_false]
  case endRegion =>
    rintro m mem f ⟨hreg, hsettled⟩
    simp only [onRegion_named hreg, hsettled, Bool.not_true, Bool.false_eq_true, if_false]

/-- Settles O48: each request's checks hold, so its operation replies STATUS 0. -/
theorem managementRequestsComplete : Obligations.ManagementRequestsComplete :=
  ⟨contextRequestsComplete, pageRequestsComplete, regionRequestsComplete⟩

end Sys2Proof.Proofs

end

/-!
PROOFS. The statements of chapter 10's family: the windows of a context (R442, R444), and a launch accepted, left or refused (R301,
R302, R343). Elaborated one after another, as above.
-/

section

set_option Elab.async false

namespace Sys2Proof.Machine

/-- Two changes of a context that give it the same are the same. -/
theorem Fabric.modContext_congr {f : Fabric} {x : Nat} {g h : Context → Context} (e : g (f.context x) = h (f.context x)) :
    f.modContext x g = f.modContext x h := by
  have hs : smod {} f.units.contexts x g = smod {} f.units.contexts x h := congrArg (sset f.units.contexts x) e
  simp only [Fabric.modContext, Fabric.modUnits, hs]

/-! ### The windows of a context -/

/-- A row enters a command window that has room, on a connection that may write it (R442, R445). -/
theorem Fabric.commandWrite_enters {f : Fabric} {ctx : Nat} (row : Row) (hs : f.units.serves = true) (ho : f.isOpen ctx = true)
    (ha : ctx = 0 → f.units.admin = none ∨ f.units.adminOpen = true) (hr : (f.context ctx).cmd.length < (f.context ctx).cmdCap) :
    f.commandWrite ctx row true = f.modContext ctx fun x => { x with cmd := x.cmd ++ [row] } := by
  have hmay : (decide (ctx ≠ 0) || f.units.admin.isNone || f.units.adminOpen) = true := by
    by_cases h0 : ctx = 0
    · simpa [h0] using ha h0
    · simp [h0]
  simp only [Fabric.commandWrite, hs, ho, hmay, hr, decide_true, Bool.and_self, if_true]

/-- No row enters a full command window (R302, R442). -/
theorem Fabric.commandWrite_full {f : Fabric} {ctx : Nat} (row : Row) (auth : Bool)
    (hf : (f.context ctx).cmdCap ≤ (f.context ctx).cmd.length) : f.commandWrite ctx row auth = f := by
  simp only [Fabric.commandWrite, Nat.not_lt.2 hf, decide_false, Bool.and_false, Bool.false_eq_true, if_false]

/-- The record held longest fills a completion window that has room (R444). -/
theorem Context.fillRecord_fills {x : Context} {r : Row} {rest : List Row} (hh : x.cplHeld = r :: rest)
    (hr : x.cpl.length < x.cplCap) : x.fillRecord = { x with cpl := x.cpl ++ [r], cplHeld := rest } := by
  simp only [Context.fillRecord, hh, hr, if_true]

/-- A shrink of no more rows than there are records drops that many (R442). -/
theorem Context.shrinkRecords_drops {x : Context} {n : Nat} (hn : n ≤ x.cpl.length) :
    x.shrinkRecords n = { x with cpl := x.cpl.drop n } := if_pos hn

/-- A larger shrink changes nothing (R442). -/
theorem Context.shrinkRecords_keeps {x : Context} {n : Nat} (hn : x.cpl.length < n) : x.shrinkRecords n = x :=
  if_neg (Nat.not_le.2 hn)

end Sys2Proof.Machine

namespace Sys2Proof.Proofs

open Sys2Proof.Machine Sys2Proof.Claims

theorem windowsServe : WindowsServe := by
  refine ⟨fun ctx row => moves_of_fabricStep (fun _ => rfl) ?enters, fun ctx row => moves_of_fabricStep (fun _ => rfl) ?full,
    fun ctx r rest => moves_of_fabricStep (fun _ => rfl) ?fills, fun ctx n => moves_of_fabricStep (fun _ => rfl) ?drops,
    fun ctx n => moves_of_fabricStep (fun _ => rfl) ?keeps⟩
  case enters =>
    rintro f ⟨hs, ho, ha, hr⟩
    exact Fabric.commandWrite_enters row hs ho ha hr
  case full => exact fun f hf => Fabric.commandWrite_full row true hf
  case fills =>
    rintro f ⟨ho, hh, hr⟩
    rw [if_pos ho]
    exact Fabric.modContext_congr (Context.fillRecord_fills hh hr)
  case drops =>
    rintro f ⟨ho, hn⟩
    rw [if_pos ho]
    exact Fabric.modContext_congr (Context.shrinkRecords_drops hn)
  case keeps =>
    rintro f ⟨ho, hn⟩
    rw [if_pos ho]
    exact Fabric.modContext_congr (Context.shrinkRecords_keeps hn)

/-! ### Launches accepted, left or refused -/

section

variable {mem : Memory} {f : Fabric} {ctx : Nat} {row : Row} {rest : List Row} (hc : (f.context ctx).cmd = row :: rest)
  (place : Nat) (pool : List Nat)

include hc

/-- A message that fails one of the steps 1 to 4 is answered with its code (R301). -/
theorem launch_refusesImage {r : Refused} (layout : Option (List RoutePath)) (hi : f.checkImage mem ctx row.toNat = .error r) :
    f.launch mem ctx place pool layout = (mem, f.answerLaunch ctx row.toNat 2 r) := by
  simp only [Fabric.launch, hc, hi]

variable {img : List Byte} {layout : Option (List RoutePath)} (hi : f.checkImage mem ctx row.toNat = .ok img)

include hi

/-- One that fails step 5 or 6 is, once a sealed context's image is measured (R301, R343). -/
theorem launch_refusesBlocks {r : Refused} (hl : f.units.checkLaunch row.toNat img layout.isSome = .error r) :
    f.launch mem ctx place pool layout = (mem, (f.measure ctx img).answerLaunch ctx row.toNat 2 r) := by
  simp only [Fabric.launch, hc, hi, hl]

variable (hl : f.units.checkLaunch row.toNat img layout.isSome = .ok ())

include hl

/-- One whose groups find too few free slot records is left in its window (R302). -/
theorem launch_leaves (hr : f.units.freeRecords.length < (imageDir img).length) :
    f.launch mem ctx place pool layout = (mem, f.modContext ctx fun x => { x with holding := true }) := by
  simp only [Fabric.launch, hc, hi, hl, byGroup, List.length_insertionSort, hr, if_true]

/-- One whose checks pass, with slot records, granules and paths to be had, is accepted (R301). -/
theorem launch_accepts {taken : Units} (hr : (imageDir img).length ≤ f.units.freeRecords.length)
    (hp : f.units.freeAt place (granules img.length) = true) (hn : pool.length = field row.toNat 287 272)
    (ht : (f.units.take place (granules img.length)).takeEach pool = some taken) (hy : f.laysAll img (layout.getD []) = true) :
    f.launch mem ctx place pool layout = launched mem f taken ctx row.toNat img place pool (layout.getD []) := by
  have hfree : ¬ f.units.freeRecords.length < (byGroup (imageDir img)).length := by
    simpa only [byGroup, List.length_insertionSort, not_lt] using hr
  simp only [Fabric.launch, hc, hi, hl, hfree, hp, hn, ht, hy, ne_eq, not_true, decide_false, Bool.not_true, Bool.or_self,
    Bool.false_eq_true, if_false]
  rfl

end

/-- LAUNCH and LAUNCH_RETAKE launch the message at the head of a window that the Kiln may take up (R301, R302, R442). -/
theorem memMoves_of_takesUp {i : Instr} {again : Bool} {ctx place : Nat} {pool : List Nat} {layout : Option (List RoutePath)}
    {row : Row} {rest : List Row} {pre : Memory → Fabric → Prop} {post : Memory → Fabric → Memory × Fabric}
    (hi : TakesUp i again ctx place pool layout)
    (h : ∀ m f, (f.context ctx).cmd = row :: rest → pre m f → f.launch m ctx place pool layout = post m f) :
    MemMoves i (fun m f => Takes f ctx row rest again ∧ pre m f) post := by
  have he (s : State) : exec i s = memStep
      (fun m f => if f.mayLaunch ctx && ((f.context ctx).holding == again) then f.launch m ctx place pool layout else (m, f)) s := by
    rw [hi]
    cases again <;> simp only [beq_false, beq_true] <;> rfl
  refine memMoves_of_memStep he ?_
  rintro m f ⟨⟨hmay, hcmd, hhold⟩, hp⟩
  simp only [hmay, hhold, beq_self_eq_true, Bool.and_self, if_true, h m f hcmd hp]

theorem launchesComplete : LaunchesComplete := by
  refine fun i again ctx place pool layout row rest hi =>
    ⟨fun img taken => memMoves_of_takesUp hi ?accepts, fun img => memMoves_of_takesUp hi ?leaves,
      fun r => memMoves_of_takesUp hi ?refusesImage, fun img r => memMoves_of_takesUp hi ?refusesBlocks⟩
  case accepts =>
    rintro m f hc ⟨himg, hl, hr, hp, hn, ht, hy⟩
    exact launch_accepts hc place pool himg hl hr hp hn ht hy
  case leaves =>
    rintro m f hc ⟨himg, hl, hr⟩
    exact launch_leaves hc place pool himg hl hr
  case refusesImage => exact fun m f hc hr => launch_refusesImage hc place pool layout hr
  case refusesBlocks =>
    rintro m f hc ⟨himg, hl⟩
    exact launch_refusesBlocks hc place pool himg hl

/-- Settles O41: rows, records and shrinks by the room of their windows, a launch by the first of its checks that fails. -/
theorem hostWindowsAndLaunches : Obligations.HostWindowsAndLaunches :=
  ⟨windowsServe, launchesComplete⟩

end Sys2Proof.Proofs

end

/-!
PROOFS. The statement of chapter 13's family: links carry and retry units (R353), routers inject and land them (R349 to R352), dead
links and the reroute that resolves their losses (R354 to R356). Elaborated one after another, as above.
-/

section

set_option Elab.async false

namespace Sys2Proof.Machine

variable {f : Fabric} {n : Nat}

/-- Two changes of a link that give it the same are the same. -/
theorem Fabric.modLink_congr {g h : Link → Link} (e : g (f.units.link n) = h (f.units.link n)) :
    f.modLink n g = f.modLink n h := by
  have hs : smod {} f.units.links n g = smod {} f.units.links n h := congrArg (sset f.units.links n) e
  simp only [Fabric.modLink, Fabric.modUnits, hs]

/-! ### Retry (R353) -/

/-- A receiver accepts the expected unit when its check passed. -/
theorem Link.receive_accepts {l : Link} {q : Nat} (hq : q = l.expect) :
    l.receive q true = { l with expect := (l.expect + 1) % 256, refusing := false } := by
  simp only [Link.receive, hq, decide_true, Bool.and_self, if_true]

/-- A receiver accepts neither a bad unit nor one out of order. -/
theorem Link.not_accepts {l : Link} {q : Nat} {good : Bool} (h : good = false ∨ q ≠ l.expect) :
    (good && decide (q = l.expect)) = false := by
  rcases h with rfl | hq
  · exact Bool.false_and _
  · rw [decide_eq_false hq, Bool.and_false]

/-- A bad unit or one out of order is discarded, with a NAK unless the receiver discards already. -/
theorem Link.receive_discards {l : Link} {q : Nat} {good : Bool} (h : good = false ∨ q ≠ l.expect) :
    l.receive q good = if l.refusing then l else { l with refusing := true, nak := true } := by
  simp only [Link.receive, Link.not_accepts h, Bool.false_eq_true, if_false]

variable {l : Link} {q : Nat} {g : Flit}

/-- An accepted unit goes on to what stands beyond the link. -/
theorem Fabric.received_accepts (hq : q = l.expect) : f.received n l q g true =
    (f.modLink n fun _ => { l with expect := (l.expect + 1) % 256, refusing := false }).deliver n g := by
  subst hq
  simp only [Fabric.received, Link.receive_accepts rfl, decide_true, Bool.and_self, if_true]

/-- A discarded unit changes its link alone. -/
theorem Fabric.received_discards {good : Bool} (h : good = false ∨ q ≠ l.expect) : f.received n l q g good =
    f.modLink n fun _ => if l.refusing then l else { l with refusing := true, nak := true } := by
  simp only [Fabric.received, Link.receive_discards h, Link.not_accepts h, Bool.false_eq_true, if_false]

/-! ### Injection and landing (R349 to R352, R355) -/

variable {mem : Memory} {s : Nat} {x : LinkUnit}

/-- A unit that its source may send enters its router, a configuration unit even while injection pauses. -/
theorem Fabric.inject_enters (hf : f.flitOf mem x = some g) (hs : g.src / 2 = s)
    (hp : f.units.paused = false ∨ ∃ d, x = .config d) (hc : f.units.carries x = false)
    (hr : (f.units.mesh.buf (bufKey s 4 g.vc)).length < bufCap g.vc) :
    f.inject mem s x =
      (f.modUnits fun u => { u with mesh := { u.mesh with sseq := sset u.mesh.sseq g.src (g.sseq + 1) } }).enterRouter s 4 g := by
  simp only [Fabric.inject, hf, hs, hc, ne_eq, not_true, Nat.not_le.2 hr, decide_false, Bool.false_or, Bool.or_false]
  obtain hgo | ⟨d, rfl⟩ := hp
  · simp only [hgo, Bool.false_and, Bool.false_eq_true, if_false]
  · simp only [Bool.and_false, Bool.false_eq_true, if_false]

/-- While injection pauses, what is no configuration unit stays at its source. -/
theorem Fabric.inject_pauses (hp : f.units.paused = true) (hx : ∀ d, x ≠ .config d) : f.inject mem s x = f := by
  unfold Fabric.inject
  split
  case h_1 => rfl
  case h_2 g hf =>
    cases x with
    | config d => exact absurd rfl (hx d)
    | _ => simp [hp]

/-- A unit that is awaited stays where it has landed, unless it is a configuration unit. -/
theorem Fabric.land_keeps {f' : Fabric} (ht : f.takeFlit s 4 x (fun _ => true) = some (g, f')) (ha : f'.awaited x = true)
    (hx : ∀ d, x ≠ .config d) :
    f.land s x = f'.modUnits fun u => { u with mesh := { u.mesh with home := u.mesh.home ++ [g] } } := by
  simp only [Fabric.land, ht, ha]
  cases x with
  | config d => exact absurd rfl (hx d)
  | _ => rfl

/-- A configuration unit has done its work where it lands. -/
theorem Fabric.land_config {f' : Fabric} {d : Nat} (ht : f.takeFlit s 4 (.config d) (fun _ => true) = some (g, f')) :
    f.land s (.config d) = f' := by
  simp only [Fabric.land, ht, Bool.and_false, Bool.false_eq_true, if_false]

/-! ### Dead links (R354, R355) -/

/-- What lies in the retry buffer of a direction that dies is lost. -/
theorem Fabric.directionDies_loses_sent {e : Sent} (h : e ∈ (f.units.link n).buf) : e.flit ∈ (f.directionDies n).units.lost :=
  List.mem_append_left _ (List.mem_append_left _ (List.mem_append_right _ (List.mem_map_of_mem h)))

/-- What its router was to send over it next is lost too. -/
theorem Fabric.directionDies_loses_waiting {b : Nat × List Flit} (hb : b ∈ f.units.mesh.bufs) (hg : g ∈ b.2)
    (hs : b.1 / 64 = (linkEnds n).1) (ho : f.units.mesh.out (linkEnds n).1 g = (linkEnds n).2) :
    g ∈ (f.directionDies n).units.lost := by
  refine List.mem_append_left _ (List.mem_append_right _ (List.mem_flatMap.2 ⟨b, hb, ?_⟩))
  rw [if_pos (decide_eq_true hs)]
  exact List.mem_filter.2 ⟨hg, decide_eq_true ho⟩

/-- A direction that has died sends and replays nothing more. -/
theorem Fabric.directionDies_link_same :
    (f.directionDies n).units.link n = { f.units.link n with dead := true, buf := [], cursor := 0, nak := false } :=
  sget_sset_same ..

/-- The death of a direction leaves every other link's retry. -/
theorem Fabric.directionDies_link_other {r : Nat} (h : r ≠ n) : (f.directionDies n).units.link r = f.units.link r :=
  sget_sset_other _ _ _ h

/-- A live direction without another dies alone. -/
theorem Fabric.linkDies_alone (hn : (f.units.link n).dead = false) (hr : reverseLink n = none) :
    f.linkDies n = f.directionDies n := by
  simp only [Fabric.linkDies, hr, Option.toList_none, List.foldl_cons, List.foldl_nil, hn, Bool.false_eq_true, if_false]

/-- A live link dies in one direction, then in the other. -/
theorem Fabric.linkDies_both {r : Nat} (hn : (f.units.link n).dead = false) (hr : (f.units.link r).dead = false) (hne : n ≠ r)
    (hrev : reverseLink n = some r) : f.linkDies n = (f.directionDies n).directionDies r := by
  simp only [Fabric.linkDies, hrev, Option.toList_some, List.foldl_cons, List.foldl_nil, hn, hr,
    Fabric.directionDies_link_other hne.symm, Bool.false_eq_true, if_false]

/-- A reroute with tables and paths that may stand records the losses, resolves them and lets injection go on. -/
theorem Fabric.reroute_ends {tables : List (Nat × Nat × Nat)} {paths : List (Nat × List RoutePath)} (free : Nat → Row)
    (hp : f.units.paused = true) (hs : f.allStill = true)
    (ha : ∀ n ∈ f.units.deadLinks, (f.units.mesh.rewrite tables).avoids n = true)
    (ht : ∀ e ∈ tables, (f.units.mesh.rewrite tables).reaches e.2.1 256 e.1 = true) (hr : f.units.relaysAll paths = true) :
    f.reroute tables paths free =
      let g := f.modUnits fun u => { u.relay paths with mesh := f.units.mesh.rewrite tables }
      let g := (f.units.lost.map Flit.src).eraseDups.zipIdx.foldl (fun g p => g.lossRecord f.units.lost free p.1 p.2) g
      ((f.units.lost.foldl (fun g x => g.resolveLoss x.what) g).modUnits fun u =>
        { u with lost := [], paused := false }).pruneHome := by
  simp only [Fabric.reroute, hp, hs, List.all_eq_true.2 ha, List.all_eq_true.2 ht, hr, Bool.not_true, Bool.or_self,
    Bool.false_eq_true, if_false]

end Sys2Proof.Machine

namespace Sys2Proof.Proofs

open Sys2Proof.Machine Sys2Proof.Claims

/-! ### Links carry and retry units -/

/-- A unit that is the next to cross a link is received there, as the sender then stands. -/
theorem unitReceive_crosses {f g' : Fabric} {mem : Memory} {n q : Nat} {what : LinkUnit} {g : Flit} {l : Link} {good : Bool}
    (h : Crosses f n what g q l g') : f.unitReceive mem n what good = g'.received n l q g good := by
  obtain ⟨hlive, h4, h5, hfar, ⟨e, he, rfl, rfl, rfl, rfl, rfl⟩ | ⟨hnone, hroom, htake, rfl, rfl⟩⟩ := h
  · simp only [Fabric.unitReceive, h4, h5, if_false, Fabric.cross, hlive, Option.isNone_eq_false_iff.2 hfar, Bool.or_self,
      Bool.false_eq_true, he, if_true]
  · simp only [Fabric.unitReceive, h4, h5, if_false, Fabric.cross, hlive, Option.isNone_eq_false_iff.2 hfar, Bool.or_self,
      Bool.false_eq_true, hnone, Nat.not_le.2 hroom, htake]

/-- LINK_UNIT_RECEIVE leaves memory, and changes the fabric as the output behind the link's number tells. -/
theorem memMoves_of_unitReceive {n : Nat} {what : LinkUnit} {good : Bool} {pre : Memory → Fabric → Prop}
    {post : Memory → Fabric → Fabric} (h : ∀ mem f, pre mem f → f.unitReceive mem n what good = post mem f) :
    MemMoves (.linkUnitReceive n what good) pre fun mem f => (mem, post mem f) :=
  memMoves_of_memStep (fun _ => rfl) fun mem f hp => congrArg (mem, ·) (h mem f hp)

/-- Where neither condition nor outcome looks at memory, it is an event of the fabric. -/
theorem moves_of_unitReceive {n : Nat} {what : LinkUnit} {good : Bool} {pre : Fabric → Prop} {post : Fabric → Fabric}
    (h : ∀ mem f, pre f → f.unitReceive mem n what good = post f) : Moves (.linkUnitReceive n what good) pre post :=
  fun s => memMoves_of_unitReceive (pre := fun _ => pre) (post := fun _ => post) h s

/-- An event of a live link changes that link alone. -/
theorem moves_of_liveLink {i : Instr} {n : Nat} {act : Link → Link} {pre : Fabric → Prop} {post : Link → Link}
    (he : ∀ s, exec i s = fabricStep (fun f => if (f.units.link n).dead then f else f.modLink n act) s)
    (h : ∀ f, pre f → act (f.units.link n) = post (f.units.link n)) :
    Moves i (fun f => (f.units.link n).dead = false ∧ pre f) fun f => f.modLink n post := by
  refine moves_of_fabricStep he ?_
  rintro f ⟨hlive, hp⟩
  simp only [hlive, Bool.false_eq_true, if_false]
  exact Fabric.modLink_congr (h f hp)

theorem retryCarries : RetryCarries := by
  refine ⟨fun n what g q l g' => moves_of_unitReceive ?accepts, fun n what good g q l g' => moves_of_unitReceive ?discards,
    fun n => moves_of_liveLink (fun _ => rfl) ?ack, fun n => moves_of_liveLink (fun _ => rfl) ?nak,
    fun n => moves_of_liveLink (fun _ => rfl) ?timeout⟩
  case accepts =>
    rintro mem f ⟨hc, hq⟩
    rw [unitReceive_crosses hc, Fabric.received_accepts hq]
  case discards =>
    rintro mem f ⟨hc, hbad⟩
    rw [unitReceive_crosses hc, Fabric.received_discards hbad]
  case ack => exact fun f hsome => if_neg hsome
  case nak =>
    intro f hnak
    simp only [Link.nakked, hnak, Bool.not_true, Bool.false_eq_true, if_false]
  case timeout =>
    rintro f ⟨hbuf, hstall⟩
    simp only [Link.timeout, hbuf, Nat.not_lt.2 hstall, decide_false, Bool.or_self, Bool.false_eq_true, if_false]

/-! ### Routers inject and land units -/

section

variable {f : Fabric} {mem : Memory} {n site : Nat} {what : LinkUnit} {good : Bool}

/-- At the place of injection of a site, LINK_UNIT_RECEIVE injects. -/
theorem unitReceive_injects (he : linkEnds n = (site, 5)) : f.unitReceive mem n what good = f.inject mem site what := by
  simp only [Fabric.unitReceive, he, if_true]

/-- At the local port of its router, it lands. -/
theorem unitReceive_lands (he : linkEnds n = (site, 4)) : f.unitReceive mem n what good = f.land site what := by
  simp only [Fabric.unitReceive, he, show (4 : Nat) ≠ 5 by decide, if_false, if_true]

end

theorem routersServe : RoutersServe := by
  refine ⟨fun n site what g => memMoves_of_unitReceive ?injects, fun n site what g f' => moves_of_unitReceive ?lands,
    fun n site d g f' => moves_of_unitReceive ?config, fun n site what => moves_of_unitReceive ?pauses⟩
  case injects =>
    rintro mem f ⟨hsite, hflit, hsrc, hgoes, hnew, hroom⟩
    rw [unitReceive_injects hsite, Fabric.inject_enters hflit hsrc hgoes hnew hroom]
  case lands =>
    rintro mem f ⟨hsite, htake, hawaited, hother⟩
    rw [unitReceive_lands hsite, Fabric.land_keeps htake hawaited hother]
  case config =>
    rintro mem f ⟨hsite, htake⟩
    rw [unitReceive_lands hsite, Fabric.land_config htake]
  case pauses =>
    rintro mem f ⟨hsite, hpaused, hother⟩
    rw [unitReceive_injects hsite, Fabric.inject_pauses hpaused hother]

/-! ### Dead links are rerouted -/

theorem linksDie : LinksDie := by
  refine ⟨fun n e => moves_of_fabricStep (fun _ => rfl) ?replayed, fun n => moves_of_fabricStep (fun _ => rfl) ?lives,
    fun n => moves_of_fabricStep (fun _ => rfl) ?untrained, fun _ _ => Fabric.linkDies_alone,
    fun _ _ _ => Fabric.linkDies_both, fun f n => ⟨Fabric.directionDies_link_same, rfl, rfl,
      fun _ => Fabric.directionDies_loses_sent, fun _ hb _ => Fabric.directionDies_loses_waiting hb⟩, ?reroute⟩
  case replayed =>
    rintro f ⟨he, hreplays⟩
    exact if_pos (List.any_eq_true.2 ⟨e, he, decide_eq_true hreplays⟩)
  case lives =>
    intro f hfew
    refine if_neg fun hany => ?_
    obtain ⟨e, he, hreplays⟩ := List.any_eq_true.1 hany
    exact absurd (of_decide_eq_true hreplays) (Nat.not_le.2 (hfew e he))
  case untrained =>
    intro f hlink
    simp only [Option.isNone_eq_false_iff.2 hlink, Bool.false_eq_true, if_false]
  case reroute =>
    intro s tables paths hplan hpaused hstill havoid hreach hrelay
    show execRerouteComplete s = _
    simp only [execRerouteComplete, hplan, Fabric.reroute_ends _ hpaused hstill havoid hreach hrelay]

/-- Settles O47: a unit by the outcome of its check at the receiver, a router's by its place on its way, and a link's end by its
directions, each of which loses what waits for it. -/
theorem linksRecover : Obligations.LinksRecover :=
  ⟨retryCarries, routersServe, linksDie⟩

end Sys2Proof.Proofs

end
